-- ==== Sys2Proof/Word.lean ====
section
/-! DEFINITION. The word types of the module (R11: little-endian, bit 0 least significant), the sparse
table that every array of like units is held in, and byte memory as a list of cells. -/

namespace Sys2Proof

abbrev Byte := BitVec 8
abbrev W32 := BitVec 32
abbrev W64 := BitVec 64
abbrev W128 := BitVec 128

/-- A numbered array of like things: a list of (number, value) with strictly rising numbers, in which
a thing at its reset value is not listed. -/
abbrev Table (α : Type) := List (Nat × α)

/-- Byte memory in the same canonical form, with the value 0 unlisted. -/
abbrev Memory := List Host.Cell

end Sys2Proof
end

