-- ==== Sys2Proof/Syntax.lean ====
section
/-! DEFINITION. The commands: one constructor per row of spec/opcode_table.json, with the operands the rule of the
row names. A row about a core instruction, a bank command or a descriptor names the core, the channel or the ring:
the word itself is the one the unit holds next. -/

namespace Sys2Proof

/-- A 64 B descriptor, eight little-endian 64-bit words (R373). -/
structure Desc where
  w0 : W64 := 0
  w1 : W64 := 0
  w2 : W64 := 0
  w3 : W64 := 0
  w4 : W64 := 0
  w5 : W64 := 0
  w6 : W64 := 0
  w7 : W64 := 0
  deriving DecidableEq, Repr

/-- The rails of R459. -/
inductive Rail where
  | p12 | vaon | vhub | vio | vmill (m : Fin 4) | vqrn (g : Fin 3) | vbase | vpp | vddDram
  deriving DecidableEq, Repr

/-- The clocks that R471 steps. -/
inductive ClockId where
  | hub | mill (m : Fin 4) | stack (s : Fin 12)
  deriving DecidableEq, Repr

/-- The units that the throttle rows of R480 name. -/
inductive ThermalUnit where
  | dram (s : Fin 12) | mill (m : Fin 4) | hub | board
  deriving DecidableEq, Repr

/-- A far-path request (R56): a read of `len` bytes, or a write with a poison flag per 32 B unit (R99). -/
inductive FarOp where
  | read (len : Nat)
  | write (data : List Byte) (poison : List Bool)
  deriving DecidableEq, Repr

/-- A firmware image and its two signatures (R432, R456). -/
structure FwImage where
  bytes : List Byte := []
  edSig : List Byte := []
  mlSig : List Byte := []
  deriving DecidableEq, Repr

/-- A debug token or a signed state command (R436, R438). -/
structure Signed where
  level : Nat := 0
  nonce : BitVec 256 := 0
  device : BitVec 384 := 0
  edSig : List Byte := []
  mlSig : List Byte := []
  deriving DecidableEq, Repr

/-- What INSTALL_OWNER stores (R436). -/
structure OwnerKeys where
  ed : List Byte
  ml : List Byte
  wrap : BitVec 256
  deriving DecidableEq, Repr

/-- The port an SPDM request arrives at (R433). -/
inductive SpdmPort where
  | host | mgmt | wilril
  deriving DecidableEq, Repr

/-- A change that IDE_KM makes, with the key it sets (R353, R362, R430). -/
inductive IdeChange where
  | link (secure : Bool) (key : BitVec 256) | selective (k : Fin 4) (secure : Bool) (key : BitVec 256)
  | cxl (mode : Fin 3) (key : BitVec 256)
  deriving DecidableEq, Repr

/-- The host-visible ranges of R339. -/
inductive HostSpace where
  | bar0 | bar2 | window
  deriving DecidableEq, Repr

/-- How an inbound request travels (R347, R354, R355): in a Secure stream, in which selective stream, its
tag, and for the window in a coherent mode whether a read takes the line exclusively and whether a write is the
host's own write-back of such a line (R340). -/
structure HostAttr where
  secure : Bool := false
  stream : Option (Fin 4) := none
  tag : Nat := 0
  exclusive : Bool := false
  deriving DecidableEq, Repr

/-- The answer to a module-issued read of host memory (R343). -/
inductive HostAnswer where
  | data (bytes : List Byte) (poison : Bool)
  | error
  deriving DecidableEq, Repr

/-- R403: what one message brings of a block: bytes and their place in it. -/
structure BlockPart where
  offset : Nat := 0
  bytes : List (BitVec 8)
  deriving DecidableEq, Repr

/-- R403, R410: one message of a REPL: a part of its bytes, and whether it is the last. -/
structure ReplPart extends BlockPart where
  last : Bool := true
  deriving DecidableEq, Repr

/-- The header flit of a Wilril message (R404) and the outcome of its authentication tag (R405). -/
structure MsgHeader where
  cls : Nat := 0
  flits : Nat := 0
  mseq : W32 := 0
  jobtag : W32 := 0
  tagOk : Bool := true
  deriving DecidableEq, Repr

/-- The fields of a heartbeat (R406). -/
structure Heartbeat where
  hseq : W32 := 0
  pstate : Nat := 0
  ccRestart : BitVec 4 := 0
  failed : Bool := false
  brake : Bool := false
  hostlink : Nat := 0
  deriving DecidableEq, Repr

/-- An owner table as a module tells its partner of it (R401 step 4, R413, R422). -/
structure PeerTable where
  tensor : Nat
  nblock : Nat
  log2 : Nat
  entries : List (BitVec 64)
  /-- R451: per entry the PKG_ID and PKG_VERSION of the package in whose region the sender's slot of the block lies. -/
  pkgs : List (Option (BitVec 32 × BitVec 32)) := []
  deriving DecidableEq, Repr

/-- A session record that the source of back-fill sends (R422): `owned` at its sender. -/
structure PeerSession where
  sid : W32
  tensor : Nat
  tokens : W32
  owned : Bool
  deriving DecidableEq, Repr

/-- What a CONTROL message carries (R400–R403, R408, R409, R422, R437, R439, R457): `verdict` is the outcome of the partner's own
check of this module, `solo` says that the sender had declared this module failed, and a list of tables may come in several
messages, of which one is the first and one the last. `share` is the sender's part of the key exchange (R452, R457), and the
two signatures of an attestation cover what it says (R437). -/
inductive ControlBody where
  | pairInfo (slot grade epoch : Nat) (pairEn : Bool)
  | attest (edChain mlChain : List Byte) (measurement : BitVec 384) (secState : Nat) (ownerHash : BitVec 384)
      (vendor : Bool) (share edSig mlSig : List Byte)
  | verdict (attested : Bool)
  | tables (list : List PeerTable) (solo first last : Bool)
  | rePair
  | splitResolution (tookOver : Bool)
  | session (sid : W32) (tensor : Nat) (close : Bool)
  | sessions (records : List PeerSession)
  | recoveryWanted (edChain mlChain : List Byte) (grade secState : Nat) (ownerHash : BitVec 384) (share : List Byte)
  | recoverySession (share : List Byte)
  deriving DecidableEq, Repr

/-- What an OWNER_UPD message says of a block: the receiver becomes its owner (R414), or is asked for it (R415), with the
PKG_ID and PKG_VERSION of the package in whose region the destination lies (R451). -/
inductive OwnerMsg where
  | take (seq : Nat)
  | fetch (pkg : Option (BitVec 32 × BitVec 32))
  deriving DecidableEq, Repr

/-- What an ACK says of the oldest message of a class that has none yet (R405): performed or refused, and the SEQ (R410,
R412, R414). -/
structure AckBody where
  cls : Nat
  ok : Bool
  seq : Nat
  deriving DecidableEq, Repr

/-- A JTAG access (R438, R447, R509). -/
inductive JtagAccess where
  | bypass | idcode
  | readReg (off : Nat) | writeReg (off : Nat) (value : W32)
  | readMem (da : Nat) (len : Nat) | writeMem (da : Nat) (data : List Byte)
  | readImem (core : Fin 1200) (index : Fin 1024) | writeImem (core : Fin 1200) (index : Fin 1024) (word : W128)
  | arwyn
  deriving DecidableEq, Repr

/-- The commands of the block. -/
inductive Instr where
  /-- POWER_UP (R460): Input enters 40–60 V and the rails come up in sequence. -/
  | powerUp (vin : Nat)
  /-- POWER_SEQUENCE_STEP (R460): The power-good of one sequencing step has held for 1 ms, so the next step starts. -/
  | powerSequenceStep
  /-- MGMT_POWER_ON (R461): A management power-on request in OFF runs a power-up. -/
  | mgmtPowerOn
  /-- INPUT_LOST (R484): Loss of the 48 V input removes every rail and all volatile state. -/
  | inputLost
  /-- RAIL_POWER_GOOD_LOST (R461): A rail loses power-good outside a power-down and causes an immediate cut. -/
  | railPowerGoodLost (rail : Rail)
  /-- INPUT_CUT_THRESHOLD (R481): Input falls below 34 V or rises above 64 V and causes a cut. -/
  | inputCutThreshold (vin : Nat)
  /-- SUPPLY_FAULT_TIMEOUT (R481): Input stays below 38 V or above 61 V for 100 µs and causes a supply shutdown. -/
  | supplyFaultTimeout (vin : Nat)
  /-- HARDWARE_TRIP (R484): A trip-diode comparator fires and acts as a cut recorded with KIND 5. -/
  | hardwareTrip
  /-- RESET_N_ASSERTED (R491): The connector reset input asserts a module reset. -/
  | resetNAsserted
  /-- MGMT_MODULE_RESET (R491): A management MODULE_RESET command performs a module reset. -/
  | mgmtModuleReset
  /-- HOT_RESET (R490): A PCIe hot reset ends host-facing state and running work. -/
  | hotReset
  /-- FUNCTION_LEVEL_RESET (R490): An FLR of function 0 performs a host reset with the link staying UP. -/
  | functionLevelReset
  /-- INIT_PHASE_COMPLETE (R493): An initialisation phase completes and the next phase begins, ending in READY. -/
  | initPhaseComplete
  /-- BOOT_ROM (R432): After its reset is released, the Arwyn boot ROM verifies the image, derives CDI_1 and releases the control cores, or enters recovery. -/
  | bootRom
  /-- RECOVERY_PARTNER_TIMEOUT (R457): No partner image has arrived 2 s after power-on, so the recovery ROM also offers host and management mailboxes. -/
  | recoveryPartnerTimeout
  /-- RECOVERY_IMAGE_ACCEPTED (R457): The recovery ROM accepts an image that passes verification, writes it to flash and resets the module. -/
  | recoveryImageAccepted (image : FwImage) (fromPartner : Bool)
  /-- WATCHDOG_EXPIRY (R39): A control core's watchdog expires 2 ms after its last service, and that core is reset and restarted. -/
  | watchdogExpiry (cc : Fin 4)
  /-- FIRMWARE_ASSERTION (R42): A control core's firmware assertion restarts that core. -/
  | firmwareAssertion (cc : Fin 4)
  /-- CONTROL_CORE_FETCH_ERROR (R42): An uncorrectable error on a control-core fetch restarts that core. -/
  | controlCoreFetchError (cc : Fin 4)
  /-- CONTROL_CORE_RESTART_DONE (R40): A control core finishes its restart, and control core 0 re-executes the interrupted descriptor. -/
  | controlCoreRestartDone (cc : Fin 4)
  /-- FAR_PATH_REQUEST (R55): A request arrives at a stack-controller port and waits for scheduling. -/
  | farPathRequest (port : Fin 5) (src : Nat) (auth : Option (Fin 4)) (da : Nat) (req : FarOp)
  /-- URGENCY_AGEING (R57): A waiting request's age crosses T/2 or T, which raises its urgency class and counts it late at T. -/
  | urgencyAgeing (stack : Fin 12)
  /-- SCHEDULER_GRANT (R58): The scheduler grants a bank command or transfer slot to the chosen request. -/
  | schedulerGrant (stack : Fin 12)
  /-- PAGE_IDLE_PRECHARGE (R61): An open bank left without a grant for PAGE_IDLE × 8 ns is precharged. -/
  | pageIdlePrecharge (stack : Fin 12) (chan : Fin 32) (bank : Fin 68)
  /-- REFRESH_DUE (R69): A per-bank refresh interval elapses and a refresh is issued or owed. -/
  | refreshDue (stack : Fin 12) (chan : Fin 32) (bank : Fin 68)
  /-- REFRESH_REPAY (R72): A bank falls idle and repays its owed refreshes. -/
  | refreshRepay (stack : Fin 12) (chan : Fin 32) (bank : Fin 68)
  /-- SENSOR_SAMPLE (R476): The sensor controller samples a sensor, every 1 ms or every 50 µs near a limit. -/
  | sensorSample (sensor : Fin 216) (reading : Option Int)
  /-- CHANNEL_DELAY_SWITCH (R76): A channel finishes its accepted transfers, idles 48 ns and resumes with the new delays. -/
  | channelDelaySwitch (stack : Fin 12) (chan : Fin 32)
  /-- OVER_MAX_TIMEOUT (R480): A stack stays above 95 °C for 100 ms, which is a shutdown condition. -/
  | overMaxTimeout (stack : Fin 12)
  /-- THROTTLE_STEP (R480): Every 1 ms at or above a throttle point, one further throttle step is applied. -/
  | throttleStep (target : ThermalUnit)
  /-- THROTTLE_UNDO (R480): Every 10 ms at 2 °C below the point, one throttle step is undone. -/
  | throttleUndo (target : ThermalUnit)
  /-- BRAKE_COMPLETE (R483): The Brake's final step removes VQRN, drops PAIR_ALIVE and enters STANDBY with BRAKED set. -/
  | brakeComplete
  /-- POWER_MEASUREMENT (R466): Input power is measured at the 48 V side every 10 µs. -/
  | powerMeasurement (vin pin : Nat)
  /-- GOVERNOR_PERIOD (R472): Every 10 µs the Governor sets every domain's allowance, ranks stacks by deadline and throttles as needed. -/
  | governorPeriod
  /-- RATE_LIMITER_WINDOW (R469): A domain limiter measures the power of one 10 µs window and holds the domain to its allowance. -/
  | rateLimiterWindow (domain : Fin 38) (power : Nat)
  /-- CLOCK_RELOCK (R471): A PLL finishes relocking after a clock step change and the clock resumes. -/
  | clockRelock (clock : ClockId)
  /-- PWR_TOK (R473): A write adds reported tokens to a role for energy-per-token accounting. -/
  | pwrTok (role : Fin 3) (add : BitVec 32)
  /-- IDLE_ENTRY (R463): The idle conditions have held for IDLE_DELAY, so the module enters IDLE. -/
  | idleEntry
  /-- IDLE_WAKE (R463): A doorbell, command, message or management request returns the module from IDLE to ACTIVE. -/
  | idleWake
  /-- REQ_STANDBY (R465): A PWR_CTL STANDBY request enters STANDBY, or is refused. -/
  | reqStandby
  /-- REQ_ACTIVE (R465): A PWR_CTL ACTIVE request leaves STANDBY, or is refused. -/
  | reqActive
  /-- MGMT_WAKE (R465): A management wake request leaves STANDBY, or is refused. -/
  | mgmtWake
  /-- STANDBY_EXIT_COMPLETE (R463): The exit from STANDBY completes and the module is ACTIVE, with cores LOADED or TRAPPED. -/
  | standbyExitComplete
  /-- ENTRY_END_TIMEOUT (R173): Entries still running 100 µs after a self-refresh entry begins end as aborted. -/
  | entryEndTimeout (stack : Fin 12)
  /-- CLEARING_COMPLETE (R79): Non-retained channels have been cleared, and the stack becomes READY. -/
  | clearingComplete (stack : Fin 12)
  /-- STACK_LOADING_COMPLETE (R79): Stack initialisation completes and the stack becomes READY, or FAILED. -/
  | stackLoadingComplete (stack : Fin 12) (initOk : Bool) (failed : List Nat)
  /-- BASE_DIE_SELF_CHECK_FAULT (R119): The base die's self-check reports a fault affecting more than one channel. -/
  | baseDieSelfCheckFault (stack : Fin 12)
  /-- STACK_CONTROLLER_TIMEOUT (R119): The stack controller has not answered control core 2 for 1 ms. -/
  | stackControllerTimeout (stack : Fin 12)
  /-- REPAIR (R102): A queued repair at the head of its bank reads and decodes the row and rewrites differing columns. -/
  | repair (stack : Fin 12) (chan : Fin 32) (bank : Fin 68)
  /-- MID_ROW_REPAIR (R171): REPAIR_WAIT expires without a row boundary, so the stream is held and the repair is performed mid-row. -/
  | midRowRepair (stack : Fin 12) (chan : Fin 32) (bank : Fin 68)
  /-- PATROL_SCRUB_READ (R104): The patrol scrubber reads a row and repairs it when it holds an error. -/
  | patrolScrubRead (stack : Fin 12)
  /-- SCRUB_DEFER_TIMEOUT (R105): A row deferred beyond PERIOD/16 is issued as an ordinary port 4 request. -/
  | scrubDeferTimeout (stack : Fin 12)
  /-- MIGRATION_ROW_COPY (R110): After its gap, the migration copies the next row of each bank to the spare layer. -/
  | migrationRowCopy (stack : Fin 12) (chan : Fin 32)
  /-- MIGRATION_SWITCHOVER (R112): When no stream holds the failing layer, the spare layer takes over its logical layer number. -/
  | migrationSwitchover (stack : Fin 12) (chan : Fin 32)
  /-- QUERN_ROW_BOUNDARY_TIMEOUT (R109): A quern does not answer its sequencer at a row boundary, which fails it. -/
  | quernRowBoundaryTimeout (stack : Fin 12) (chan : Fin 32) (bank : Fin 64)
  /-- BANK_REMAP_COPY (R115): The remap copies the next row of the failed bank to the lowest free spare bank. -/
  | bankRemapCopy (stack : Fin 12) (chan : Fin 32)
  /-- BANK_REMAP_COMPLETE (R115): The copy completes, and the spare bank's quern serves under the failed tuple. -/
  | bankRemapComplete (stack : Fin 12) (chan : Fin 32)
  /-- SPARE_REQ_MIGRATE (R123): An STK_SPARE_REQ write of KIND 1 starts a layer migration. -/
  | spareReqMigrate (stack : Fin 12) (chan : Fin 32) (layer : Fin 16)
  /-- SPARE_REQ_REMAP (R123): An STK_SPARE_REQ write of KIND 2 starts a bank remap. -/
  | spareReqRemap (stack : Fin 12) (chan : Fin 32) (layer : Fin 16) (bank : Fin 4)
  /-- SPARE_REQ_RESERVED (R123): An STK_SPARE_REQ write of KIND 3 is ignored and logged. -/
  | spareReqReserved (stack : Fin 12) (chan : Fin 32)
  /-- SPARE_REQ_NO_ACTION (R123): An STK_SPARE_REQ write of KIND 0 does nothing. -/
  | spareReqNoAction (stack : Fin 12)
  /-- FLIP_ARM (R126): Writing ARM 1 arms the flip mask for the next qualifying write. -/
  | flipArm (stack : Fin 12) (value : BitVec 32)
  /-- QUERN_JOB_START (R153): A waiting quern job starts on a free channel of a READY stack. -/
  | quernJobStart (stack : Fin 12) (chan : Fin 32)
  /-- SEQ_NOP (R154): Bank command NOP waits WAIT qclk before the next command. -/
  | seqNop (stack : Fin 12) (chan : Fin 32)
  /-- SEQ_NOP_WAIT_DONE (R154): A NOP's WAIT elapses and the next command issues. -/
  | seqNopWaitDone (stack : Fin 12) (chan : Fin 32)
  /-- ACT (R154): Bank command ACT opens ROW in the named banks as admission and timing allow. -/
  | act (stack : Fin 12) (chan : Fin 32)
  /-- OPW (R154): Bank command OPW sends an operation beat giving the named querns their operation words. -/
  | opw (stack : Fin 12) (chan : Fin 32)
  /-- BCAST (R160): Bank command BCAST broadcasts NV vectors over the millrace into the latches. -/
  | bcast (stack : Fin 12) (chan : Fin 32)
  /-- BCAST_DONE (R160): The BCAST's last beat passes, querns leave LOAD, and the next command issues. -/
  | bcastDone (stack : Fin 12) (chan : Fin 32)
  /-- STRM (R156): Bank command STRM feeds rows and columns to the querns of the named banks in the background. -/
  | strm (stack : Fin 12) (chan : Fin 32)
  /-- TREE (R163): Bank command TREE sets a tailrace tree's mode, output address and contributors. -/
  | tree (stack : Fin 12) (chan : Fin 32)
  /-- SYNC (R157): Bank command SYNC waits until its querns are idle, ending short querns. -/
  | sync (stack : Fin 12) (chan : Fin 32)
  /-- SYNC_MET (R154): The SYNC condition is met and the sequencer resumes issuing. -/
  | syncMet (stack : Fin 12) (chan : Fin 32)
  /-- PRE (R154): Bank command PRE precharges each named bank when its stream ends. -/
  | pre (stack : Fin 12) (chan : Fin 32)
  /-- END (R158): Bank command END waits as a SYNC over every bank of the entry. -/
  | endCmd (stack : Fin 12) (chan : Fin 32)
  /-- ENTRY_END (R158): END's wait completes, the entry's banks are precharged and released, and the sequencer goes IDLE. -/
  | entryEnd (stack : Fin 12) (chan : Fin 32)
  /-- BROADCAST_PREFETCH (R324): The base die fetches the first 32 KiB of upcoming BCASTs into prefetch slots as they free. -/
  | broadcastPrefetch (stack : Fin 12) (chan : Fin 32)
  /-- MULTICAST_DELIVERY (R326): A multicast group's source is read once and delivered to members with free slots. -/
  | multicastDelivery (group : Nat)
  /-- MULTICAST_WAIT_TIMEOUT (R327): After 2 µs the group delivers to ready members and detaches the others. -/
  | multicastWaitTimeout (group : Nat)
  /-- BANK_ADMISSION (R166): A waiting bank is admitted to stream when a place under ALLOW frees. -/
  | bankAdmission (stack : Fin 12) (chan : Fin 32)
  /-- ROW_BOUNDARY (R168): At a stream's row boundary, the sequencer holds, repairs, refreshes or serves requests, then opens the next row. -/
  | rowBoundary (stack : Fin 12) (chan : Fin 32) (bank : Fin 64)
  /-- COLUMN_DELIVERED (R135): A column enters a quern's pipeline and contributes to its accumulators. -/
  | columnDelivered (stack : Fin 12) (chan : Fin 32) (bank : Fin 64)
  /-- DRAIN_STALL_RELEASE (R139): A quern stopped for a busy drain buffer or refused tailrace makes its drain copy and resumes. -/
  | drainStallRelease (stack : Fin 12) (chan : Fin 32) (bank : Fin 64)
  /-- EXPONENT_STEP_DONE (R141): An ATTN block's exponent step finishes, its header is sent, and the values stream. -/
  | exponentStepDone (stack : Fin 12) (chan : Fin 32) (bank : Fin 64)
  /-- TREE_OUTPUT_UNIT (R164): A tree emits an output unit once all the inputs it needs have arrived. -/
  | treeOutputUnit (stack : Fin 12) (chan : Fin 32) (tree : Nat)
  /-- TAILRACE_ADDR_ERROR (R520): A tailrace write receives an address error, the unit is lost, and the entry ends as at END. -/
  | tailraceAddrError (stack : Fin 12) (chan : Fin 32)
  /-- QUERN_JOB_COMPLETE (R153): Every channel has ended or refused, all tailrace writes are performed, and the completion is written. -/
  | quernJobComplete (job : Nat)
  /-- QUERN_ARRIVAL_RELEASE (R323): A quern job's arrival waiting on a full Q12 is pushed. -/
  | quernArrivalRelease (job : Nat)
  /-- SEQ_TABLE_WRITE (R180): A sequence-table write is applied, or ignored with WR_IGNORED while sequencers run. -/
  | seqTableWrite (off : Nat) (value : BitVec 32)
  /-- PK1_ENABLE (R181): Writing EN 1 activates the PK1 aperture. -/
  | pk1Enable
  /-- PK1_DISABLE (R181): Writing EN 0 stops the aperture after its current line. -/
  | pk1Disable
  /-- PK1_DOORBELL (R177): A write of LAST makes every line up to LAST eligible. -/
  | pk1Doorbell (last : BitVec 16)
  /-- PK1_LINE (R177): The next eligible line is executed wholly, in LSEQ order. -/
  | pk1Line
  /-- PK1_SKIP (R178): Writing 1 to HALTED skips the rejected line and resumes. -/
  | pk1Skip
  /-- PNOP (R176): PK1 command PNOP does nothing. -/
  | pnop (stack : Fin 12) (chan : Fin 32)
  /-- PACT (R176): PK1 command PACT opens a row in a bank assigned to the aperture. -/
  | pact (stack : Fin 12) (chan : Fin 32) (bank : Fin 64) (row : Nat)
  /-- PPRE (R176): PK1 command PPRE precharges and releases the bank. -/
  | ppre (stack : Fin 12) (chan : Fin 32) (bank : Fin 64)
  /-- PLOAD (R176): PK1 command PLOAD records the latch slot for the bank. -/
  | pload (stack : Fin 12) (chan : Fin 32) (bank : Fin 64) (slot : Fin 128)
  /-- PMAC (R176): PK1 command PMAC runs a one-bank GEMV into a result slot. -/
  | pmac (stack : Fin 12) (chan : Fin 32) (word : BitVec 64)
  /-- NOP (R198): Control instruction NOP does nothing. -/
  | nop (core : Fin 1200)
  /-- LOOP (R199): LOOP latches its count and starts a hardware loop, or skips the body. -/
  | loop (core : Fin 1200)
  /-- BREAK (R201): BREAK leaves the LEVELS innermost loops. -/
  | breakLoop (core : Fin 1200)
  /-- JUMP (R198): JUMP continues at a later TARGET. -/
  | jump (core : Fin 1200)
  /-- YIELD (R192): YIELD ends the current task's turn. -/
  | yieldTask (core : Fin 1200)
  /-- TEND (R198): TEND ends the task. -/
  | tend (core : Fin 1200)
  /-- STRAP (R198): STRAP traps with SOFT and records CODE. -/
  | strap (core : Fin 1200)
  /-- BKPT (R198): BKPT traps when enabled and permitted, and otherwise acts as NOP. -/
  | bkpt (core : Fin 1200)
  /-- RESERVED_ENCODING_FETCH (R221): A reserved encoding reaches execution and traps with ILLEGAL. -/
  | reservedEncodingFetch (core : Fin 1200)
  /-- MOVI (R203): P[PD] = IMM. -/
  | movi (core : Fin 1200)
  /-- MOV (R203): P[PD] = P[PA]. -/
  | mov (core : Fin 1200)
  /-- ADD (R203): P[PD] = P[PA] + P[PB]. -/
  | add (core : Fin 1200)
  /-- ADDI (R203): P[PD] = P[PA] + IMM. -/
  | addi (core : Fin 1200)
  /-- SUB (R203): P[PD] = P[PA] − P[PB]. -/
  | sub (core : Fin 1200)
  /-- MUL (R203): P[PD] = low 32 bits of P[PA] × P[PB]. -/
  | mul (core : Fin 1200)
  /-- AND (R203): Bitwise AND of two parameters. -/
  | and (core : Fin 1200)
  /-- OR (R203): Bitwise OR of two parameters. -/
  | or (core : Fin 1200)
  /-- XOR (R203): Bitwise XOR of two parameters. -/
  | xor (core : Fin 1200)
  /-- SHL (R203): Shift left by IMM[4:0]. -/
  | shl (core : Fin 1200)
  /-- SHR (R203): Logical shift right by IMM[4:0]. -/
  | shr (core : Fin 1200)
  /-- SAR (R203): Arithmetic shift right by IMM[4:0]. -/
  | sar (core : Fin 1200)
  /-- MINU (R203): Unsigned minimum of two parameters. -/
  | minu (core : Fin 1200)
  /-- MAXU (R203): Unsigned maximum of two parameters. -/
  | maxu (core : Fin 1200)
  /-- CMP (R203): F[FD] = COND of two parameters. -/
  | cmp (core : Fin 1200)
  /-- CMPI (R203): F[FD] = COND of a parameter and IMM. -/
  | cmpi (core : Fin 1200)
  /-- LIDX (R203): P[PD] = iteration number of a loop level. -/
  | lidx (core : Fin 1200)
  /-- COREID (R203): P[PD] = this core's number. -/
  | coreid (core : Fin 1200)
  /-- TIME (R203): P[PD] = low 32 bits of the module timestamp. -/
  | time (core : Fin 1200)
  /-- FSET (R203): F[FD] = IMM[0]. -/
  | fset (core : Fin 1200)
  /-- PUSHH (R204): Pushes a handle built from immediates and parameters. -/
  | pushh (core : Fin 1200)
  /-- PUSHV (R204): Pushes the value P[PA]. -/
  | pushv (core : Fin 1200)
  /-- POPV (R204): Pops a value into P[PD], trapping on a handle or poison. -/
  | popv (core : Fin 1200)
  /-- DROP (R204): Discards the head entry. -/
  | drop (core : Fin 1200)
  /-- DUP (R204): Copies an entry to two queues. -/
  | dup (core : Fin 1200)
  /-- MOVE (R204): Moves an entry between queues. -/
  | move (core : Fin 1200)
  /-- SPLIT (R204): Splits a handle into two handles. -/
  | split (core : Fin 1200)
  /-- HLEN (R204): Reads a handle's LEN and POISON. -/
  | hlen (core : Fin 1200)
  /-- QTEST (R204): Sets a flag if a queue has IMM visible entries. -/
  | qtest (core : Fin 1200)
  /-- QCOUNT (R204): Reads the number of visible entries of a queue. -/
  | qcount (core : Fin 1200)
  /-- LD (R206): Issues reads of a DA range into a scratchpad region. -/
  | ld (core : Fin 1200)
  /-- LD_COMPLETE (R205): Every byte of an LD is in the scratchpad, and its handle is pushed with poison, or POISON traps. -/
  | ldComplete (core : Fin 1200) (xfer : Nat)
  /-- ST (R206): Issues writes of a scratchpad region to a DA. -/
  | st (core : Fin 1200)
  /-- ST_PERFORMED (R207): Every byte of an ST is performed, and its handle is pushed. -/
  | stPerformed (core : Fin 1200) (xfer : Nat)
  /-- FENCE (R205): FENCE blocks the task until its earlier LD and ST complete. -/
  | fence (core : Fin 1200)
  /-- SIGNAL (R208): SIGNAL sends an entry toward another core's Q13. -/
  | signal (core : Fin 1200)
  /-- SIGNAL_DELIVERED (R208): The target's Q13 accepts the SIGNAL entry, and the task unblocks. -/
  | signalDelivered (core : Fin 1200) (task : Fin 4)
  /-- POST (R208): POST hands a 64 B descriptor to a submission ring. -/
  | post (core : Fin 1200)
  /-- DMAP (R208): DMAP hands a DMA descriptor to a channel of the core's mill die. -/
  | dmap (core : Fin 1200)
  /-- EVENT (R208): EVENT writes an event record with ECODE. -/
  | event (core : Fin 1200)
  /-- MMA (R236): MMA accumulates A × B into an accumulator and optionally writes the tile. -/
  | mma (core : Fin 1200)
  /-- MMA_COMPLETE (R236): The tile's last beat is written, and a handle is pushed into Q14. -/
  | mmaComplete (core : Fin 1200)
  /-- MSCL (R235): MSCL loads the E8M0 scale registers. -/
  | mscl (core : Fin 1200)
  /-- MLDC (R231): MLDC loads an accumulator from a region. -/
  | mldc (core : Fin 1200)
  /-- VOP (R253): VOP applies one stage to every active lane. -/
  | vop (core : Fin 1200)
  /-- VQMX (R254): VQMX quantises elements to an MX format with block scales. -/
  | vqmx (core : Fin 1200)
  /-- CHAIN (R256): CHAIN applies up to eight stages in one or two passes. -/
  | chain (core : Fin 1200)
  /-- GATHER (R259): GATHER writes out[i] = data[idx[i]]. -/
  | gather (core : Fin 1200)
  /-- SCATTER (R259): SCATTER writes out[idx[i]] = data[i]. -/
  | scatter (core : Fin 1200)
  /-- COMPRESS (R261): COMPRESS packs active elements in lane order. -/
  | compress (core : Fin 1200)
  /-- EXPAND (R261): EXPAND spreads packed elements to active lanes. -/
  | expand (core : Fin 1200)
  /-- VECTOR_COMPLETE (R240): A vector-engine instruction's last write is performed, its entries become visible and its flag is written. -/
  | vectorComplete (core : Fin 1200)
  /-- TASK_READY (R192): A blocked task's condition is met and it becomes ready. -/
  | taskReady (core : Fin 1200) (task : Fin 4)
  /-- TASK_SWITCH (R192): A task has been blocked SWITCH_WAIT cclk while another is ready, so the core switches. -/
  | taskSwitch (core : Fin 1200)
  /-- DEADLOCK (R193): All live tasks have been blocked for BLOCK_LIMIT µs, and the core traps. -/
  | deadlock (core : Fin 1200)
  /-- STOP_DRAIN_COMPLETE (R219): A stopping core's issued work completes, and it returns to LOADED with the launch aborted. -/
  | stopDrainComplete (core : Fin 1200)
  /-- LOAD (R212): A LOAD descriptor reads and verifies a program image. -/
  | load (ring : Fin 1024)
  /-- PROGRAM_LOAD_CORE_WRITE (R212): A target core becomes free and its instruction memory and parameter image are written. -/
  | programLoadCoreWrite (core : Fin 1200)
  /-- LAUNCH (R217): A LAUNCH descriptor starts the named cores' programs. -/
  | launch (ring : Fin 1024)
  /-- STOP_REQUEST (R219): A LAUNCH descriptor with OP 1 stops the named running cores. -/
  | stopRequest (ring : Fin 1024)
  /-- PATCH (R216): A PATCH descriptor writes pairs into the named cores' parameter images. -/
  | patch (ring : Fin 1024)
  /-- DMA (R268): A DMA descriptor from a ring is started on channel TCH or the sluice. -/
  | dma (ring : Fin 1024)
  /-- QUERN (R378): A QUERN descriptor submits a quern job. -/
  | quern (ring : Fin 1024)
  /-- FENCE_DESCRIPTOR (R385): A FENCE descriptor holds later descriptors of its ring. -/
  | fenceDescriptor (ring : Fin 1024)
  /-- FENCE_RELEASE (R385): Every earlier descriptor has its record, so the fence's record is written and the ring proceeds. -/
  | fenceRelease (ring : Fin 1024)
  /-- EVENT_DESCRIPTOR (R380): An EVENT descriptor writes one event record. -/
  | eventDescriptor (ring : Fin 1024)
  /-- CHECK (R389): A CONFIG CHECK tests every staged value. -/
  | check (ring : Fin 1024)
  /-- COMMIT (R390): A CONFIG COMMIT checks EXPECT and a snapshot and applies staged values. -/
  | commit (ring : Fin 1024)
  /-- DISCARD (R391): A CONFIG DISCARD resets staged values to the values in effect. -/
  | discard (ring : Fin 1024)
  /-- CONFIG_RESERVED_OP (R379): A CONFIG descriptor with OP 0 completes with ST_BADDESC. -/
  | configReservedOp (ring : Fin 1024)
  /-- EPOCH_BOUNDARY (R390): Every changed value is acknowledged and applied at one instant, HUB_CFG_EPOCH rises, and the front end resumes. -/
  | epochBoundary
  /-- HUB_CFG_CHECK (R392): A HUB_CFG_CTL CHECK write runs CHECK. -/
  | hubCfgCheck
  /-- HUB_CFG_COMMIT (R392): A HUB_CFG_CTL COMMIT write runs COMMIT with HUB_CFG_EXPECT. -/
  | hubCfgCommit
  /-- HUB_CFG_DISCARD (R392): A HUB_CFG_CTL DISCARD write runs DISCARD. -/
  | hubCfgDiscard
  /-- SQ_TAIL (R367): An SQ_TAIL doorbell write sets the pending range, or is ignored. -/
  | sqTail (ring : Fin 1024) (value : BitVec 32)
  /-- CQ_HEAD (R368): A CQ_HEAD doorbell write releases consumed records, or is ignored. -/
  | cqHead (ring : Fin 1024) (value : BitVec 32)
  /-- RING_SLOT_FETCH (R370): A slot fetch returns, and visible descriptors are taken in order. -/
  | ringSlotFetch (ring : Fin 1024) (slots : List Desc)
  /-- SLOT_REREAD (R371): A non-visible slot is re-read every 250 ns. -/
  | slotReread (ring : Fin 1024) (slot : Desc)
  /-- RING_STALL (R371): A slot still not visible after 2 µs stalls the ring with DB_EARLY. -/
  | ringStall (ring : Fin 1024)
  /-- IRQ_TIME_TRIGGER (R395): The oldest uncovered record reaches TIME µs and the interrupt is raised. -/
  | irqTimeTrigger (ring : Fin 1024)
  /-- MSIX_UNMASK (R395): Unmasking a vector sends its pending message. -/
  | msixUnmask (vector : Fin 1025)
  /-- RING_ENABLE (R365): Writing EN 1 resets the indices and phases and runs the ring. -/
  | ringEnable (ring : Fin 1024) (value : BitVec 32)
  /-- RING_DISABLE (R396): Writing EN 0 stops fetching, drains the ring and disables it. -/
  | ringDisable (ring : Fin 1024) (value : BitVec 32)
  /-- RING_CONFIG_WRITE (R396): A write to ring base or RING_CFG applies only while the ring is DISABLED. -/
  | ringConfigWrite (ring : Fin 1024) (reg : Fin 5) (value : BitVec 32)
  /-- DMA_START_TAKEN (R287): An idle channel takes its next pending start and fetches the descriptor. -/
  | dmaStartTaken (g : Fin 64)
  /-- DESCRIPTOR_FETCH_RESPONSE (R269): A fetched descriptor is checked and runs, is refused, or halts the channel. -/
  | descriptorFetchResponse (g : Fin 64)
  /-- DMA_BLOCK_ISSUE (R270): The channel issues the reads and writes of the next block. -/
  | dmaBlockIssue (g : Fin 64)
  /-- FILL_WORD_REREAD (R279): A paced channel re-reads its fill word every 1 µs. -/
  | fillWordReread (g : Fin 64)
  /-- PACED_RELEASE (R279): Fill falls to LOW or below and the paced channel resumes. -/
  | pacedRelease (g : Fin 64)
  /-- ARR_WAIT_RELEASE (R278): Q12 accepts a held arrival, and the channel runs again. -/
  | arrWaitRelease (g : Fin 64)
  /-- DMA_DESCRIPTOR_COMPLETE (R275): A descriptor's writes are performed, its status is written back, and the channel links or idles. -/
  | dmaDescriptorComplete (g : Fin 64)
  /-- DMA_HALT_SETTLED (R283): Outstanding requests settle and the channel enters HALTED, or ends at once when HOLD is 0. -/
  | dmaHaltSettled (g : Fin 64)
  /-- DMA_RESPONSE_TIMEOUT (R284): A response is not received within 50 µs and the channel halts with TIMEOUT. -/
  | dmaResponseTimeout (g : Fin 64)
  /-- LATE_RESPONSE (R284): A response arriving after the halt is discarded and counted. -/
  | lateResponse (g : Fin 64)
  /-- RESUME (R285): DMA_CH_CTL RESUME reruns the halted descriptor from block 0. -/
  | resume (g : Fin 64)
  /-- SKIP (R285): DMA_CH_CTL SKIP completes the halted descriptor and continues at NEXT. -/
  | skip (g : Fin 64)
  /-- ABORT (R285): DMA_CH_CTL ABORT ends the chain of a halted or running channel. -/
  | abort (g : Fin 64)
  /-- GO (R291): DMA_CH_START_HI GO submits a register start, or sets START_LOST. -/
  | go (g : Fin 64) (value : BitVec 32)
  /-- SLUICE_COMPLETE (R290): A sluice transfer finishes or faults, and its completion is written. -/
  | sluiceComplete (xfer : Nat)
  /-- RECEIVER_DETECTED (R361): A receiver is detected and link training begins. -/
  | receiverDetected (refclk : Bool)
  /-- L0_REACHED (R361): Training reaches L0, fixing rate, width and mode, or CFG_ONLY. -/
  | l0Reached (rate width : Nat) (cxlAccepted : Bool)
  /-- TRAINING_ABORTED (R357): Detect or Disabled before L0 returns the link to DOWN or WARM. -/
  | trainingAborted
  /-- RECOVERY_ENTERED (R361): The link enters Recovery. -/
  | recoveryEntered
  /-- RECOVERY_EXIT (R361): L0 is regained within LOSS_WAIT. -/
  | recoveryExit
  /-- RECOVERY_TIMEOUT (R357): Recovery lasts LOSS_WAIT × 10 µs and the link is lost. -/
  | recoveryTimeout
  /-- LINK_DOWN (R357): The link leaves L0 for Detect or Disabled, or a surprise-down is detected. -/
  | linkDown
  /-- WARM_SELF_RESET_COMPLETE (R358): The warm self-reset steps complete and the link state becomes WARM. -/
  | warmSelfResetComplete
  /-- IDE_INTEGRITY_FAILURE (R355): A request fails its IDE check, and the link is lost or the selective stream goes Insecure. -/
  | ideIntegrityFailure (selective : Option (Fin 4))
  /-- IDE_KM (R353): An IDE_KM exchange over DOE sets or changes the IDE keys. -/
  | ideKm (change : IdeChange)
  /-- CONFIG_REQUEST (R336): A configuration request is answered. -/
  | configRequest (reg : Nat) (write : Option (BitVec 32))
  /-- HOST_POSTED_WRITE (R346): An inbound posted write to BAR0, BAR2 or the window is performed in arrival order. -/
  | hostPostedWrite (space : HostSpace) (off : Nat) (data : List (BitVec 8)) (attr : HostAttr)
  /-- HOST_READ (R346): An inbound read is answered after earlier posted writes. -/
  | hostRead (space : HostSpace) (off len : Nat) (attr : HostAttr)
  /-- HOST_LINE_SNOOP (R342): A host write to a cached descriptor line snoops it out of the host-line cache. -/
  | hostLineSnoop (line : Nat)
  /-- WILRIL_LINK_UP (R401): The Wilril link reaches UP and pairing begins. -/
  | wilrilLinkUp
  /-- WILRIL_RETRAIN_TIMEOUT (R405): A retraining fails to reach UP within 500 µs, making the link DOWN. -/
  | wilrilRetrainTimeout
  /-- PAIRING_COMPLETE (R401): Pairing steps finish and the module enters PAIRED or back-fill, or UNPAIRED on failure. -/
  | pairingComplete
  /-- HEARTBEAT_TIMER (R406): The hub sends a heartbeat every 100 µs. -/
  | heartbeatTimer
  /-- HEARTBEAT (R407): A received heartbeat is acted on, declaring failure or hostlessness as its fields require. -/
  | heartbeat (hdr : MsgHeader) (hb : Heartbeat)
  /-- CONTROL (R403): A CONTROL message carries pairing, attestation or SPLIT resolution. -/
  | control (hdr : MsgHeader) (body : ControlBody)
  /-- OWNER_UPD (R414): An OWNER_UPD makes the receiver owner of the blocks and is acknowledged. -/
  | ownerUpd (hdr : MsgHeader) (tensor block : Nat) (msg : OwnerMsg)
  /-- ACK (R410): An acknowledgement completes the REPL, OWN or BULK it answers. -/
  | ack (hdr : MsgHeader) (answer : AckBody)
  /-- REPL_MESSAGE (R410): A received REPL writes bytes into the local replica, advances SEQ and is acknowledged. -/
  | replMessage (hdr : MsgHeader) (tensor block seq sid tokens : Nat) (part : ReplPart)
  /-- BULK (R422): A BULK message delivers FETCH or back-fill block data. -/
  | bulk (hdr : MsgHeader) (tensor block seq : Nat) (part : BlockPart)
  /-- RECOVERY (R457): RECOVERY messages carry a firmware image to a module in recovery. -/
  | recovery (hdr : MsgHeader) (image : FwImage)
  /-- HEARTBEAT_TIMEOUT (R407): No valid heartbeat for 800 µs declares the partner failed or enters SPLIT. -/
  | heartbeatTimeout
  /-- PAIR_ALIVE_FALL (R407): The partner's PAIR_ALIVE_IN falls. -/
  | pairAliveFall
  /-- PAIR_ALIVE_LOW_TIMEOUT (R407): PAIR_ALIVE has been low for 50 µs, so the partner is failed. -/
  | pairAliveLowTimeout
  /-- TAKEOVER_COMPLETE (R417): Tables are rewritten, sessions are marked resumable, and the takeover-complete event is raised. -/
  | takeoverComplete
  /-- BACKFILL_BLOCK (R422): The source sends the next lacking block as BULK. -/
  | backfillBlock
  /-- BACKFILL_COMPLETE (R422): Back-fill ends, and both modules enter PAIRED with sessions copied. -/
  | backfillComplete
  /-- REGISTER (R413): TWIN REGISTER validates and registers an owner table. -/
  | register (ring : Fin 1024)
  /-- UNREGISTER (R416): TWIN UNREGISTER removes a registered table. -/
  | unregister (ring : Fin 1024)
  /-- SESSION (R409): TWIN SESSION creates or closes a session record on both modules. -/
  | session (ring : Fin 1024)
  /-- REPL (R410): TWIN REPL sends bytes of a block to the partner's replica. -/
  | repl (ring : Fin 1024)
  /-- OWN (R414): TWIN OWN moves ownership of blocks to the partner. -/
  | own (ring : Fin 1024)
  /-- FETCH (R415): TWIN FETCH copies a partner-owned block into a local slot. -/
  | fetch (ring : Fin 1024)
  /-- HANDOVER (R419): TWIN HANDOVER moves one session to the partner. -/
  | handover (ring : Fin 1024)
  /-- TAKEOVER (R417): TWIN TAKEOVER in SPLIT performs the failover steps. -/
  | takeover (ring : Fin 1024)
  /-- QUERY (R416): TWIN QUERY writes one record per session held. -/
  | query (ring : Fin 1024)
  /-- GET_VERSION (R433): SPDM GET_VERSION is answered. -/
  | getVersion (port : SpdmPort) (body : List (BitVec 8))
  /-- GET_CAPABILITIES (R433): SPDM GET_CAPABILITIES is answered. -/
  | getCapabilities (port : SpdmPort) (body : List (BitVec 8))
  /-- NEGOTIATE_ALGORITHMS (R433): SPDM NEGOTIATE_ALGORITHMS is answered. -/
  | negotiateAlgorithms (port : SpdmPort) (body : List (BitVec 8))
  /-- GET_DIGESTS (R433): SPDM GET_DIGESTS is answered. -/
  | getDigests (port : SpdmPort) (body : List (BitVec 8))
  /-- GET_CERTIFICATE (R433): SPDM GET_CERTIFICATE returns the slot 0 chain. -/
  | getCertificate (port : SpdmPort) (slot off len : Nat) (body : List (BitVec 8))
  /-- CHALLENGE (R433): SPDM CHALLENGE is answered with a signature. -/
  | challenge (port : SpdmPort) (body : List (BitVec 8))
  /-- GET_MEASUREMENTS (R431): SPDM GET_MEASUREMENTS returns signed measurements. -/
  | getMeasurements (port : SpdmPort) (index : Nat) (body : List (BitVec 8))
  /-- KEY_EXCHANGE (R433): SPDM KEY_EXCHANGE starts a session. -/
  | keyExchange (port : SpdmPort) (body : List (BitVec 8))
  /-- FINISH (R433): SPDM FINISH completes session establishment. -/
  | finish (port : SpdmPort) (sid : Nat) (body : List (BitVec 8))
  /-- SPDM_HEARTBEAT (R433): An SPDM HEARTBEAT keeps a session alive. -/
  | spdmHeartbeat (port : SpdmPort) (sid : Nat)
  /-- KEY_UPDATE (R433): SPDM KEY_UPDATE changes session keys. -/
  | keyUpdate (port : SpdmPort) (sid : Nat)
  /-- PAIRING_KEY_UPDATE (R452): After 2^30 messages or one hour, the Wilril session runs KEY_UPDATE. -/
  | pairingKeyUpdate
  /-- END_SESSION (R433): SPDM END_SESSION ends a session. -/
  | endSession (port : SpdmPort) (sid : Nat)
  /-- UNSUPPORTED_SPDM_REQUEST (R433): An unsupported SPDM request receives ERROR UnsupportedRequest. -/
  | unsupportedSpdmRequest (port : SpdmPort) (code : Nat)
  /-- PQ_SIGN (R434): Returns an ML-DSA-65 signature over the last transcript hash. -/
  | pqSign (port : SpdmPort)
  /-- PQ_CERT (R434): Returns part of the ML-DSA-65 certificate chain. -/
  | pqCert (port : SpdmPort) (off len : Nat)
  /-- NONCE (R434): Returns a fresh 32 B nonce that replaces the earlier one. -/
  | nonce (port : SpdmPort)
  /-- DBG_UNLOCK (R438): A debug token changes the debug level, re-derives the Alias keys and ends sessions. -/
  | dbgUnlock (port : SpdmPort) (token : Signed)
  /-- INSTALL_OWNER (R436): Stores the owner keys and SEC_POLICY and unloads every package. -/
  | installOwner (port : SpdmPort) (sid : Nat) (owner : OwnerKeys) (ideReq : Bool)
  /-- DEPLOY (R436): Unloads packages and enters DEPLOYED. -/
  | deploy (port : SpdmPort) (sid : Nat) (cmd : Signed)
  /-- DECOMMISSION (R436): Unloads packages, erases the owner keys and enters DECOMMISSIONED. -/
  | decommission (port : SpdmPort) (sid : Nat) (cmd : Signed)
  /-- REPROVISION (R436): Returns a decommissioned part to PROVISIONING. -/
  | reprovision (port : SpdmPort) (sid : Nat) (cmd : Signed)
  /-- FUSE_WRITE_COMPLETE (R435): A security-state fuse write completes and the new state takes effect. -/
  | fuseWriteComplete
  /-- PKG_LOAD (R443): SEC_PKG_CMD LOAD verifies, seals and decrypts a package into a slot. -/
  | pkgLoad (value : BitVec 32)
  /-- PKG_LOAD_COMPLETE (R443): Decryption ends, the measurement is recorded, and the slot becomes LOADED or FAILED. -/
  | pkgLoadComplete
  /-- PKG_UNLOAD (R444): SEC_PKG_CMD UNLOAD stops the slot's cores and clears its channels and key. -/
  | pkgUnload (value : BitVec 32)
  /-- PKG_UNLOAD_COMPLETE (R444): The slot's quern entries have ended and its clearing finishes, so the slot becomes EMPTY. -/
  | pkgUnloadComplete
  /-- PKG_CMD_RESERVED (R458): A SEC_PKG_CMD with reserved OP 3 is ignored. -/
  | pkgCmdReserved (value : BitVec 32)
  /-- FW_GO (R456): SEC_FW_CTL GO verifies and writes a new firmware image to flash. -/
  | fwGo
  /-- FW_UPDATE_DONE (R456): The firmware update finishes with STATE DONE or FAILED. -/
  | fwUpdateDone
  /-- SVN_COMMIT (R456): SEC_FW_CTL SVN_COMMIT raises the fused SVN to the running image's SVN. -/
  | svnCommit
  /-- LOG_RECORD_WRITE (R500): A record leaves the ingress queue into the event log ring. -/
  | logRecordWrite
  /-- COALESCE_WINDOW_END (R499): A coalescing entry's window ends, it writes a COALESCED record and is freed. -/
  | coalesceWindowEnd (entry : Nat)
  /-- ALARM_GAP_END (R501): At the end of the gap, a due alarm is sent if LOG_PEND is still set. -/
  | alarmGapEnd (cls : Fin 8)
  /-- CLEAR_PERF (R498): LOG_CNT_CLR PERF clears every performance counter. -/
  | clearPerf
  /-- CLEAR_ERR (R498): LOG_CNT_CLR ERR clears every error counter. -/
  | clearErr
  /-- FAULT_CLEAR (R495): Writing 1 to LOG_STATUS.FAULT clears it unless a failure condition persists. -/
  | faultClear
  /-- LOG_TIME_READ (R503): Reading LOG_TIME_LO latches timestamp bits 63:32 into LOG_TIME_HI. -/
  | logTimeRead
  /-- TRACE_RECORD_WRITE (R502): The trace unit writes a queued 32 B record, or stops on a refused or failed write. -/
  | traceRecordWrite
  /-- REGISTER_WRITE (R12): A write to a register with no row of its own acts by its field access types. -/
  | registerWrite (off : Nat) (value : BitVec 32)
  /-- WILRIL_LINK_DOWN (R407): The Wilril link leaves UP on loss of its physical connection, so the partner is judged with the link not UP and the pairing keys are lost. -/
  | wilrilLinkDown
  /-- HOST_MEMORY_READ_RESPONSE (R343): A response to a module-issued read of host memory arrives over the host link with data, poison or an error, and the waiting DMA block, sluice transfer or package load proceeds. -/
  | hostMemoryReadResponse (tag : Nat) (answer : HostAnswer)
  /-- MATRIX_INSTRUCTION_COMPLETE (R239): An MMA without FIN, an MSCL or an MLDC finishes in the matrix unit some cclk after it started, and the unit takes its next instruction. -/
  | matrixInstructionComplete (core : Fin 1200)
  /-- INSTRUCTION_FETCH_UE (R213): An instruction fetch detects an uncorrectable instruction-memory error and the core traps with FETCH_UE. -/
  | instructionFetchUe (core : Fin 1200)
  /-- RESET_N_RELEASED (R491): Release of the connector reset input lets a held module reset leave the start of phase BOOT and run initialisation. -/
  | resetNReleased
  /-- JTAG_ACCESS (R447): An IEEE 1149.1 access is performed or refused by debug level, and a sealed-region read returns 0, counts in SEC_DENY_CNT and logs an event. -/
  | jtagAccess (access : JtagAccess)
  /-- RESERVED_CLASS_DESCRIPTOR (R374): A visible descriptor whose CLASS is reserved completes with ST_BADDESC and no other effect. -/
  | reservedClassDescriptor (ring : Fin 1024)
  /-- TWIN_RESERVED_OP (R416): A TWIN descriptor with OP 0 or 10–15 completes with ST_BADDESC. -/
  | twinReservedOp (ring : Fin 1024)
  /-- RESERVED_WILRIL_MESSAGE (R403): A Wilril message of a reserved class is dropped and logged. -/
  | reservedWilrilMessage (hdr : MsgHeader)
  deriving DecidableEq, Repr

end Sys2Proof
end

