-- ==== Sys2Proof/Machine/Table.lean ====
section
/-! DEFINITION. Sparse tables, bit fields and little-endian bytes: the helpers every family uses. -/

namespace Sys2Proof.Machine

open Sys2Proof

/-! ### Tables -/

/-- The thing numbered `k`; `d` is what an unlisted number holds. -/
def tget {α : Type} (d : α) : Table α → Nat → α
  | [], _ => d
  | (k', v) :: r, k => if k' = k then v else tget d r k

def tdel {α : Type} (k : Nat) (t : Table α) : Table α := t.filter (fun p => p.1 != k)

/-- Places (k, v) before the first greater number. -/
def tins {α : Type} (k : Nat) (v : α) : Table α → Table α
  | [] => [(k, v)]
  | p :: r => if k < p.1 then (k, v) :: p :: r else p :: tins k v r

/-- Sets the thing numbered `k`; a thing at its reset value is not listed. -/
def tset {α : Type} [DecidableEq α] (d : α) (k : Nat) (v : α) (t : Table α) : Table α :=
  if v = d then tdel k t else tins k v (tdel k t)

def thas {α : Type} (t : Table α) (k : Nat) : Bool := t.any (fun p => p.1 == k)

/-- Numbers strictly rising. -/
def Table.sorted {α : Type} : Table α → Bool
  | [] => true
  | [_] => true
  | p :: q :: r => decide (p.1 < q.1) && Table.sorted (q :: r)

/-! ### Byte memory -/

/-- One byte of a memory; a byte that is not listed reads 0. -/
def mget (m : Memory) (a : Nat) : Byte := tget 0 m a

def mset (m : Memory) (a : Nat) (b : Byte) : Memory := tset 0 a b m

def mread (m : Memory) (a : Nat) : Nat → List Byte
  | 0 => []
  | n + 1 => mget m a :: mread m (a + 1) n

def mwrite (m : Memory) (a : Nat) : List Byte → Memory
  | [] => m
  | b :: bs => mwrite (mset m a b) (a + 1) bs

/-- The canonical form: addresses strictly rising and no listed zero. -/
def memWf (m : Memory) : Bool := Table.sorted m && m.all (fun p => p.2 != 0)

/-! ### Bit fields (R11: bit 0 is the least significant) -/

/-- Bits hi:lo as a number. -/
def fld {n : Nat} (w : BitVec n) (hi lo : Nat) : Nat := w.toNat / 2 ^ lo % 2 ^ (hi + 1 - lo)

def bitOf {n : Nat} (w : BitVec n) (i : Nat) : Bool := w.toNat.testBit i

/-- `w` with bits hi:lo replaced by `v`. -/
def setFld {n : Nat} (w : BitVec n) (hi lo v : Nat) : BitVec n :=
  BitVec.ofNat n (w.toNat - fld w hi lo * 2 ^ lo + v % 2 ^ (hi + 1 - lo) * 2 ^ lo)

def w32 (v : Nat) : W32 := BitVec.ofNat 32 v
def w64 (v : Nat) : W64 := BitVec.ofNat 64 v

def b2n (b : Bool) : Nat := if b then 1 else 0

/-- A field value at a bit position, for words composed of fields. -/
def put (v lo : Nat) : Nat := v * 2 ^ lo

/-! ### Bytes -/

def leNat : List Byte → Nat
  | [] => 0
  | b :: bs => b.toNat + 256 * leNat bs

def leBytes : (n v : Nat) → List Byte
  | 0, _ => []
  | n + 1, v => BitVec.ofNat 8 v :: leBytes n (v / 256)

/-- The bytes of a descriptor (R373). -/
def descBytes (d : Desc) : List Byte :=
  [d.w0, d.w1, d.w2, d.w3, d.w4, d.w5, d.w6, d.w7].flatMap (fun w => leBytes 8 w.toNat)

def sliceNat (bs : List Byte) (off len : Nat) : Nat := leNat ((bs.drop off).take len)

def bytesDesc (bs : List Byte) : Desc :=
  { w0 := w64 (sliceNat bs 0 8), w1 := w64 (sliceNat bs 8 8), w2 := w64 (sliceNat bs 16 8)
    w3 := w64 (sliceNat bs 24 8), w4 := w64 (sliceNat bs 32 8), w5 := w64 (sliceNat bs 40 8)
    w6 := w64 (sliceNat bs 48 8), w7 := w64 (sliceNat bs 56 8) }

/-- The 32-bit words of a byte list. -/
def words32 : (n : Nat) → List Byte → List W32
  | 0, _ => []
  | n + 1, bs => w32 (leNat (bs.take 4)) :: words32 n (bs.drop 4)

def zeros (n : Nat) : List Byte := List.replicate n 0

/-- Groups of `k` bytes. -/
def chunksN {α : Type} (k : Nat) : (fuel : Nat) → List α → List (List α)
  | 0, _ => []
  | f + 1, l => if l.isEmpty then [] else l.take k :: chunksN k f (l.drop k)

def chunks {α : Type} (k : Nat) (l : List α) : List (List α) := chunksN k (l.length + 1) l

/-- Two's complement of an `n`-bit field. -/
def signed (n v : Nat) : Int := if v % 2 ^ n < 2 ^ (n - 1) then (v % 2 ^ n : Nat) else (v % 2 ^ n : Nat) - (2 ^ n : Nat)

/-- A two's-complement field of `n` bits. -/
def unsignedOf (n : Nat) (i : Int) : Nat := (i % (2 ^ n : Nat)).toNat

def maxNat (l : List Nat) : Nat := l.foldl max 0

end Sys2Proof.Machine
end

