-- ==== Sys2Proof/Machine/Codes.lean ====
section
/-! DEFINITION. The column code and the row code (R91–R95). -/

namespace Sys2Proof.Machine

open Sys2Proof

/-! ### The column code -/

def choose2 (n : Nat) : Nat := n * (n - 1) / 2
def choose3 (n : Nat) : Nat := n * (n - 1) * (n - 2) / 6
def choose4 (n : Nat) : Nat := n * (n - 1) * (n - 2) * (n - 3) / 24

/-- The largest n of at most `m` with f n ≤ i. -/
def topUnder (f : Nat → Nat) (i : Nat) : Nat → Nat
  | 0 => 0
  | m + 1 => if f (m + 1) ≤ i then m + 1 else topUnder f i m

/-- R91: the i-th 16-bit value of weight 3 in ascending order. -/
def hCol (i : Nat) : Nat :=
  let c := topUnder choose3 i 15
  let b := topUnder choose2 (i - choose3 c) 15
  2 ^ c + 2 ^ b + 2 ^ (i - choose3 c - choose2 b)

/-- R91: the k-th 16-bit value of weight 4 in ascending order. -/
def gCol (k : Nat) : Nat :=
  let d := topUnder choose4 k 15
  let c := topUnder choose3 (k - choose4 d) 15
  let b := topUnder choose2 (k - choose4 d - choose3 c) 15
  2 ^ d + 2 ^ c + 2 ^ b + 2 ^ (k - choose4 d - choose3 c - choose2 b)

/-- XOR of f i over the set bits i of `v` below `n`. -/
def xorBits (f : Nat → Nat) (v : Nat) : Nat → Nat
  | 0 => 0
  | n + 1 => (if v.testBit n then f n else 0) ^^^ xorBits f v n

/-- H·D for the 256 data bits. -/
def hTimes (data : Nat) : Nat := if data = 0 then 0 else xorBits hCol data 256

/-- R92: the location of a column. -/
def colLoc (row col bank layer chan : Nat) : Nat :=
  row + put col 14 + put bank 21 + put layer 23 + put chan 27

/-- R91: the check bits of a column. -/
def columnCheck (data loc : Nat) (poison : Bool) : Nat :=
  hTimes data ^^^ xorBits gCol loc 32 ^^^ (if poison then 0xFFFF else 0)

/-- R93: the syndrome a reader computes. -/
def columnSyndrome (storedCheck storedData loc : Nat) : Nat :=
  storedCheck ^^^ hTimes storedData ^^^ xorBits gCol loc 32

def bitList (v : Nat) : List Nat := (List.range 16).filter v.testBit

/-- R93: what a syndrome says. -/
inductive ColCls where
  | clean | dataBit (i : Nat) | checkBit | poisoned | bad
  deriving DecidableEq, Repr

def classify (syn : Nat) : ColCls :=
  if syn = 0 then .clean
  else if 12 ≤ (bitList syn).length then .poisoned
  else match bitList syn with
    | [_] => .checkBit
    | [a, b, c] =>
      let i := choose3 c + choose2 b + a
      if i < 256 then .dataBit i else .bad
    | _ => .bad

/-! ### The row code -/

/-- Multiplication by α in GF(2^8) with x^8 + x^4 + x^3 + x^2 + 1. -/
def gfX (a : Nat) : Nat := if a < 128 then 2 * a else (2 * a) ^^^ 0x11D

def gfMulN : (n a b : Nat) → Nat
  | 0, _, _ => 0
  | n + 1, a, b => (if b % 2 = 1 then a else 0) ^^^ gfMulN n (gfX a) (b / 2)

def gfMul (a b : Nat) : Nat := gfMulN 8 a b

/-- α^i. -/
def gfAlpha : Nat → Nat
  | 0 => 1
  | i + 1 => gfX (gfAlpha i)

/-- The product of (x − α^0) … (x − α^(n−1)), lowest coefficient first. -/
def rsGen : Nat → List Nat
  | 0 => [1]
  | n + 1 =>
    let g := rsGen n
    List.zipWith (· ^^^ ·) (0 :: g) (g.map (gfMul (gfAlpha n)) ++ [0])

/-- One step of division by the generator: `rem` holds the eight check bytes, highest degree first. -/
def rsStep (rem : List Nat) (b : Nat) : List Nat :=
  let fb := b ^^^ rem.headD 0
  List.zipWith (· ^^^ ·) (rem.drop 1 ++ [0]) (((rsGen 8).take 8).reverse.map (gfMul fb))

/-- R94: the eight check bytes of a codeword's data bytes. -/
def rsCheck (data : List Nat) : List Nat := data.foldl rsStep (List.replicate 8 0)

/-- R94: the value of a codeword at α^i; the eight are 0 for a codeword. -/
def rsSyndrome (i : Nat) (word : List Nat) : Nat := word.foldl (fun a b => gfMul a (gfAlpha i) ^^^ b) 0

end Sys2Proof.Machine
end

