-- ==== Sys2Proof/Config.lean ====
section
/-! DEFINITION. What an implementation fixes and the spec does not say. Every constant is opaque: it has no
body that Lean can unfold, so a claim about the model holds whatever the value is. -/

namespace Sys2Proof.Config

/-- A free value (logs 4 and 9): drawn with the counter `State.free`. -/
opaque freeBits : Nat → W64

/-- R143: the relative error of the quern exponent unit at an operand, in units of 2^−40; the unit keeps it to 2^−12
(log 6). -/
opaque expError : W32 → Int

/-- R248: results that the spec bounds in ulp and does not fix; the engine keeps each to its bound (log 6). -/
opaque rcp : W32 → W32
opaque rsqrt : W32 → W32
opaque exp2 : W32 → W32
opaque exp : W32 → W32
opaque log2 : W32 → W32
opaque tanh : W32 → W32
opaque sigmoid : W32 → W32
opaque silu : W32 → W32
opaque gelu : W32 → W32

/-- R472: the spec states no figure for what one more allowance step draws (in 0.25 W), per stack and step (log 7). -/
opaque bankPower : Nat → Nat → Nat
/-- R472: what a core row draws at a clock step, in 0.25 W (log 7). -/
opaque rowPower : Nat → Nat → Nat
/-- R474: what the n-th unit of a throttling order (2–5) saves on a domain, in 0.25 W (log 7). -/
opaque throttleSaves : (order domain n : Nat) → Nat

/-- R429: the engines of other standards, uninterpreted (log 8). -/
opaque sha384 : List Byte → BitVec 384
opaque ed25519Verify : (key msg sig : List Byte) → Bool
opaque ed25519Sign : (key : BitVec 384) → (msg : List Byte) → List Byte
opaque mldsaVerify : (key msg sig : List Byte) → Bool
opaque mldsaSign : (key : BitVec 384) → (msg : List Byte) → List Byte
/-- The public keys of a seed. -/
opaque edPublic : (key : BitVec 384) → List Byte
opaque mlPublic : (key : BitVec 384) → List Byte
/-- ECDHE over secp384r1: a side's public share, and the secret that both sides hold. -/
opaque ecdhePublic : (priv : BitVec 384) → List Byte
opaque ecdheShared : (priv : BitVec 384) → (peer : List Byte) → List Byte
opaque hkdf : (secret : List Byte) → (info : List Byte) → BitVec 384
opaque aesKwUnwrap : (key : BitVec 256) → (wrapped : List Byte) → Option (BitVec 256)
opaque aesGcmOpen : (key : BitVec 256) → (iv : List Byte) → (ct tag : List Byte) → Option (List Byte)
opaque drbg : Nat → BitVec 256

/-- R432, R456: the two Jorano root keys whose hashes the fuses hold. -/
opaque joranoEd : List Byte
opaque joranoMl : List Byte
/-- R430: the unique device secret. -/
opaque uds : BitVec 256
/-- R431: the hash of the ROM image. -/
opaque romHash : BitVec 384
/-- R456: the spec gives no layout of a firmware image; these read its SVN and pair epoch. -/
opaque fwSvn : List Byte → Nat
opaque fwEpoch : List Byte → Nat
/-- R456: the image proper and its two signatures within what software places in the window. -/
opaque fwBody : List Byte → List Byte
opaque fwEdSig : List Byte → List Byte
opaque fwMlSig : List Byte → List Byte
opaque fwFormatOk : List Byte → Bool
/-- R433, R434: the certificates written at manufacture, root and DeviceID, and the Alias certificate that the DeviceID key
issues at boot. -/
opaque certChain : List Byte
opaque pqChain : List Byte
opaque aliasCert : (device : BitVec 384) → (aliasPublic : List Byte) → List Byte
opaque aliasPqCert : (device : BitVec 384) → (aliasPublic : List Byte) → List Byte
/-- The public key of a chain's last certificate. -/
opaque chainKey : List Byte → List Byte
/-- R433: the layouts of SPDM messages are the standard's: what an answer states, as bytes, and the requester's share in a
KEY_EXCHANGE. -/
opaque spdmEncode : List String → List Byte
opaque spdmShare : List Byte → List Byte
/-- R437: a partner's chains lead to a Jorano root; a measurement is that of a Jorano-signed image. -/
opaque chainOk : List Byte → Bool
opaque joranoMeasurement : BitVec 384 → Bool

/-- R431: the measurement of the configuration tables: staged maps, delay sets and neighbour lists. -/
opaque tablesHash : List (Nat × W32) → List Nat → List (Nat × List Nat) → BitVec 384
/-- R338: the host addresses that belong to a peer device; the platform lays them out. -/
opaque peerAddress : Nat → Bool
/-- R336: what a doubleword of configuration space reads after the last value written to it since its reset. -/
opaque configWord : (reg : Nat) → Option W32 → W32

end Sys2Proof.Config
end

