-- ==== Sys2Proof/Machine/RegMap.lean ====
section
/-! DEFINITION. The register maps: the BAR0 offset of every register (R27), and for each offset its reset value, the
bits of each access type (R12) and the class of a counter (R498). A bit that no map names is in no mask, so it reads 0
and a write leaves it (R13, R28). -/

namespace Sys2Proof.Machine

open Sys2Proof

/-! ### Offsets -/

abbrev oHubGrade : Nat := 0x10
abbrev oCcStatus (n : Nat) : Nat := 0x100 + n * 4
abbrev oRoleStk : Nat := 0x200
abbrev oRoleRow : Nat := 0x204
abbrev oLateCnt : Nat := 0x208
abbrev oMcastDetachCnt : Nat := 0x20C
abbrev oCfgEpoch : Nat := 0x300
abbrev oCfgExpect : Nat := 0x304
abbrev oCfgCtl : Nat := 0x308
abbrev oCfgStatus : Nat := 0x30C
abbrev oCfgFail : Nat := 0x310
abbrev oMsixTable : Nat := 0x8000
abbrev oMsixPba : Nat := 0xD000

abbrev oCorePresent : Nat := 0x200000
abbrev oCoreVerr : Nat := 0x200100
abbrev oCore (n o : Nat) : Nat := 0x201000 + n * 0x400 + o
abbrev cCtl : Nat := 0x008
abbrev cCtl2 : Nat := 0x00C
abbrev cTrap0 : Nat := 0x010
abbrev cTrap1 : Nat := 0x014
abbrev cTrap2 : Nat := 0x018
abbrev cRetired : Nat := 0x040
abbrev cBlock : Nat := 0x044
abbrev cSwitch : Nat := 0x048
abbrev cImemCe : Nat := 0x04C
abbrev cVstat : Nat := 0x050
abbrev cEngState : Nat := 0x054
abbrev cMatCnt : Nat := 0x058
abbrev cVecCnt : Nat := 0x05C

abbrev oStk (s o : Nat) : Nat := 0x400000 + s * 0x10000 + o
abbrev kPortLat (p : Nat) : Nat := 0x010 + p * 4
abbrev kPasr : Nat := 0x030
abbrev kPasrForced : Nat := 0x034
abbrev kLateCnt (p : Nat) : Nat := 0x040 + p * 4
abbrev kSched : Nat := 0x060
abbrev kScrub : Nat := 0x100
abbrev kSpareCtl : Nat := 0x104
abbrev kSpareReq : Nat := 0x108
abbrev kCe : Nat := 0x110
abbrev kQce : Nat := 0x114
abbrev kUe : Nat := 0x118
abbrev kQue : Nat := 0x11C
abbrev kRowFix : Nat := 0x120
abbrev kRowUe : Nat := 0x124
abbrev kPoison : Nat := 0x128
abbrev kRepairDrop : Nat := 0x12C
abbrev kUeLoc : Nat := 0x130
abbrev kFlipCtl : Nat := 0x140
abbrev kFlipMask (w : Nat) : Nat := 0x160 + w * 4
abbrev oMapSel (g i w : Nat) : Nat := 0x4C0000 + g * 0x100 + i * 8 + w * 4
abbrev oGrpCtl (g : Nat) : Nat := 0x4C0080 + g * 0x100

abbrev oQrnCaps : Nat := 0x500000
abbrev oQrn (s o : Nat) : Nat := 0x501000 + s * 0x100 + o
abbrev qStream : Nat := 0x00
abbrev qNan : Nat := 0x04
abbrev qOvf : Nat := 0x08
abbrev qEmpty : Nat := 0x0C
abbrev qStall : Nat := 0x10
abbrev qPoison : Nat := 0x14
abbrev qStResult : Nat := 0x18
abbrev qSeqCtl : Nat := 0x20
abbrev qSeqStatus : Nat := 0x24
abbrev qAllow : Nat := 0x28
abbrev qHold : Nat := 0x2C
abbrev oSeqEntry (s e : Nat) : Nat := 0x502000 + s * 0x100 + e * 4
abbrev oOpw (s i : Nat) : Nat := 0x504000 + s * 0x400 + i * 0x10
abbrev oSeqMem (s n : Nat) : Nat := 0x508000 + s * 0x4000 + n * 0x10
abbrev oPk1Ctl : Nat := 0x540000
abbrev oPk1Db : Nat := 0x540004
abbrev oPk1Status : Nat := 0x540008

abbrev oDma (g o : Nat) : Nat := 0x600000 + g * 0x100 + o
abbrev dStatus : Nat := 0x00
abbrev dCtl : Nat := 0x04
abbrev dStartLo : Nat := 0x08
abbrev dStartHi : Nat := 0x0C
abbrev dBytes : Nat := 0x20
abbrev dHaltCnt : Nat := 0x24
abbrev dRearmCnt : Nat := 0x28
abbrev dLateCnt : Nat := 0x2C
abbrev dFill : Nat := 0x30
abbrev oSluStatus : Nat := 0x608000
abbrev oSluCnt : Nat := 0x608004
abbrev oSluErrCnt : Nat := 0x608008

abbrev oRing (n o : Nat) : Nat := 0x700000 + n * 0x400 + o
abbrev rSqLo : Nat := 0x00
abbrev rSqHi : Nat := 0x04
abbrev rCqLo : Nat := 0x08
abbrev rCqHi : Nat := 0x0C
abbrev rCfg : Nat := 0x10
abbrev rCtl : Nat := 0x14
abbrev rIrq : Nat := 0x18
abbrev rStatus : Nat := 0x1C
abbrev rDbEarly : Nat := 0x28
abbrev rDescCnt : Nat := 0x2C

abbrev oLnkStatus : Nat := 0x800000
abbrev oLnkCtl : Nat := 0x800004
abbrev oIdeCtl : Nat := 0x800008
abbrev oIdeStatus : Nat := 0x80000C
abbrev oLossCnt : Nat := 0x800010
abbrev oRecovCnt : Nat := 0x800014
abbrev oIdeFailCnt : Nat := 0x800018
abbrev oBisnpCnt : Nat := 0x80001C

abbrev oTwnStatus : Nat := 0x900000
abbrev oTwnCfg : Nat := 0x900004
abbrev oTwnEpoch : Nat := 0x900008
abbrev oTwnPeer : Nat := 0x90000C
abbrev oHbMiss : Nat := 0x900010
abbrev oFailover : Nat := 0x900014
abbrev oOutage : Nat := 0x900018
abbrev oReplCnt : Nat := 0x90001C
abbrev oReplPend : Nat := 0x900020
abbrev oSyncLeft : Nat := 0x900024

abbrev oSecStatus : Nat := 0xA00000
abbrev oSecPolicy : Nat := 0xA00004
abbrev oPkgSrcLo : Nat := 0xA00010
abbrev oPkgSrcHi : Nat := 0xA00014
abbrev oPkgLenLo : Nat := 0xA00018
abbrev oPkgLenHi : Nat := 0xA0001C
abbrev oXlat0 : Nat := 0xA00020
abbrev oXlat1 : Nat := 0xA00024
abbrev oPkgCmd : Nat := 0xA00028
abbrev oPkgTag : Nat := 0xA0002C
abbrev oFwSrc : Nat := 0xA00200
abbrev oFwLen : Nat := 0xA00204
abbrev oFwCtl : Nat := 0xA00208
abbrev oFwStatus : Nat := 0xA0020C
abbrev oDenyCnt : Nat := 0xA00210

abbrev oPwrState : Nat := 0xB00000
abbrev oPwrCap : Nat := 0xB00004
abbrev oPwrCtl : Nat := 0xB00008
abbrev oPwrInput : Nat := 0xB0000C
abbrev oBrakeCtl : Nat := 0xB00010
abbrev oPwrCclk : Nat := 0xB00020
abbrev oPwrQclk0 : Nat := 0xB00024
abbrev oPwrQclk1 : Nat := 0xB00028
abbrev oPwrTok (r : Nat) : Nat := 0xB00030 + r * 4
abbrev oPwrEpt (r : Nat) : Nat := 0xB00040 + r * 4
abbrev oThrottleCnt : Nat := 0xB00050
abbrev oPeakCnt : Nat := 0xB00054
abbrev oBrakeCnt : Nat := 0xB00058
abbrev oPwrDom (d w : Nat) : Nat := 0xB00100 + d * 8 + w * 4

abbrev oThmStatus : Nat := 0xC00400
abbrev oThmCtl : Nat := 0xC00404
abbrev oThmTrip : Nat := 0xC00408
abbrev oVoteCnt : Nat := 0xC0040C

abbrev oLogTimeLo : Nat := 0xD00000
abbrev oLogTimeHi : Nat := 0xD00004
abbrev oLogInit : Nat := 0xD00008
abbrev oLogCtl : Nat := 0xD00010
abbrev oLogStatus : Nat := 0xD00014
abbrev oLogLseq : Nat := 0xD00018
abbrev oLogCntClr : Nat := 0xD0001C
abbrev oLogIrqEn : Nat := 0xD00020
abbrev oLogPend : Nat := 0xD00024
abbrev oLogMgmtEn : Nat := 0xD00028
abbrev oLogFirstValid : Nat := 0xD0002C
abbrev oLogDrop (c : Nat) : Nat := 0xD00040 + c * 4
abbrev oCoalCnt : Nat := 0xD00060
abbrev oTraceLo : Nat := 0xD00300
abbrev oTraceHi : Nat := 0xD00304
abbrev oTraceSize : Nat := 0xD00308
abbrev oTraceCtl : Nat := 0xD0030C
abbrev oTraceCores : Nat := 0xD00310
abbrev oTraceWptr : Nat := 0xD00314
abbrev oTraceStatus : Nat := 0xD00318
abbrev oTraceDrop : Nat := 0xD0031C

/-! ### Fields -/

/-- R498: the classes of counters. -/
inductive CntCls where
  | perf | err | seq
  deriving DecidableEq, Repr

/-- What a register map says of one 32-bit word: its reset value, and its RW, RW1C and RS bits. -/
structure RegDef where
  rst : Nat := 0
  rw : Nat := 0
  w1c : Nat := 0
  rs : Nat := 0
  cnt : Option CntCls := none
  deriving DecidableEq, Repr

def RegDef.ro (rst : Nat := 0) : RegDef := { rst := rst }
def RegDef.count (c : CntCls) : RegDef := { cnt := some c }

/-- HUB_ (R30, R42, R317, R398). -/
def hubReg (o : Nat) : RegDef :=
  if 0x100 ≤ o ∧ o < 0x110 then { w1c := 0x01000000 }
  else if o = oRoleStk ∨ o = oRoleRow then { rs := 0x00FFFFFF }
  else if o = oLateCnt ∨ o = oMcastDetachCnt then .count .perf
  else if o = oCfgEpoch then .count .seq
  else if o = oCfgExpect then { rw := 0xFFFFFFFF }
  else if o = oCfgFail then { w1c := 0x80000000 }
  else {}

/-- A present core's page (R227, and the engine registers of 07). -/
def coreReg (o : Nat) : RegDef :=
  if o = cCtl then { rst := 0x03E80010, rw := 0x0FFF01FF }
  else if o = cCtl2 then { rst := 0x800, rw := 0xFFFF }
  else if o = cTrap0 then { w1c := 0x80000000 }
  else if o = cRetired ∨ o = cBlock ∨ o = cSwitch ∨ o = cMatCnt ∨ o = cVecCnt then .count .perf
  else if o = cImemCe then .count .err
  else if o = cVstat then { w1c := 0x3FF }
  else {}

/-- The page of a stack (R64–R66, R81, R89, R121–R127). -/
def stkReg (o : Nat) : RegDef :=
  if o = 0 then { w1c := 0x800 }
  else if o = kPortLat 0 then { rst := 200, rw := 0xFFFF }
  else if o = kPortLat 1 then { rst := 400, rw := 0xFFFF }
  else if o = kPortLat 2 then { rst := 600, rw := 0xFFFF }
  else if o = kPortLat 3 then { rst := 150, rw := 0xFFFF }
  else if o = kPortLat 4 then { rst := 20000, rw := 0xFFFF }
  else if kLateCnt 0 ≤ o ∧ o ≤ kLateCnt 4 then .count .perf
  else if o = kSched then { rst := 0x1910, rw := 0xFF1F }
  else if o = kPasr then { rst := 0xFFFFFFFF, rw := 0xFFFFFFFF }
  else if o = kScrub then { rst := 0x18, rw := 0xFF }
  else if o = kSpareCtl then { rst := 0x0104000A, rw := 0x01FFFFFF }
  else if kCe ≤ o ∧ o ≤ kRepairDrop then .count .err
  else if o = kUeLoc + 4 then { w1c := 1 }
  else if o = kFlipCtl then { rw := 0x3F7, w1c := 0x10000 }
  else if kFlipMask 0 ≤ o ∧ o ≤ kFlipMask 7 then { rw := 0xFFFFFFFF }
  else {}

/-- R53: the reset map, the same in every group, by select bit: anchor, MASK_LO, MASK_HI. -/
def resetMap (i : Nat) : Nat × Nat × Nat :=
  if i = 0 then (36, 0x80000000, 0)
  else if i = 1 then (37, 0, 1)
  else (9 + i, 2 ^ (i + 4), 0)

/-- STK_MAP_SEL and STK_GRP_CTL (R52, R54), by the offset within a group. -/
def mapReg (o : Nat) : RegDef :=
  if o < 13 * 8 then
    if o % 8 = 0 then { rst := (resetMap (o / 8)).2.1, rs := 0xFFFFFFFF }
    else { rst := (resetMap (o / 8)).1 * 256 + (resetMap (o / 8)).2.2, rs := 0x3F01 }
  else if o = 0x80 then { rst := 1, rs := 1 }
  else {}

/-- QRN_ (R149, R150, R179–R181), by the offset within the block. -/
def qrnReg (o : Nat) : RegDef :=
  if o = 0 then .ro 0x108407FF
  else if 0x1000 ≤ o ∧ o < 0x1C00 then
    if o % 0x100 = qPoison then .count .err
    else if o % 0x100 ≤ qStall ∨ o % 0x100 = qHold then .count .perf
    else if o % 0x100 = qSeqCtl then { rst := 675, rw := 0xFFFF }
    else if o % 0x100 = qSeqStatus then { w1c := 1 }
    else if o % 0x100 = qAllow then .ro 16
    else {}
  else if 0x2000 ≤ o ∧ o < 0x2C00 then { rw := 0x1FFFFF }
  else if 0x4000 ≤ o ∧ o < 0x7000 then { rw := 0xFFFFFFFF }
  else if 0x8000 ≤ o ∧ o < 0x38000 then { rw := 0xFFFFFFFF }
  else if o = 0x40000 then { rw := 1 }
  else if o = 0x40008 then { rst := 0xFFFF, w1c := 0x10000 }
  else {}

/-- The page of a DMA channel (R291, R306). -/
def dmaReg (o : Nat) : RegDef :=
  if o = dStatus then { w1c := 0x1F0000 }
  else if o = dCtl then { rw := 1 }
  else if o = dStartLo then { rw := 0xFFFFFFFF }
  else if o = dStartHi then { rw := 0xFFFF }
  else if o = dBytes then .count .perf
  else if o = dHaltCnt ∨ o = dRearmCnt ∨ o = dLateCnt then .count .err
  else if o = dFill then { rw := 0xFFFFFFFF }
  else {}

/-- The page of a ring (R396). -/
def ringReg (o : Nat) : RegDef :=
  if o = rSqLo ∨ o = rCqLo then { rw := 0xFFFFF000 }
  else if o = rSqHi ∨ o = rCqHi then { rw := 0xFFFFFFFF }
  else if o = rCfg then { rst := 0x00100404, rw := 0x00F31F1F }
  else if o = rCtl then { rw := 7 }
  else if o = rIrq then { rst := 0x00010000, rw := 0xFFFF1FFF }
  else if o = rStatus then { w1c := 0x380000 }
  else if o = rDbEarly then .count .err
  else if o = rDescCnt then .count .perf
  else {}

/-- LNK_ (R362). -/
def lnkReg (o : Nat) : RegDef :=
  if o = oLnkStatus then { w1c := 0x20000 }
  else if o = oLnkCtl then { rst := 0x00140401, rw := 0x00FF0707 }
  else if o = oIdeCtl then { rw := 1 }
  else if o = oIdeStatus then { w1c := 0xF00 }
  else if o = oLossCnt ∨ o = oIdeFailCnt then .count .err
  else if o = oRecovCnt ∨ o = oBisnpCnt then .count .perf
  else {}

/-- TWN_ (R428); POS is a strap, and composed at the read. -/
def twnReg (o : Nat) : RegDef :=
  if o = oTwnStatus then { w1c := 0x1000 }
  else if o = oTwnCfg then { rst := 8, rs := 0xE }
  else if o = oHbMiss ∨ o = oFailover ∨ o = oOutage then .count .err
  else if o = oReplCnt then .count .perf
  else {}

/-- SEC_ (R458). -/
def secReg (o : Nat) : RegDef :=
  if o = oSecStatus then { w1c := 0x100 }
  else if o = oPkgSrcLo then { rw := 0xFFFFFFC0 }
  else if o = oPkgSrcHi ∨ o = oPkgLenLo ∨ o = oPkgLenHi then { rw := 0xFFFFFFFF }
  else if o = oXlat0 then { rst := 0x76543210, rw := 0xFFFFFFFF }
  else if o = oXlat1 then { rst := 0xBA98, rw := 0xFFFF }
  else if o = oPkgTag then { rw := 0xFFFFFFFF }
  else if o = oFwSrc then { rw := 0x3FFFFFF }
  else if o = oFwLen then { rw := 0x1FFFFFF }
  else if o = oDenyCnt then .count .err
  else {}

/-- PWR_ (R486). -/
def pwrReg (o : Nat) : RegDef :=
  if o = oPwrState then { w1c := 0x100 }
  else if o = oPwrCap then { rst := 450, rw := 0x1FF }
  else if o = oPwrCtl then { rst := 0x0A10, rw := 0xFF10 }
  else if o = oBrakeCtl then { rst := 20, rw := 0xFF }
  else if o = oThrottleCnt ∨ o = oPeakCnt then .count .perf
  else if o = oBrakeCnt then .count .err
  else {}

/-- THM_ (R487). -/
def thmReg (o : Nat) : RegDef :=
  if o = oThmCtl then { rst := 10, rw := 0x1F }
  else if o = oThmTrip then { w1c := 0x80000000 }
  else if o = oVoteCnt then .count .err
  else {}

/-- LOG_ (R503). -/
def logReg (o : Nat) : RegDef :=
  if o = oLogCtl then { rst := 0x000A03E8, rw := 0x00FFFFFF }
  else if o = oLogStatus then { w1c := 0x18000 }
  else if o = oLogLseq ∨ o = oTraceWptr then .count .seq
  else if o = oLogIrqEn then { rst := 0x3C, rw := 0xFF }
  else if o = oLogPend ∨ o = oLogFirstValid then { w1c := 0xFF }
  else if o = oLogMgmtEn then { rst := 0x30, rw := 0xFF }
  else if oLogDrop 0 ≤ o ∧ o ≤ oLogDrop 7 then .count .err
  else if o = oCoalCnt then .count .perf
  else if o = oTraceLo then { rw := 0xFFFFF000 }
  else if o = oTraceHi then { rw := 0xFFFF }
  else if o = oTraceSize then { rst := 20, rw := 0x3F }
  else if o = oTraceCtl then { rw := 0x3FF7 }
  else if o = oTraceCores then { rw := 0x07FF07FF }
  else if o = oTraceStatus then { w1c := 1 }
  else if o = oTraceDrop then .count .err
  else {}

/-- What the maps say of the word at a BAR0 offset (R27, R28). -/
def regDef (o : Nat) : RegDef :=
  if o < 0x100000 then hubReg o
  else if o < 0x200000 then {}
  else if o < 0x400000 then
    if o = oCoreVerr then { w1c := 0x80000000 }
    else if 0x201000 ≤ o ∧ o < 0x201000 + 1200 * 0x400 then coreReg ((o - 0x201000) % 0x400)
    else {}
  else if o < 0x500000 then
    if o < 0x4C0000 then stkReg (o % 0x10000)
    else if o < 0x4C0300 then mapReg (o % 0x100)
    else {}
  else if o < 0x600000 then qrnReg (o - 0x500000)
  else if o < 0x700000 then
    if o < 0x604000 then dmaReg (o % 0x100)
    else if o = oSluCnt then .count .perf
    else if o = oSluErrCnt then .count .err
    else {}
  else if o < 0x800000 then ringReg (o % 0x400)
  else if o < 0x900000 then lnkReg o
  else if o < 0xA00000 then twnReg o
  else if o < 0xB00000 then secReg o
  else if o < 0xC00000 then pwrReg o
  else if o < 0xD00000 then thmReg o
  else if o < 0xE00000 then logReg o
  else {}

end Sys2Proof.Machine
end

