-- ==== Sys2Proof/Machine/State.lean ====
section
/-! DEFINITION. The state of the module as plain data: every register, queue, memory, counter, mode and pin the spec
gives it. Register bits are stored in `regs` under their BAR0 offset (R27); a read composes them with the fields of
the structures below (Machine/RegRead.lean), so every bit has one home. -/

namespace Sys2Proof.Machine

open Sys2Proof

/-- Why a step could stop with a fault. No rule of the spec gives a block such a stop: nothing raises it (safe). -/
inductive Fault where
  /-- Raised by nothing; it keeps the type inhabited (safe). -/
  | unreachable
  deriving DecidableEq, Repr

/-- Why a command could have no meaning. -/
inductive Refusal where
  /-- Raised by an arm of `exec` whose command has no meaning yet (safe). -/
  | notModelled (mnemonic : String)
  deriving DecidableEq, Repr

/-! ### Identity, straps, flash -/

/-- R1: the two grades. -/
inductive Grade where
  | full | select
  deriving DecidableEq, Repr

/-- R2: what is fixed at manufacture: the grade and the absent cores, in ascending order. -/
structure Fuses where
  grade : Grade := .full
  absent : List Nat := []
  deriving DecidableEq, Repr

/-- R435: the security states. -/
inductive SecState where
  | provisioning | deployed | decommissioned
  deriving DecidableEq, Repr

/-- R438: the debug levels. -/
inductive DebugLevel where
  | locked | customer | vendor
  deriving DecidableEq, Repr

/-- The fuses that security commands burn (R435, R456). -/
structure Otp where
  state : SecState := .provisioning
  svn : Nat := 0
  reprov : Nat := 0
  deriving DecidableEq, Repr

/-- R509, R510: the sideband inputs, their samples, and the outputs' levels. -/
structure Pins where
  pairPos : Bool := false
  maddr : BitVec 2 := 0
  pairAliveIn : Bool := false
  resetN : Bool := true
  posSample : Bool := false
  maddrSample : BitVec 2 := 0
  pairAliveOut : Bool := false
  faultHeld : Bool := false
  refclk : Bool := false
  /-- R509 CLKREQ_N: REFCLK is asked for. -/
  clkreq : Bool := true
  deriving DecidableEq, Repr

/-- R117: a sparing record: the channel, the layer or bank it replaces, the spare bank, whether complete. -/
structure SpareRec where
  stack : Nat
  chan : Nat
  isLayer : Bool
  unit : Nat
  spare : Nat
  complete : Bool
  deriving DecidableEq, Repr

/-- R16: what the flash holds. -/
structure Flash where
  image : FwImage := {}
  imageValid : Bool := true
  imageSvn : Nat := 0
  pairEpoch : Nat := 0
  /-- Staged values of the first COMMIT that differ from the reset values (R53), by BAR0 offset. -/
  maps : Table W32 := []
  /-- Delay sets that are missing or fail their check (R77), by stack × 8 + band. -/
  badBands : List Nat := []
  sparing : List SpareRec := []
  neighbours : Table (List Nat) := []
  minSvn : Table Nat := []
  owner : Option OwnerKeys := none
  ideReq : Bool := false
  /-- R483 step 4: THM_TRIP and the 64 B brake record of the last Brake. -/
  trip : Option W32 := none
  brakeRecord : Option (List Byte) := none
  deriving DecidableEq, Repr

/-! ### Power, thermal -/

/-- R463. -/
inductive PowerSt where
  | off | active | idle | standby | braking
  deriving DecidableEq, Repr

/-- R459. -/
inductive RailSt where
  | off | on | retention
  deriving DecidableEq, Repr

/-- R482: what a Brake was decided for. -/
structure BrakeInfo where
  kind : Nat
  sensor : Nat
  temp : Nat
  deriving DecidableEq, Repr

structure Power where
  st : PowerSt := .active
  braked : Bool := false
  inputPresent : Bool := true
  /-- Step of R460 under way, 1–6; 7 when all are done. -/
  seqStep : Nat := 1
  rails : Table RailSt := []
  /-- Input voltage in 10 mV. -/
  vin : Nat := 4800
  /-- The input voltage as last measured, in 10 mV (R466, R486). -/
  vinRead : Nat := 0
  /-- The cclk step that VMILL m stands at (R459, R471). -/
  vmill : Table Nat := []
  /-- The 10 µs samples of PIN of the last second in 0.1 W, newest first (R466). -/
  samples : List Nat := []
  /-- R468: the cap in force since the Governor's last period, in W. -/
  cap : Nat := 450
  /-- Consecutive 10 µs samples with the 100 µs average above CAP. -/
  aboveCap : Nat := 0
  /-- R466: when the 100 µs average was last above CAP. -/
  lastAbove : Option W64 := none
  /-- The last ten 10 µs samples of each domain's power in 0.25 W, newest first (R469). -/
  domSamples : Table (List Nat) := []
  /-- What the last 100 ms charged to a role, in 0.25 W × 10 µs, and the tokens reported: (time, role, amount) (R473). -/
  energyLog : List (W64 × Nat × Nat) := []
  tokenLog : List (W64 × Nat × Nat) := []
  /-- Percent of far-path slots per stack, and of issue slots per row, taken away (R470, R474). -/
  farCut : Table Nat := []
  issueCut : Table Nat := []
  /-- Percent of ring hand-over and hub DMA issue taken away (R469). -/
  hubCut : Nat := 0
  /-- Throttle steps in force per thermal unit (R480): stack s at s, mill m at 12 + m, hub 16, board 17. -/
  thermal : Table Nat := []
  /-- Floor of R470 in force. -/
  floor : Bool := true
  /-- R474 was in force in the last Governor period. -/
  throttled : Bool := false
  held : List ClockId := []
  brake : Option BrakeInfo := none
  /-- R513: a module reset waits for the Brake to complete. -/
  resetAfterBrake : Bool := false
  /-- R463: an exit from STANDBY is under way. -/
  exiting : Bool := false
  deriving DecidableEq, Repr

/-- R476, R477: one temperature sensor. -/
structure Sensor where
  temp : Int := 0
  valid : Bool := false
  fast : Bool := false
  votedOut : Bool := false
  dead : Bool := false
  disagree : Nat := 0
  unread : Nat := 0
  /-- Time and reading of the last 8 samples, newest first (R482). -/
  hist : List (W64 × Int) := []
  deriving DecidableEq, Repr

/-! ### Event log (R494–R501) -/

/-- R496: a record; the payload is its 32 bytes as a number, little-endian. -/
structure Rec where
  time : W64 := 0
  lseq : W32 := 0
  cls : Nat := 0
  coalesced : Bool := false
  summary : Bool := false
  source : Nat := 0
  kind : Nat := 0
  sub : Nat := 0
  jobtag : W32 := 0
  tag : Nat := 0xFFF
  unit : Nat := 0
  count : Nat := 1
  span : Nat := 0
  payload : BitVec 256 := 0
  deriving DecidableEq, Repr

/-- R499: a coalescing entry. -/
structure Coal where
  last : Rec
  first : W64
  count : Nat
  deriving DecidableEq, Repr

/-- R500: who waits for a SOFTWARE record to enter the queue: an EVENT descriptor, or the EVENT instruction of a core in a
launch. -/
inductive LogOwner where
  | desc (did : Nat) | core (n : Nat) (launch : Option Nat)
  deriving DecidableEq, Repr

structure Log where
  ring : Table Rec := []
  wptr : Nat := 0
  /-- R500: oldest first; true marks a record in one of the sixteen reserved places. -/
  ingress : List (Bool × Rec) := []
  /-- Records of classes 4, 5 and 7 that found every place full, in order of occurrence, with the writer that waits. -/
  waiting : List (Rec × Option LogOwner) := []
  coal : List Coal := []
  first : Table Rec := []
  drops : Table Nat := []
  dropped : Bool := false
  /-- Timestamp of the last alarm of a class, and whether one is due (R501). -/
  lastAlarm : Table W64 := []
  due : List Nat := []
  timeHi : W32 := 0
  deriving DecidableEq, Repr

/-- R502: a queued trace record, four 64-bit words as a number. -/
structure TraceRec where
  kind : Nat
  unit : Nat
  word : BitVec 256
  deriving DecidableEq, Repr

/-! ### Stacks (R43–R127) -/

/-- R79. -/
inductive StackSt where
  | off | loading | ready | selfRefresh | clearing | failed
  deriving DecidableEq, Repr

/-- R44: a place in a stack; `layer` is logical 0–15, or 16 for the spare layer itself. -/
structure Loc where
  chan : Nat
  layer : Nat
  bank : Nat
  row : Nat
  deriving DecidableEq, Repr

/-- R324: a broadcast tile on a channel: the stack, the channel, the job and the number of the BCAST in its entry. -/
structure TileId where
  stack : Nat
  chan : Nat
  job : Nat
  cmd : Nat
  deriving DecidableEq, Repr

/-- R63: what a channel sequencer's own request carries: part of a broadcast tile, by its offset in the tile, for the slots
that wait for it (R324) or for a millrace input queue (R161), or a tailrace unit of a job (R162); `quiet`: a write-back of a DMA
channel, which no one waits for; `access`: the place in its port of an access that waits, of a core's transfer or of a DMA channel
(R55), whose bytes move when the access completes (log 5). -/
inductive SeqReq where
  | tile (off : Nat) (dests : List TileId)
  | mill (off : Nat) (dest : TileId)
  | unit (job stack chan : Nat)
  | quiet
  | access (isDma : Bool) (who : Nat)
  deriving DecidableEq, Repr

/-- R55, R56: a waiting request of one row piece. -/
structure FarReq where
  id : Nat
  port : Nat
  src : Nat
  loc : Loc
  /-- First byte within the row. -/
  off : Nat
  op : FarOp
  arrival : W64
  /-- Class entered by rule (R57), and whether counted late. -/
  minCls : Nat := 0
  late : Bool := false
  /-- R106: order among the engines of port 4, which are its sources (R55). -/
  engine : Nat := 0
  /-- R105: a deferred scrub row; `loc` names its physical layer and bank. -/
  scrub : Bool := false
  /-- R63: a channel sequencer's own request. -/
  seq : Option SeqReq := none
  /-- R14: the job tag of the descriptor that caused it. -/
  jobtag : W32 := 0
  deriving DecidableEq, Repr

/-- One bank's row buffer and refresh debt (R58, R61, R69, R72); R62: held by a stream or not is the channel's. -/
structure BankSt where
  openRow : Option Nat := none
  streak : Nat := 0
  owed : Nat := 0
  refreshes : Nat := 0
  /-- R62, R168: the stream that holds the bank is at a row boundary, and has not taken its next column. -/
  gate : Bool := false
  deriving DecidableEq, Repr

structure Stack where
  st : StackSt := .off
  band : Nat := 0
  called : Nat := 0
  refresh2x : Bool := false
  overMax : Bool := false
  sensorsLost : Bool := false
  temp : Int := 0
  /-- R76: the band each channel's interface runs with. -/
  chanBand : Table Nat := []
  reqs : List FarReq := []
  /-- By channel × 68 + physical bank. -/
  banks : Table BankSt := []
  repairs : List Loc := []
  scrubPos : Nat := 0
  deferred : List Loc := []
  /-- R108: corrected columns of the scrub period, by channel × 17 + layer. -/
  layerCe : Table Nat := []
  /-- R109: times of uncorrectable columns a quern reported that a decode found clean, by channel × 64 + bank. -/
  quernUe : Table (List W64) := []
  /-- R109: columns that a quern reported uncorrectable and no row decode has looked at since: row, column, time. -/
  asked : List (Loc × Nat × W64) := []
  /-- What a far-path read has already counted of a queued row (R124): beyond the row code or not, and bytes corrected. -/
  seen : List (Loc × Bool × Nat) := []
  /-- R83: the retention set fixed at this self-refresh entry. -/
  retained : W32 := 0
  /-- R173: entries are being ended for a self-refresh entry; a standby entry or not; and the retention set that was fixed
  when it was asked for (R85). -/
  entering : Bool := false
  forStandby : Bool := false
  toRetain : W32 := 0
  deriving DecidableEq, Repr

/-- R118. -/
inductive SpareSt where
  | clean | migrating | layerSpared | remapping | remapped | degraded
  deriving DecidableEq, Repr

/-! ### Channels, querns, jobs (04, 05) -/

/-- R174. -/
inductive SeqSt where
  | idle | check | run | syncWait | ending
  deriving DecidableEq, Repr

/-- R148. -/
inductive QuernSt where
  | selftest | idle | load | stream | held | exp | finish | isolated
  deriving DecidableEq, Repr

/-- R154 STRM: a run of columns fed to one quern, each numbered row × 64 + column: the next and the last. -/
structure Feed where
  next : Nat
  last : Nat
  deriving DecidableEq, Repr

/-- R140: a 32 B unit on its way, eight FP32 values, with its poison flag. -/
structure TUnit where
  vals : List W32
  poison : Bool := false
  deriving DecidableEq, Repr

structure Quern where
  st : QuernSt := .idle
  word : W128 := 0
  latch : Memory := []
  ascale : Table W32 := []
  acc : Table W32 := []
  m : Table W32 := []
  l : Table W32 := []
  scores : Table W32 := []
  /-- Scales of the unit or group under way (R136), and the partial planes' exact sums. -/
  scaleCol : List Byte := []
  planes : List Byte := []
  /-- Columns consumed in the stream, and units of the stream sent or owed so far. -/
  col : Nat := 0
  sent : Nat := 0
  /-- Units in the drain buffer, a drain copy that waits (R139), poison of the tile, score group and block. -/
  drain : List TUnit := []
  stalled : Bool := false
  tilePoison : Bool := false
  blockPoison : Bool := false
  streamPoison : Bool := false
  flags : BitVec 8 := 0
  feeds : List Feed := []
  /-- A PRE waits for the stream's end (R154). -/
  pre : Bool := false
  /-- R171, R168: a hold by the sequencer at a row boundary is due. -/
  atBoundary : Bool := false
  tree : Nat := 0
  rank : Nat := 0
  /-- First unit number of the stream at its tree, and the stream's place in the tree's list (R163). -/
  base : Nat := 0
  sid : Nat := 0
  /-- R100: the row for which the stream has sent its repair request. -/
  askedRow : Option Nat := none
  /-- The row that the bank opens when it is admitted. -/
  want : Option Nat := none
  deriving DecidableEq, Repr

/-- R163: a contributor's stream at a tree: its first unit number, how many units it owes, and how many of them output
units have used. -/
structure TStream where
  rank : Nat
  base : Nat
  units : Nat
  used : Nat := 0
  deriving DecidableEq, Repr

/-- R163: a tailrace tree of a channel, with the inputs that have arrived. -/
structure TreeSt where
  mode : Nat
  areg : Nat
  cstride : Nat
  bstride : Nat
  mask : W64
  base : Nat := 0
  opened : Bool := false
  emitted : Nat := 0
  /-- (stream, unit number, unit) in order of arrival. -/
  inputs : List (Nat × Nat × TUnit) := []
  /-- The streams of the current phase, in order of their OPW commands. -/
  streams : List TStream := []
  /-- PASS: next unit number per rank (R163). -/
  passNext : Table Nat := []
  /-- MERGE: vectors, and drain groups per block, of the streams that it merges. -/
  nvec : Nat := 1
  groups : Nat := 0
  deriving DecidableEq, Repr

/-- R324, R161: a prefetch slot, or what the millrace input queue holds of a tile: its bytes from `off` to `upto`; the parts
that have been read, by their offset in the tile, with a poison flag per 32 B unit; how many are still to come; and the
outcome of the read (R325). -/
structure Slot where
  job : Nat
  cmd : Nat
  off : Nat := 0
  upto : Nat := 0
  parts : Table (List Byte × List Bool) := []
  left : Nat := 0
  addrErr : Bool := false
  deriving DecidableEq, Repr

structure Chan where
  spSt : SpareSt := .clean
  spLayer : Nat := 0
  progress : Nat := 0
  /-- Spare bank k and the working bank it replaces (R127 word 1). -/
  spares : List (Nat × Nat) := []
  /-- R118: failures that wait: (isLayer, unit). -/
  failed : List (Bool × Nat) := []
  /-- The remap under way: the spare bank and the working bank. -/
  remapping : Option (Nat × Nat) := none
  /-- R118: the migration runs without gap, once a quern of the failing layer has failed. -/
  noGap : Bool := false
  /-- R112: the spare layer serves `spLayer`. -/
  layerOut : Bool := false
  seq : SeqSt := .idle
  job : Option Nat := none
  cmd : Nat := 0
  waiting : Bool := false
  casting : Bool := false
  /-- R160, R161: the bytes of the running BCAST whose beats have passed. -/
  sent : Nat := 0
  entryBanks : List Nat := []
  phaseBanks : List Nat := []
  syncMask : W64 := 0
  admission : List Nat := []
  /-- Streaming banks, newest admitted first (R167). -/
  streaming : List Nat := []
  trees : List TreeSt := []
  slots : List Slot := []
  /-- R161: what the millrace input queue holds of a tile beyond its slot. -/
  mill : Option Slot := none
  /-- R110: a migration row copy is under way, and the banks of row `progress` that it has copied. -/
  copying : Bool := false
  copied : List Nat := []
  /-- R520: a tailrace write received an address error. R332: a broadcast source did. R157: a quern was short. -/
  tailErr : Bool := false
  castErr : Bool := false
  short : Bool := false
  deriving DecidableEq, Repr

/-- R152, R378: a quern job. -/
structure Job where
  id : Nat
  did : Nat
  stack : Nat
  left : W32
  mask : W32
  entry : Nat
  areg : List Nat
  arr : Option Nat
  deadline : W64 := 0
  jobtag : W32 := 0
  mcast : Nat := 0
  auth : Option (Fin 4) := none
  flags : BitVec 8 := 0
  /-- Outcome of each channel that has ended: (channel, ST_ code). -/
  outcomes : List (Nat × Nat) := []
  arrWait : Bool := false
  deriving DecidableEq, Repr

/-- R175–R181: the PK1 aperture. -/
structure Pk1 where
  last : BitVec 16 := 0xFFFF
  /-- (stack × 32 + channel) × 64 + bank → open row and, after a PLOAD, the latch slot. -/
  rows : Table (Nat × Option Nat) := []
  deriving DecidableEq, Repr

/-! ### Cores (06, 07) -/

/-- R220. -/
inductive CoreSt where
  | empty | loading | loaded | running | stopping | trapped
  deriving DecidableEq, Repr

/-- R227 TSTATE. -/
inductive TaskSt where
  | ended | ready | blocked
  deriving DecidableEq, Repr

/-- What a task is blocked on (R189, R192, R205, R208, R252). -/
inductive Block where
  | src (q : Nat) | dst (q : Nat) | unit | flag | fence | post | dmap | signal
  deriving DecidableEq, Repr

/-- R199: a loop level. -/
structure LoopLvl where
  beg : Nat
  bend : Nat
  left : Nat
  iter : W32
  forever : Bool
  deriving DecidableEq, Repr

structure Task where
  st : TaskSt := .ended
  pc : Nat := 0
  loops : List LoopLvl := []
  flags : BitVec 8 := 0
  block : Option Block := none
  /-- R192: since when the task is blocked. -/
  since : W64 := 0
  /-- R208: a SIGNAL that waits for its target: core, entry, ORD. -/
  sig : Option (Nat × W64 × Bool) := none
  deriving DecidableEq, Repr

/-- R189, R190: a slot of a queue: reserved under a number, filled or not. -/
structure QSlot where
  rid : Nat
  entry : Option W64
  deriving DecidableEq, Repr

/-- R206: an LD or ST in a transfer slot. -/
structure Xfer where
  id : Nat
  task : Nat
  pc : Nat
  tag : Nat
  isStore : Bool
  entry : W64
  da : Nat
  dst : Option (Nat × Nat) := none
  trapp : Bool := false
  deriving DecidableEq, Repr

/-- R210: an engine instruction as issued: its word, the entries popped, the slots reserved (queue, rid), and what
was read from the parameters at issue (R242, R244, R255, R259). -/
structure EngInstr where
  task : Nat
  pc : Nat
  word : W128
  srcs : List (Option W64)
  dsts : List (Option (Nat × Nat))
  vl : Nat := 0
  mask : W32 := 0
  fill : W32 := 0
  stages : List W32 := []
  deriving DecidableEq, Repr

/-- R230: the accumulators with their poison (R236), the output buffer and the scale registers. -/
structure MatUnit where
  acc0 : Table W32 := []
  acc1 : Table W32 := []
  poison0 : Bool := false
  poison1 : Bool := false
  /-- The 1 KiB output buffer: the tile last copied out (R236). -/
  out : List Byte := []
  sa : List Byte := []
  sb : List Byte := []
  saKb : Nat := 0
  sbKb : Nat := 0
  deriving DecidableEq, Repr

/-- A POST, DMAP or EVENT (OP 1 to 3) that has issued and is not delivered (R207, R208): `before` is the number that the
next transfer would have had at its issue, `field` its RING, channel or ECODE. -/
structure SysOp where
  op : Nat
  task : Nat
  tag : Nat
  before : Nat := 0
  field : Nat
  entry : Option W64
  dst0 : Option (Nat × Nat) := none
  dst1 : Option (Nat × Nat) := none
  auth : Option (Fin 4) := none
  deriving DecidableEq, Repr

structure Core where
  st : CoreSt := .empty
  prog : W32 := 0
  ntask : Nat := 0
  entries : List Nat := []
  imem : Table W128 := []
  /-- Bit errors of instruction memory, with the 9 check bits above bit 127 (R213). -/
  imemErr : Table (BitVec 137) := []
  image : Table W32 := []
  params : Table W32 := []
  tasks : Table Task := []
  current : Nat := 0
  queues : Table (List QSlot) := []
  q14rsv : Nat := 0
  nextRid : Nat := 0
  xfers : List Xfer := []
  mat : MatUnit := {}
  matq : List EngInstr := []
  vecq : List EngInstr := []
  jobtag : W32 := 0
  launch : Option Nat := none
  /-- SYS operations handed over and not yet delivered (R183, R207), in order of issue. -/
  sys : List SysOp := []
  /-- DMAP completion values not yet pushed (R218). -/
  dmaps : Nat := 0
  /-- EVENT instructions whose record waits for a place in the log's queue (R218, R500). -/
  events : Nat := 0
  sealedBy : Option (Fin 4) := none
  patchMask : W64 := 0
  deriving DecidableEq, Repr

/-- R214: a load, patch or launch that a core waits for, in order of acceptance. A load from a ring keeps its descriptor,
which control core 0 executes again after a restart (R40). -/
inductive CoreOp where
  | load (did : Nat) (src : Option Desc) (cores : List Nat) (image : List Byte) (slot : Option (Fin 4)) (mask : W64)
  | patch (did : Nat) (cores : List Nat) (pairs : List (Nat × W32))
  | launch (did : Nat) (cores : List Nat) (prog : W32) (jobtag : W32)
  deriving DecidableEq, Repr

/-- R217, R218: a launch under way. -/
structure Launch where
  did : Nat
  cores : List Nat
  left : List Nat
  aborted : Bool := false
  /-- Cores that trapped: (core, cause, pc, tag). -/
  traps : List (Nat × Nat × Nat × Nat) := []
  deriving DecidableEq, Repr

/-! ### DMA and sluice (08) -/

/-- R287. -/
inductive DmaSt where
  | idle | fetch | run | paced | arrWait | halted
  deriving DecidableEq, Repr

/-- Where a start came from (R286). -/
inductive Origin where
  | ring (did : Nat) | core (n : Nat) (tag : Nat) (dst : Option (Nat × Nat)) | reg
  deriving DecidableEq, Repr

/-- A pending start: a copied head, or the DA of one. -/
structure Start where
  origin : Origin
  head : Option Desc
  da : Nat := 0
  auth : Option (Fin 4) := none
  deriving DecidableEq, Repr

/-- The descriptor in hand (R268). -/
structure DmaCur where
  d : Desc
  da : Option Nat := none
  block : Nat := 0
  done : Nat := 0
  bytes : Nat := 0
  dflags : BitVec 8 := 0
  pattern : W32 := 0
  /-- R284: the block's host read that is outstanding, by tag, and the block's source and destination. -/
  reading : Option Nat := none
  src : Nat := 0
  dst : Nat := 0
  /-- R271: the 32 B of the index table read last, with their DA. -/
  itab : Option (Nat × List Byte) := none
  /-- R279: the fill count lets the next block pass. -/
  passed : Bool := false
  /-- R446: the authority of this descriptor. -/
  auth : Option (Fin 4) := none
  /-- R277: the descriptor's arrival has been pushed or is held. -/
  arrived : Bool := false
  deriving DecidableEq, Repr

/-- R281: what the fetch of a linked descriptor brought: the descriptor, or a halt cause. -/
inductive Fetched where
  | desc (d : Desc) | fault (cause : Nat)
  deriving DecidableEq, Repr

structure DmaCh where
  st : DmaSt := .idle
  cause : Nat := 0
  pending : List Start := []
  start : Option Start := none
  cur : Option DmaCur := none
  /-- DA being fetched as a link or register head. -/
  fetching : Option Nat := none
  /-- R281, R282: NEXT, fetched from the issue of the last block on, and what the fetch brought. -/
  ahead : Option Nat := none
  got : Option Fetched := none
  links : Nat := 0
  chainLen : Nat := 0
  /-- R14: the job tag of the descriptor in hand, or of the last one. -/
  tag : W32 := 0
  /-- Arrivals held for a full Q12 (R278): core and entry. -/
  arrivals : List (Nat × W64) := []
  /-- A halt cause that waits for outstanding requests (R283). -/
  halting : Option Nat := none
  /-- R275, R266: the end of the descriptor in hand, with its status and whether the chain goes on, waits for the write of its
  status word. -/
  ending : Option (Nat × Bool) := none
  aborting : Bool := false
  late : Nat := 0
  /-- Destination bytes written that DMA_CH_BYTES has not counted yet, below 32 (R291). -/
  byteRem : Nat := 0
  /-- The status that the last chain ended with (R283, R384). -/
  lastStatus : Nat := 0
  deriving DecidableEq, Repr

/-- R288, R290: a sluice transfer; `status` once it is known, `got` the host's bytes while they wait for their
destination. -/
structure Sluice where
  id : Nat
  did : Nat
  d : Desc
  tag : Nat
  status : Option Nat := none
  got : Option (List Byte) := none
  deriving DecidableEq, Repr

/-- Who waits for a read of host memory (R343). -/
inductive HostRead where
  | dma (g : Nat) | sluice (id : Nat) | package
  deriving DecidableEq, Repr

/-! ### Rings (12) -/

/-- R396. -/
inductive RingSt where
  | disabled | running | stalled | draining
  deriving DecidableEq, Repr

/-- A descriptor taken from a ring or accepted from a POST (R373, R387). -/
structure RDesc where
  did : Nat
  d : Desc
  slot : Nat
  posted : Bool
  auth : Option (Fin 4) := none
  deriving DecidableEq, Repr

/-- An admitted descriptor without a record (R386, R387). -/
structure Adm where
  did : Nat
  ring : Nat
  slot : Nat
  posted : Bool
  jobtag : W32
  supp : Bool
  cirq : Bool
  fen : Bool
  deadline : W64
  cls : Nat
  /-- R502: the descriptor's first 16 bytes. -/
  head : W128 := 0
  deriving DecidableEq, Repr

structure Ring where
  st : RingSt := .disabled
  fetchPos : Nat := 0
  tail : Nat := 0
  sqPhase : Bool := true
  cqTail : Nat := 0
  cqPhase : Bool := true
  hostHead : Nat := 0
  /-- Taken, not yet handed over, in ring order. -/
  queue : List RDesc := []
  /-- R385: the fence that holds the ring. -/
  fence : Option Nat := none
  /-- R371: when the slot at the fetch position was first found not visible. -/
  notVisible : Option W64 := none
  /-- R395: records no interrupt has covered, and the oldest's time. -/
  uncovered : Nat := 0
  oldest : W64 := 0
  deriving DecidableEq, Repr

/-- R394: an MSI-X table entry. -/
structure MsixEntry where
  addrLo : W32 := 0
  addrHi : W32 := 0
  data : W32 := 0
  masked : Bool := true
  pend : Bool := false
  deriving DecidableEq, Repr

/-- R392: a set-up command and where its result goes. -/
structure CfgCmd where
  op : Nat
  expect : W32
  did : Option Nat
  deriving DecidableEq, Repr

/-- R390: the COMMIT between its snapshot and the epoch boundary. -/
structure Commit where
  snapshot : Table W32
  did : Option Nat
  deriving DecidableEq, Repr

/-- R42. -/
structure CtlCore where
  st : Nat := 0
  restarts : Nat := 0
  lastCause : Nat := 0
  lastExpiry : Option W64 := none
  deriving DecidableEq, Repr

/-- R38: an error held in the hardware error registers while control core 2 does not run. -/
inductive HeldErr where
  | layer (stack chan layer : Nat) (auto : Bool) | quern (stack chan bank : Nat) | stack (stack cause : Nat)
  deriving DecidableEq, Repr

/-! ### What the block puts on its ports -/

/-- R338: the protocol of a request to host memory: PCIe with its No Snoop attribute, a CXL.cache request, or, to a peer, a
CXL.io memory request. -/
inductive HostReq where
  | pcie (noSnoop : Bool) | rdCurr | rdShared | itoMWr | woWrInv | cxlIo
  deriving DecidableEq, Repr

/-- Answers and messages out, oldest first (log 5). -/
inductive Out where
  | hostWrite (addr : Nat) (data : List Byte) (relaxed : Bool) (kind : HostReq)
  | hostReadReq (addr len tag : Nat) (kind : HostReq)
  | completion (tag : Nat) (data : List Byte)
  | unsupported (tag : Nat)
  | config (value : W32)
  | msix (vector : Nat) (addr : W64) (data : W32)
  | mgmtAlert (addr cls : Nat)
  | farData (src : Nat) (data : List Byte) (poison : List Bool)
  | farDone (src : Nat)
  | addrError (src : Nat)
  | sealedError (src : Nat)
  | wilril (cls flits : Nat) (mseq : W32) (jobtag : W32) (args : List Nat) (payload : List Byte)
  | spdm (port : SpdmPort) (what : String) (payload : List Byte) (sig : Option (List Byte))
  | spdmError (port : SpdmPort) (what : String)
  | jtag (data : List Byte)
  | biSnoop (line : Nat) (inv : Bool)
  | cxlResolve (line : Nat)
  | mgmtBusy (addr : Nat)
  deriving DecidableEq, Repr

/-! ### Host link (11) -/

/-- R361. -/
inductive LinkSt where
  | down | training | up | recovery | warmEntry | warm
  deriving DecidableEq, Repr

/-- R362 MODE. -/
inductive LinkMode where
  | pcie | cxl2 | cxl3
  deriving DecidableEq, Repr

/-- R340: the host's copy of a window line. -/
inductive LineSt where
  | i | s | em
  deriving DecidableEq, Repr

structure Link where
  st : LinkSt := .down
  mode : LinkMode := .pcie
  rate : Nat := 0
  width : Nat := 0
  cfgOnly : Bool := false
  fromWarm : Bool := false
  /-- The IDE streams, as LNK_IDE_STATUS reports them (R354). -/
  ideLink : Nat := 0
  ideSel : BitVec 4 := 0
  cxlIde : Nat := 0
  /-- R430: the IDE keys: 0 of the link stream, 1–4 of the selective streams, 5 of CXL IDE. -/
  ideKeys : Table (BitVec 256) := []
  /-- R336: doublewords of configuration space written since its reset. -/
  config : List (Nat × W32) := []
  window : Table LineSt := []
  /-- R342: the host-line cache, oldest first: line number and the descriptor that it holds. -/
  hostLines : List (Nat × Desc) := []
  reads : Table HostRead := []
  nextTag : Nat := 0
  /-- R34–R36, R357: requests that wait for the link, oldest first: the first 64 entries in the host port's crossing queue, the
  rest at their stalled sources. -/
  held : List Out := []
  deriving DecidableEq, Repr

/-! ### Twin pair (13) -/

/-- R402. -/
inductive PairSt where
  | unpaired | pairing | paired | solo | split | syncSrc | syncDst
  deriving DecidableEq, Repr

/-- R409: a session record. -/
structure Session where
  sid : W32
  tensor : Nat
  tokens : W32 := 0
  ownedHere : Bool := true
  replicated : Bool := false
  resumable : Bool := false
  deriving DecidableEq, Repr

/-- R403, R405: a message to the partner, from its place in its class until its acknowledgement; `did` is the TWIN
descriptor that it belongs to. -/
structure Msg where
  cls : Nat
  mseq : W32
  jobtag : W32 := 0
  args : List Nat
  payload : List Byte := []
  did : Option Nat := none
  sent : Bool := false
  /-- It has not gone out yet, and has no number. -/
  fresh : Bool := false
  deriving DecidableEq, Repr

/-- R412–R417: a TWIN descriptor that waits for the partner: `blocks` that still move, or the block of a REPL or FETCH;
`count` is 1 for a FETCH whose request is not sent; `bad` says that the partner refused a block. -/
structure TwinWait where
  did : Nat
  op : Nat
  tensor : Nat
  blocks : List Nat := []
  count : Nat := 0
  sid : W32 := 0
  tokens : W32 := 0
  slot : Nat := 0
  jobtag : W32 := 0
  bad : Bool := false
  deriving DecidableEq, Repr

/-- R430, R452: one key per direction. -/
structure PairKeys where
  tx : BitVec 256
  rx : BitVec 256
  deriving DecidableEq, Repr

structure Twin where
  st : PairSt := .unpaired
  link : Nat := 0
  peerSlot : Nat := 0
  peerEpoch : Nat := 0
  peerGrade : Option Nat := none
  peerEn : Bool := true
  peerInfo : Bool := false
  attested : Option Bool := none
  /-- R400: whether the partner verified this module. -/
  peerAttested : Option Bool := none
  secOk : Option Bool := none
  /-- R402: the partner was in SOLO when pairing began. -/
  peerSolo : Bool := false
  /-- R401 step 4: the partner's registered tables, as last told and as later messages change them. -/
  peerTables : List PeerTable := []
  /-- R401 step 4: that list has come whole. -/
  peerListed : Bool := false
  cause : Nat := 0
  hseq : W32 := 0
  rxSeq : Table W32 := []
  txSeq : Table W32 := []
  lastHb : W64 := 0
  aliveFall : Option W64 := none
  hostless : Bool := false
  sessions : List Session := []
  /-- R413: registered tables, by TENSOR_ID → DA, in ascending TENSOR_ID. -/
  tables : Table Nat := []
  waits : List TwinWait := []
  /-- R405: messages sent and not yet acknowledged, or that wait to be sent, oldest first. -/
  sendq : List Msg := []
  /-- R415: the partner's requests for blocks that are MOVING here: tensor, block, job tag and
  the destination's package. -/
  serve : List (Nat × Nat × W32 × Option (W32 × W32)) := []
  /-- R314: blocks that began to move, each with its SEQ then: tensor, block and SEQ. -/
  moved : List (Nat × Nat × Nat) := []
  /-- R38: the link came UP, freshly or from a retraining, while control core 3 did not run. -/
  upHeld : Option Bool := none
  /-- R408: the state that PAIRING was entered from, and whether the partner took over in SPLIT. -/
  prev : PairSt := .unpaired
  peerTook : Bool := false
  /-- R423: back-fill under way in PAIRED. -/
  sync : Bool := false
  /-- R417, R420: a takeover under way: its start, and whether it is for a hostless partner. -/
  takeover : Option (W64 × Bool) := none
  splitSince : Option W64 := none
  /-- R422: blocks left to send, (tensor, block). -/
  backlog : List (Nat × Nat) := []
  /-- R430, R452: the pairing keys, since when they are in use, and this module's secret of the exchange under way. -/
  keys : Option PairKeys := none
  keySince : W64 := 0
  ecdhe : Option (BitVec 384) := none
  keyMsgs : Nat := 0
  keyGen : Nat := 0
  heldHb : Heartbeat := {}
  deriving DecidableEq, Repr

def Twin.hasKeys (t : Twin) : Bool := t.keys.isSome

/-! ### Security (14) -/

/-- R458 SEC_PKG_STATE. -/
inductive PkgSt where
  | empty | loading | loaded | unloading | failed
  deriving DecidableEq, Repr

/-- R443: a package slot. -/
structure Pkg where
  st : PkgSt := .empty
  err : Nat := 0
  id : W32 := 0
  version : W32 := 0
  progress : W32 := 0
  key : Option (BitVec 256) := none
  /-- R445: sealed channels per stack. -/
  sealMap : Table W32 := []
  /-- R444, R449: locked sequence-table offsets. -/
  locked : List Nat := []
  meas : Option (BitVec 384) := none
  deriving DecidableEq, Repr

/-- The load or unload under way (R443, R444). -/
structure PkgWork where
  slot : Fin 4
  loading : Bool
  fromHost : Bool := false
  bytes : Option (List Byte) := none
  tag : W32 := 0
  failErr : Nat := 0
  /-- The slot's stack for each manifest stack (R443 step 4). -/
  xlat : List Nat := []
  /-- R443 step 6: the stacks that start no new job until the sequence tables are written. -/
  holds : List Nat := []
  deriving DecidableEq, Repr

/-- R433: an SPDM connection. -/
structure Spdm where
  version : Bool := false
  caps : Bool := false
  algs : Bool := false
  transcript : List Byte := []
  /-- R434: the transcript hash of the connection's last signed response. -/
  lastHash : Option (BitVec 384) := none
  /-- (session number, established). -/
  sessions : List (Nat × Bool) := []
  /-- R429, R433: the secret of each session, from its key exchange. -/
  secrets : Table (BitVec 384) := []
  keyGen : Nat := 0
  deriving DecidableEq, Repr

/-- A state change or its fuse write that has not completed (R435). -/
structure FuseWrite where
  state : SecState
  reprov : Bool
  deriving DecidableEq, Repr

/-- What follows when every package is unloaded (R436, R438). -/
inductive After where
  | state (f : FuseWrite) | decommission | vendor
  deriving DecidableEq, Repr

structure Sec where
  debug : DebugLevel := .locked
  boot : Nat := 0
  recovering : Bool := false
  mailbox : Bool := false
  nonce : Option (BitVec 256) := none
  cdi1 : BitVec 384 := 0
  aliasGen : Nat := 0
  meas : Table (BitVec 384) := []
  pkgs : Table Pkg := []
  work : Option PkgWork := none
  /-- Slots that wait to be unloaded, then what follows them (R436, R438). -/
  unloads : List (Fin 4) := []
  after : Option After := none
  fuse : Option FuseWrite := none
  host : Spdm := {}
  mgmt : Spdm := {}
  wilril : Spdm := {}
  fwState : Nat := 0
  fwErr : Nat := 0
  fwImage : Option FwImage := none
  /-- R38: a GO of the firmware update waits for control core 3. -/
  fwHeld : Bool := false
  deriving DecidableEq, Repr

/-! ### The state -/

structure State where
  /-- The waiting commands, first in, first out. -/
  pending : List Instr := []
  time : W64 := 0
  free : Nat := 0
  fuses : Fuses := {}
  otp : Otp := {}
  pins : Pins := {}
  flash : Flash := {}
  power : Power := {}
  sensors : Table Sensor := []
  /-- Stored register bits by BAR0 offset; RS registers hold their staged values here, `effect` those in effect. -/
  regs : Table W32 := []
  effect : Table W32 := []
  phase : Nat := 0
  lastReset : Nat := 0
  bootDone : Bool := false
  resetHeld : Bool := false
  ctl : Table CtlCore := []
  log : Log := {}
  /-- R14: the job tag and the tag of the descriptor or instruction whose work the command under way does. -/
  cause : W32 × Nat := (0, 0xFFF)
  trace : List TraceRec := []
  /-- DRAM as written, by physical place (Machine/Map.lean), its bit-error overlay, and poisoned columns. -/
  dram : Memory := []
  dramErr : Memory := []
  poison : List Nat := []
  scratch : Memory := []
  scratchPoison : List Nat := []
  window : Memory := []
  stks : Table Stack := []
  chans : Table Chan := []
  querns : Table Quern := []
  jobs : List Job := []
  nextId : Nat := 0
  /-- R326, R327: multicast groups whose wait has begun. -/
  groups : List Nat := []
  pk1 : Pk1 := {}
  cores : Table Core := []
  coreOps : List CoreOp := []
  launches : List Launch := []
  stops : List (Nat × List Nat) := []
  dmas : Table DmaCh := []
  sluices : List Sluice := []
  rings : Table Ring := []
  admitted : List Adm := []
  msix : Table MsixEntry := []
  frontStopped : Bool := false
  /-- R393: for each PRIO the ring whose turn it is among rings without a deadline, and the descriptors left to its turn. -/
  turns : Table (Nat × Nat) := []
  cfgQueue : List CfgCmd := []
  commit : Option Commit := none
  ctlHeld : List HeldErr := []
  link : Link := {}
  twin : Twin := {}
  sec : Sec := {}
  outbox : List Out := []
  deriving DecidableEq, Repr

/-- R488–R493: the module right after a power-on reset, when the input has entered 40–60 V (log 1, log 2). Every
table is empty: each unit is at its reset value. -/
def State.reset : State := {}

end Sys2Proof.Machine
end

