-- ==== Sys2Proof/Machine/Ops.lean ====
section
/-! DEFINITION. The named operations over the units of the state: reading and setting one unit, stored register bits,
counters, the event log, MSI-X messages and the outbox. -/

namespace Sys2Proof.Machine

open Sys2Proof

/-! ### Units -/

def stackAt (s : State) (k : Nat) : Stack := tget {} s.stks k
def setStack (s : State) (k : Nat) (x : Stack) : State := { s with stks := tset {} k x s.stks }
def modStack (s : State) (k : Nat) (f : Stack → Stack) : State := setStack s k (f (stackAt s k))

/-- Channel c of stack k. -/
def chanKey (k c : Nat) : Nat := k * 32 + c
def chanAt (s : State) (k c : Nat) : Chan := tget {} s.chans (chanKey k c)
def setChan (s : State) (k c : Nat) (x : Chan) : State := { s with chans := tset {} (chanKey k c) x s.chans }
def modChan (s : State) (k c : Nat) (f : Chan → Chan) : State := setChan s k c (f (chanAt s k c))

/-- The quern of physical bank b (0–67) of a channel (R9). -/
def quernKey (k c b : Nat) : Nat := (k * 32 + c) * 68 + b
def quernAt (s : State) (k c b : Nat) : Quern := tget {} s.querns (quernKey k c b)
def setQuern (s : State) (k c b : Nat) (x : Quern) : State := { s with querns := tset {} (quernKey k c b) x s.querns }
def modQuern (s : State) (k c b : Nat) (f : Quern → Quern) : State := setQuern s k c b (f (quernAt s k c b))

def coreAt (s : State) (n : Nat) : Core := tget {} s.cores n
def setCore (s : State) (n : Nat) (x : Core) : State := { s with cores := tset {} n x s.cores }
def modCore (s : State) (n : Nat) (f : Core → Core) : State := setCore s n (f (coreAt s n))

def taskAt (c : Core) (t : Nat) : Task := tget {} c.tasks t
def setTask (c : Core) (t : Nat) (x : Task) : Core := { c with tasks := tset {} t x c.tasks }
def modTask (c : Core) (t : Nat) (f : Task → Task) : Core := setTask c t (f (taskAt c t))

def dmaAt (s : State) (g : Nat) : DmaCh := tget {} s.dmas g
def setDma (s : State) (g : Nat) (x : DmaCh) : State := { s with dmas := tset {} g x s.dmas }
def modDma (s : State) (g : Nat) (f : DmaCh → DmaCh) : State := setDma s g (f (dmaAt s g))

def ringAt (s : State) (n : Nat) : Ring := tget {} s.rings n
def setRing (s : State) (n : Nat) (x : Ring) : State := { s with rings := tset {} n x s.rings }
def modRing (s : State) (n : Nat) (f : Ring → Ring) : State := setRing s n (f (ringAt s n))

def pkgAt (s : State) (k : Nat) : Pkg := tget {} s.sec.pkgs k
def setPkg (s : State) (k : Nat) (x : Pkg) : State := { s with sec := { s.sec with pkgs := tset {} k x s.sec.pkgs } }

def ctlAt (s : State) (n : Nat) : CtlCore := tget {} s.ctl n
def setCtl (s : State) (n : Nat) (x : CtlCore) : State := { s with ctl := tset {} n x s.ctl }

def sensorAt (s : State) (i : Nat) : Sensor := tget {} s.sensors i
def setSensor (s : State) (i : Nat) (x : Sensor) : State := { s with sensors := tset {} i x s.sensors }

/-- Valid sensors among `n` from sensor `lo`. -/
def validCount (s : State) (lo n : Nat) : Nat := ((List.range n).filter (fun i => (sensorAt s (lo + i)).valid)).length

/-- R38, R470, R478: the limiters hold the module to the floor allowance. -/
def floorInForce (s : State) : Bool := s.power.floor || (ctlAt s 1).st != 0 || decide (validCount s 192 16 < 8)

/-- R471: the clock is held while its PLL relocks; what it drives stands still. -/
def clockHeld (s : State) (c : ClockId) : Bool := s.power.held.contains c

/-- The clock of a core: cores 300m to 300m + 299 lie on mill die m (R469). -/
def coreHeld (s : State) (n : Nat) : Bool := clockHeld s (.mill (Fin.ofNat 4 (n / 300)))

/-- The clock of a DMA channel: 0–15 lie on the hub, four on each row (R469). -/
def dmaHeld (s : State) (g : Nat) : Bool :=
  clockHeld s (if g < 16 then .hub else .mill (Fin.ofNat 4 ((g - 16) / 12)))

def emit (s : State) (o : Out) : State := { s with outbox := s.outbox ++ [o] }

/-- R510: the management interface's static address, from the sampled straps. -/
def mgmtAddress (s : State) : Nat := 0x58 + 2 * s.pins.maddrSample.toNat + b2n s.pins.posSample

/-! ### Stored register bits -/

def regGet (s : State) (o : Nat) : W32 := tget (w32 (regDef o).rst) s.regs o
def regSet (s : State) (o : Nat) (v : W32) : State := { s with regs := tset (w32 (regDef o).rst) o v s.regs }
/-- R12: the value in effect of an RS register. -/
def effGet (s : State) (o : Nat) : W32 := tget (w32 (regDef o).rst) s.effect o
def regFld (s : State) (o hi lo : Nat) : Nat := fld (regGet s o) hi lo
def regSetFld (s : State) (o hi lo v : Nat) : State := regSet s o (setFld (regGet s o) hi lo v)
def regBit (s : State) (o i : Nat) : Bool := bitOf (regGet s o) i
def regSetBit (s : State) (o i : Nat) : State := regSetFld s o i i 1
def regClrBit (s : State) (o i : Nat) : State := regSetFld s o i i 0

/-! ### Free values -/

/-- A free value (log 4): 64 bits nothing constrains. -/
def draw (s : State) : W64 × State := (Config.freeBits s.free, { s with free := s.free + 1 })

/-- `n` free bytes. -/
def drawBytes : Nat → State → List Byte × State
  | 0, s => ([], s)
  | n + 1, s =>
    let d := draw s
    let r := drawBytes n d.2
    (d.1.setWidth 8 :: r.1, r.2)

/-- R2, R4: core n is one of the present cores. -/
def corePresent (s : State) (n : Nat) : Bool := decide (n < 1200) && !s.fuses.absent.contains n

/-! ### The host link's ability to carry module requests (R336, R354, R395) -/

/-- R354, R453: outside a Secure stream nothing travels. -/
def ideRequired (s : State) : Bool :=
  if s.flash.ideReq && decide (s.otp.state = .deployed) then true else regBit s oIdeCtl 0

def ideSecure (s : State) : Bool := s.link.ideLink == 1 || s.link.ideSel != 0

def linkCarries (s : State) : Bool :=
  decide (s.link.st = .up) && !s.link.cfgOnly && (!ideRequired s || ideSecure s)

/-- R337: CXL 2.0 or CXL 3.1. -/
def coherent (s : State) : Bool := decide (s.link.mode ≠ .pcie)

/-- R347, R357: a request of the module leaves on the link, behind those in the host port's crossing queue. It waits there
while the link is in Recovery or does not carry it. -/
def hostSend (s : State) (o : Out) : State :=
  if linkCarries s && s.link.held.isEmpty then emit s o
  else if s.link.st = .up ∨ s.link.st = .recovery then { s with link := { s.link with held := s.link.held ++ [o] } }
  else s

/-- Cuts a range at multiples of `size`: (address, length). -/
def cutsN (size : Nat) : (fuel addr len : Nat) → List (Nat × Nat)
  | 0, _, _ => []
  | f + 1, a, len =>
    if len = 0 then []
    else
      let n := min len (size - a % size)
      (a % 2 ^ 64, n) :: cutsN size f (a + n) (len - n)

/-- R335, R343: the requests of a transfer of host memory: one a 64 B line in the coherent modes, one a payload of at most
`size` bytes otherwise (log 74). -/
def hostCuts (s : State) (size addr len : Nat) : List (Nat × Nat) :=
  let n := if coherent s && !Config.peerAddress addr then 64 else size
  cutsN n (len / n + 2) addr len

/-- R338, R344: No Snoop follows LNK_CTL.NOSNOOP. -/
def pcieReq (s : State) : HostReq := .pcie (regBit s oLnkCtl 1)

/-- R335, R338: a write of host memory. -/
def hostWriteOut (s : State) (addr : Nat) (data : List Byte) (relaxed : Bool) : State :=
  ((hostCuts s 512 addr data.length).foldl (fun a p =>
    let kind := if !coherent s then pcieReq s else if Config.peerAddress addr then .cxlIo
      else if p.2 = 64 then .itoMWr else .woWrInv
    (hostSend a.1 (.hostWrite p.1 ((data.drop a.2).take p.2) relaxed kind), a.2 + p.2)) (s, 0)).1

/-- R335, R338, R369: a read of host memory under a number; `desc`: of descriptor lines. -/
def hostReadOut (s : State) (addr len tag : Nat) (desc : Bool) : State :=
  (hostCuts s 4096 addr len).foldl (fun s p =>
    hostSend s (.hostReadReq p.1 p.2 tag (if !coherent s then pcieReq s
      else if Config.peerAddress addr then .cxlIo else if desc then .rdShared else .rdCurr))) s

/-- A read of host memory goes out under the next number, which `who` waits for. -/
def askHost (s : State) (addr len : Nat) (who : HostRead) : State :=
  let tag := s.link.nextTag
  let s := hostReadOut s addr len tag false
  { s with link := { s.link with nextTag := tag + 1, reads := tins tag who (tdel tag s.link.reads) } }

/-- R36: the 128 B entries that a request takes in the host port's crossing queue. -/
def heldEntries : Out → Nat
  | .hostWrite _ data _ _ => max 1 ((data.length + 127) / 128)
  | _ => 1

/-! ### MSI-X (R394, R395) -/

def msixAt (s : State) (v : Nat) : MsixEntry := tget {} s.msix v
def setMsix (s : State) (v : Nat) (x : MsixEntry) : State := { s with msix := tset {} v x s.msix }

/-- Sends the message of a vector, or sets its pending bit. -/
def msixRaise (s : State) (v : Nat) : State :=
  let e := msixAt s v
  if e.masked || !linkCarries s || !s.link.held.isEmpty then setMsix s v { e with pend := true }
  else emit (setMsix s v { e with pend := false }) (.msix v (w64 (e.addrLo.toNat + 2 ^ 32 * e.addrHi.toNat)) e.data)

/-- R347, R395: as the link comes to carry them, the requests that wait are sent, then every pending message of an unmasked
vector. -/
def hostFlush (s : State) : State :=
  if linkCarries s then
    let s : State := { s with outbox := s.outbox ++ s.link.held, link := { s.link with held := [] } }
    s.msix.foldl (fun s p => if p.2.pend && !p.2.masked then msixRaise s p.1 else s) s
  else s

/-! ### Counters and the event log (R498–R501) -/

/-- R500: which classes a full queue drops. -/
def clsDrops (c : Nat) : Bool := decide (c ≤ 3) || c == 6

def generalFill (l : Log) : Nat := (l.ingress.filter (fun p => !p.1)).length

def reservedFill (l : Log) : Nat := (l.ingress.filter (fun p => p.1)).length

/-- R500: whether a record of class 4, 5 or 7 would find a place. -/
def logRoom (l : Log) : Bool := decide (generalFill l < 256) || decide (reservedFill l < 16)

/-- The SUMMARY record of R500: the drops of each class since the previous one. -/
def summaryRec (s : State) : Rec :=
  { time := s.time, summary := true, source := 15, kind := 1
    payload := BitVec.ofNat 256 ((List.range 8).foldl (fun a c => a + (tget 0 s.log.drops c) % 2 ^ 32 * 2 ^ (32 * c)) 0) }

/-- R500: the SUMMARY goes in as soon as there is room and nothing of class 4, 5 or 7 waits. -/
def logSummary (s : State) : State :=
  if s.log.dropped && s.log.waiting.isEmpty && decide (generalFill s.log < 256) then
    { s with log := { s.log with ingress := s.log.ingress ++ [(false, summaryRec s)], drops := [], dropped := false } }
  else s

/-- A record of a class that is never dropped takes a place, or waits with its writer (R500). -/
def logHold (s : State) (r : Rec) (owner : Option LogOwner) : State :=
  if !s.log.waiting.isEmpty then { s with log := { s.log with waiting := s.log.waiting ++ [(r, owner)] } }
  else if generalFill s.log < 256 then { s with log := { s.log with ingress := s.log.ingress ++ [(false, r)] } }
  else if reservedFill s.log < 16 then { s with log := { s.log with ingress := s.log.ingress ++ [(true, r)] } }
  else { s with log := { s.log with waiting := s.log.waiting ++ [(r, owner)] } }

def coalMatch (r : Rec) (e : Coal) : Bool :=
  e.last.source == r.source && e.last.kind == r.kind && e.last.sub == r.sub && e.last.unit == r.unit

/-- An occurrence, or (no record) a count of `k` on the counter at an offset: R498, R499 and R500 call each other,
at most five deep, so `fuel` 6 is never used up. -/
def logStep : (fuel : Nat) → State → Option Rec → (off k : Nat) → State
  | 0, s, _, _, _ => s
  | n + 1, s, none, off, k =>
    let old := (regGet s off).toNat
    match (regDef off).cnt with
    | some .perf =>
      let s := regSet s off (w32 (old + k))
      if old + k < 2 ^ 32 then s
      else logStep n s (some { time := s.time, source := 12, kind := 4, payload := BitVec.ofNat 256 off }) 0 0
    | some .err =>
      let s' := regSet s off (w32 (min (old + k) (2 ^ 32 - 1)))
      if old < 2 ^ 32 - 1 ∧ old + k ≥ 2 ^ 32 - 1 then
        logStep n s' (some { time := s.time, cls := 2, source := 12, kind := 5, payload := BitVec.ofNat 256 off }) 0 0
      else s'
    | _ => regSet s off (w32 (old + k))
  | n + 1, s, some r, _, _ =>
    if clsDrops r.cls then
      if regFld s oLogCtl 15 0 ≠ 0 ∧ s.log.coal.any (coalMatch r) then
        let s := { s with log := { s.log with coal := s.log.coal.map (fun e =>
          if coalMatch r e then
            { last := r, first := if e.count = 0 then r.time else e.first, count := e.count + 1 } else e) } }
        logStep n s none oCoalCnt 1
      else
        let s := if regFld s oLogCtl 15 0 ≠ 0 ∧ s.log.coal.length < 64 then
          { s with log := { s.log with coal := s.log.coal ++ [{ last := r, first := r.time, count := 0 }] } } else s
        if generalFill s.log < 256 then
          { s with log := { s.log with ingress := s.log.ingress ++ [(false, r)] } }
        else
          let s := { s with log := { s.log with
            drops := tset 0 r.cls (tget 0 s.log.drops r.cls + 1) s.log.drops, dropped := true } }
          logStep n s none (oLogDrop r.cls) 1
    else logHold s r none

/-- Adds `k` to the counter at a BAR0 offset, by its class (R498). -/
def countBy (s : State) (off k : Nat) : State := if k = 0 then s else logStep 6 s none off k

def count (s : State) (off : Nat) : State := countBy s off 1

/-- Counts one per element for which the test holds. -/
def countIf (s : State) (b : Bool) (off : Nat) : State := if b then count s off else s

/-- R14: an occurrence carries its own tags, or those of the work that causes it. -/
def occur (s : State) (r : Rec) : State :=
  let own := decide (r.jobtag ≠ 0 ∨ r.tag ≠ 0xFFF)
  logStep 6 s (some { r with
    time := s.time, jobtag := if own then r.jobtag else s.cause.1, tag := if own then r.tag else s.cause.2 }) 0 0

/-- R14: work that a descriptor or an instruction causes. -/
def caused (s : State) (jobtag : W32) (tag : Nat) (f : State → State) : State :=
  { f { s with cause := (jobtag, tag) } with cause := s.cause }

/-- An event of R497. -/
def event (s : State) (cls source kind sub unit : Nat) (payload : Nat := 0) (jobtag : W32 := 0)
    (tag : Nat := 0xFFF) : State :=
  occur s { cls := cls, source := source, kind := kind, sub := sub, unit := unit, jobtag := jobtag, tag := tag
            payload := BitVec.ofNat 256 payload }

def stackUnit (k : Nat) : Nat := 0x400 + k

/-- R36: the destination of a crossing queue is reset while entries are held: they are discarded, and the crossing records
one event; `row` is that of R34's table. -/
def noteDiscard (s : State) (row entries : Nat) : State := if entries = 0 then s else event s 2 11 1 0 row entries

/-- R36, R358: the host port's crossing queue is reset. -/
def discardHeld (s : State) : State :=
  noteDiscard { s with link := { s.link with held := [] } } 0 (min 64 (s.link.held.map heldEntries).sum)

/-! ### Trace (R502) -/

/-- R502: the first 16 bytes of a descriptor. -/
def descHead (d : Desc) : Nat := d.w0.toNat + put d.w1.toNat 64

/-- R502: what the UNIT of a record names: a core, a ring, or a DMA channel. -/
def traceClass (kind : Nat) : Nat := if kind ≤ 3 ∨ kind = 10 then 0 else if kind ≤ 7 then 1 else 2

/-- A trace record of a unit enters its queue when the control register asks for its kind; a full queue drops it. -/
def trace (s : State) (kind unit : Nat) (jobtag : W32 := 0) (tag : Nat := 0xFFF) (task pc : Nat := 0)
    (isCore sealedUnit : Bool := false) (data : Nat := 0) : State :=
  let c := regGet s oTraceCtl
  let cores := regGet s oTraceCores
  if !bitOf c 0 || !bitOf c (kind + 3) then s
  else if isCore && !(decide (fld cores 10 0 ≤ unit) && decide (unit < fld cores 10 0 + fld cores 26 16)) then s
  else if (s.trace.filter (fun r => r.unit == unit && traceClass r.kind == traceClass kind)).length ≥ 64 then
    count s oTraceDrop
  else
    let d := if bitOf c 2 && decide (s.sec.debug ≠ .locked) && !sealedUnit then data % 2 ^ 128 else 0
    { s with trace := s.trace ++ [{ kind := kind, unit := unit, word := BitVec.ofNat 256 (
        s.time.toNat % 2 ^ 48 + put kind 48 + put (unit % 4096) 52 + put jobtag.toNat 64 + put (tag % 4096) 96
        + put (task % 4) 108 + put (pc % 1024) 110 + put d 128) }] }

end Sys2Proof.Machine
end

