-- ==== Sys2Proof/Machine/Map.lean ====
section
/-! DEFINITION. Where a device address lies (R22–R26, R46–R51), which locations are sealed (R445), and the place in a
stack that serves a location while its layer or bank is spared (R10, R111, R112, R115). -/

namespace Sys2Proof.Machine

open Sys2Proof

/-! ### The device address map (R22) -/

inductive DaKind where
  | dram | scratch (core off : Nat) | window (off : Nat) | reg (off : Nat) | reserved
  deriving DecidableEq, Repr

def windowBase : Nat := 0x200000000000
def windowSize : Nat := 0x4000000
def scratchBase : Nat := 0x100000000000
def scratchSize : Nat := 0x80000
def dramSize : Nat := 0xC000000000

/-- R22–R24: what a device address names; an absent core's scratchpad is reserved. -/
def daKind (s : State) (da : Nat) : DaKind :=
  if da < dramSize then .dram
  else if scratchBase ≤ da ∧ da < scratchBase + 1200 * scratchSize then
    if corePresent s ((da - scratchBase) / scratchSize) then
      .scratch ((da - scratchBase) / scratchSize) ((da - scratchBase) % scratchSize)
    else .reserved
  else if windowBase ≤ da ∧ da < windowBase + windowSize then .window (da - windowBase)
  else if 0x300000000000 ≤ da ∧ da < 0x300001000000 then .reg (da - 0x300000000000)
  else .reserved

/-! ### Address mapping (R46–R54) -/

/-- The MASK of select bit i of group g in effect, as a mask over DA bits. -/
def mapMask (rd : Nat → W32) (g i : Nat) : Nat :=
  ((rd (oMapSel g i 0)).toNat + 2 ^ 32 * fld (rd (oMapSel g i 1)) 0 0) * 32

def mapAnchor (rd : Nat → W32) (g i : Nat) : Nat := fld (rd (oMapSel g i 1)) 13 8

/-- XOR of the bits of `v` below 64. -/
def parity (v : Nat) : Bool := ([32, 16, 8, 4, 2, 1].foldl (fun a k => a ^^^ (a >>> k)) v).testBit 0

/-- R47: select bit i of a DA, which has 48 bits. -/
def selBit (rd : Nat → W32) (g i da : Nat) : Bool := parity (da &&& mapMask rd g i)

/-- The number whose bit j is `f j`, for j below the length. -/
def ofBits (l : List Bool) : Nat := l.foldr (fun b a => b2n b + 2 * a) 0

def anchors (rd : Nat → W32) (g : Nat) : List Nat := (List.range 13).map (mapAnchor rd g)

/-- R47: the DA bits of 5–37 that are no anchor, ascending. -/
def freePos (rd : Nat → W32) (g : Nat) : List Nat :=
  ((List.range 33).map (· + 5)).filter (fun p => !(anchors rd g).contains p)

/-- A DRAM location with its stack and byte within the row. -/
structure DLoc where
  stack : Nat
  loc : Loc
  off : Nat
  deriving DecidableEq, Repr

def groupOf (da : Nat) : Nat := da / 2 ^ 38 % 4

/-- R46, R47: the location of a DRAM DA under a map. -/
def dramLoc (rd : Nat → W32) (da : Nat) : DLoc :=
  let g := groupOf da
  let sel := fun i => selBit rd g i da
  let free := (freePos rd g).map da.testBit
  { stack := 4 * g + ofBits [sel 0, sel 1]
    loc := { chan := ofBits ((List.range 5).map (fun j => sel (2 + j)))
             layer := ofBits ((List.range 4).map (fun j => sel (9 + j)))
             bank := ofBits [sel 7, sel 8]
             row := ofBits ((free.drop 6).take 14) }
    off := ofBits (free.take 6) * 32 + da % 32 }

/-- R50: the group's bit in effect. -/
def groupOnline (s : State) (g : Nat) : Bool := bitOf (effGet s (oGrpCtl g)) 0

def locate (s : State) (da : Nat) : DLoc := dramLoc (effGet s) da

/-- The DA bits that the masks of a group take. -/
def maskBits (rd : Nat → W32) (g : Nat) : Nat := (List.range 13).foldl (fun a i => a ||| mapMask rd g i) 0

/-- R51: the log2 of the pieces of a group: its lowest anchor, or the lowest bit below it that a mask takes, since a
request lies within one row (R47, R56; log 72); at most 11. -/
def pieceLog (s : State) (g : Nat) : Nat :=
  let m := maskBits (effGet s) g
  (((List.range 6).map (· + 5)).find? m.testBit).getD 11

/-- R51: where the request that starts at a DA is cut: DRAM by its group's pieces, anything else by 32 B unit. -/
def cutLog (s : State) (da : Nat) : Nat :=
  match daKind s (da % 2 ^ 48) with
  | .dram => pieceLog s (groupOf (da % 2 ^ 48))
  | _ => 5

/-- The pieces of a range that one request each covers: (DA, length). -/
def accessPiecesN (s : State) : (fuel da len : Nat) → List (Nat × Nat)
  | 0, _, _ => []
  | f + 1, da, len =>
    if len = 0 then []
    else
      let a := cutLog s da
      let n := min len (2 ^ a - da % 2 ^ a)
      (da % 2 ^ 48, n) :: accessPiecesN s f (da + n) (len - n)

def accessPieces (s : State) (da len : Nat) : List (Nat × Nat) := accessPiecesN s (len / 32 + 2) da len

/-! ### The sealed region (R445) -/

/-- The slot for which channel c of stack k is sealed. -/
def sealedSlot (s : State) (k c : Nat) : Option (Fin 4) :=
  (List.finRange 4).find? (fun slot => bitOf (tget 0 (pkgAt s slot.val).sealMap k) c)

/-- R445: the slot whose region a DRAM DA lies in. -/
def daSealed (s : State) (da : Nat) : Option (Fin 4) :=
  match daKind s da with
  | .dram => let l := locate s da; sealedSlot s l.stack l.loc.chan
  | .scratch n _ => (coreAt s n).sealedBy
  | _ => none

/-- R84: a channel holding part of the sealed region. -/
def forcedMask (s : State) (k : Nat) : Nat :=
  ofBits ((List.range 32).map (fun c => (sealedSlot s k c).isSome))

/-! ### Stack readiness (R80) -/

/-- An address error: R23, R50 (offline group), R80 (FAILED stack). -/
def daError (s : State) (da : Nat) : Bool :=
  match daKind s da with
  | .dram => !groupOnline s (groupOf da) || decide ((stackAt s (locate s da).stack).st = .failed)
  | .scratch _ _ => false
  | .window _ => false
  | .reg _ => true
  | .reserved => true

/-- The units of 32 B that a range touches, each clipped to the range: (DA, length). -/
def unitsN : (fuel da len : Nat) → List (Nat × Nat)
  | 0, _, _ => []
  | f + 1, da, len =>
    if len = 0 then []
    else
      let n := min len (32 - da % 32)
      (da, n) :: unitsN f (da + n) (len - n)

def units32 (da len : Nat) : List (Nat × Nat) := unitsN (len / 32 + 2) da len

def rangeError (s : State) (da len : Nat) : Bool := (units32 da len).any (fun p => daError s (p.1 % 2 ^ 48))

/-! ### Physical rows -/

/-- The number of a physical row of the module. -/
def rowKey (k c layer bank row : Nat) : Nat := (((k * 32 + c) * 17 + layer) * 4 + bank) * 16384 + row

/-- A row stores 66 columns of 34 bytes: 32 data bytes and 2 bytes of column-code check bits. -/
def colAddr (key col : Nat) : Nat := (key * 66 + col) * 34

def colKey (key col : Nat) : Nat := key * 66 + col

/-- The copy of a working bank's rows that no copy under way has replaced: its layer, or the spare bank in its place
(R10, R115). -/
def homeAt (ch : Chan) (l : Loc) : Nat × Nat :=
  match ch.spares.find? (fun p => p.2 == l.layer * 4 + l.bank) with
  | some p => (16, p.1)
  | none => (l.layer, l.bank)

/-- Where a copy under way, or a finished layer migration, has put a row (R111, R112, R115). -/
def copiedAt (ch : Chan) (l : Loc) : Option (Nat × Nat) :=
  if ch.layerOut then (if ch.spLayer = l.layer then some (16, l.bank) else none)
  else if decide (ch.spSt = .migrating) && ch.spLayer == l.layer
      && (decide (l.row < ch.progress) || (l.row == ch.progress && ch.copied.contains l.bank)) then some (16, l.bank)
  else match ch.remapping with
    | some (sp, w) => if w = l.layer * 4 + l.bank ∧ l.row < ch.progress then some (16, sp) else none
    | none => none

/-- The physical layer and bank whose copy serves reads of a location (R111, R112, R115). -/
def servedAt (s : State) (k : Nat) (l : Loc) : Nat × Nat :=
  (copiedAt (chanAt s k l.chan) l).getD (homeAt (chanAt s k l.chan) l)

/-- The second copy that a write or a repair reaches while a copy is under way (R111). -/
def secondAt (s : State) (k : Nat) (l : Loc) : Option (Nat × Nat) :=
  let ch := chanAt s k l.chan
  if (copiedAt ch l).isSome && !ch.layerOut then some (homeAt ch l) else none

def servedKey (s : State) (k : Nat) (l : Loc) : Nat :=
  let p := servedAt s k l
  rowKey k l.chan p.1 p.2 l.row

def writeKeys (s : State) (k : Nat) (l : Loc) : List Nat :=
  servedKey s k l :: (match secondAt s k l with
    | some p => [rowKey k l.chan p.1 p.2 l.row]
    | none => [])

/-- The physical bank (0–67) whose quern serves working bank w (R10, R111, R112, R115). -/
def quernBank (s : State) (k c w : Nat) : Nat :=
  let ch := chanAt s k c
  if ch.layerOut && ch.spLayer == w / 4 then 64 + w % 4
  else match ch.spares.find? (fun p => p.2 == w) with
    | some p => 64 + p.1
    | none => w

/-- The row a stream on working bank w reads (R111: the old layer until the switchover). -/
def quernRowKey (s : State) (k c w row : Nat) : Nat :=
  let b := quernBank s k c w
  rowKey k c (b / 4) (b % 4) row

/-- The physical bank (0–67) that serves a location (R111). -/
def physBank (s : State) (k : Nat) (l : Loc) : Nat := let p := servedAt s k l; p.1 * 4 + p.2

/-! ### Waiting (R62, R80) -/

/-- R62: a stream holds physical bank b. -/
def bankStreams (s : State) (k c b : Nat) : Bool := (chanAt s k c).streaming.any (fun w => quernBank s k c w == b)

/-- R62: a stream holds the bank in which a location lies. -/
def locStreams (s : State) (k : Nat) (l : Loc) : Bool := bankStreams s k l.chan (physBank s k l)

/-- R62, R168: the bank is released at a row boundary of its stream, until the stream's next column (log 85). -/
def gateOpen (s : State) (k : Nat) (l : Loc) : Bool := (tget {} (stackAt s k).banks (l.chan * 68 + physBank s k l)).gate

/-- R340, R341: a module access to a window line needs an exchange with the host. -/
def lineSnoops (s : State) (line : Nat) (w : Bool) : Bool :=
  let st := tget .i s.link.window line
  match s.link.mode with
  | .pcie => false
  | .cxl2 => true
  | .cxl3 => decide (st = .em) || (w && decide (st ≠ .i))

/-- A request waits for its stack (R80), for the stream that holds its bank (R62), or, of the window, for the link that
brings its snoop (R340, R357); `w`: a write. `own` names the channel sequencer that makes it, whose own entry's streams give
way (R63). -/
def daWaitsFor (s : State) (own : Option (Nat × Nat)) (da : Nat) (w : Bool := false) : Bool :=
  match daKind s da with
  | .dram =>
    let l := locate s da
    !daError s da && (decide ((stackAt s l.stack).st ≠ .ready)
      || (locStreams s l.stack l.loc && !gateOpen s l.stack l.loc && own != some (l.stack, l.loc.chan)))
  | .window off => !linkCarries s && lineSnoops s (off / 64) w
  | _ => false

def daWaits (s : State) (da : Nat) (w : Bool := false) : Bool := daWaitsFor s none da w

def rangeWaitsFor (s : State) (own : Option (Nat × Nat)) (da len : Nat) (w : Bool := false) : Bool :=
  (units32 da len).any (fun p => daWaitsFor s own (p.1 % 2 ^ 48) w)

def rangeWaits (s : State) (da len : Nat) (w : Bool := false) : Bool := rangeWaitsFor s none da len w

/-- R340, R357: the part of a range in the exchange window waits for a snoop that the link cannot carry. -/
def windowWaits (s : State) (da len : Nat) (w : Bool := false) : Bool :=
  (units32 da len).any (fun p => match daKind s (p.1 % 2 ^ 48) with
    | .window _ => daWaits s (p.1 % 2 ^ 48) w
    | _ => false)

end Sys2Proof.Machine
end

