-- ==== Sys2Proof/Machine/Far.lean ====
section
/-! DEFINITION. Rows of a stack under the two codes (R90–R103), far-path reads and writes, repair, sparing decisions
(R107–R118) and the loss of a stack (R119). A row is held as it was written (`State.dram`), with the bits that differ
from it (`State.dramErr`, check columns and check bits included) and its poisoned columns (`State.poison`); log 10. -/

namespace Sys2Proof.Machine

open Sys2Proof

/-! ### Ending entries (R173) -/

def jobAt (s : State) (id : Nat) : Option Job := s.jobs.find? (fun j => j.id == id)

def modJob (s : State) (id : Nat) (f : Job → Job) : State :=
  { s with jobs := s.jobs.map (fun j => if j.id = id then f j else j) }

def jobTag (s : State) (id : Nat) : W32 := match jobAt s id with | some j => j.jobtag | none => 0

/-- The job tag of the entry that a channel runs (R14). -/
def chanTag (s : State) (k c : Nat) : W32 := match (chanAt s k c).job with | some id => jobTag s id | none => 0

/-- R146: the OR of the flags over the job's querns. -/
def jobFlag (s : State) (id : Option Nat) (bit : Nat) : State :=
  match id with
  | some id => modJob s id (fun j => { j with flags := setFld j.flags bit bit 1 })
  | none => s

/-- A channel's part of a job is done with an ST_ code (R519). -/
def jobOutcome (s : State) (id : Option Nat) (c code : Nat) : State :=
  match id with
  | some id => modJob s id (fun j => { j with outcomes := j.outcomes ++ [(c, code)] })
  | none => s

/-- What a quern keeps when its operation is ended. -/
def freshQuern (q : Quern) : Quern := if q.st = .isolated then { st := .isolated } else {}

/-- R150: a stream that overflowed, or that set EMPTY, counts once, however it ends. -/
def noteStreamFlags (s : State) (k : Nat) (q : Quern) : State :=
  countIf (countIf s (bitOf q.flags 1) (oQrn k qOvf)) (bitOf q.flags 2) (oQrn k qEmpty)

/-- The querns of working banks `bs` lose their operation (R87, R158). -/
def resetQuerns (s : State) (k c : Nat) (bs : List Nat) : State :=
  bs.foldl (fun s w =>
    let b := quernBank s k c w
    modQuern (noteStreamFlags s k (quernAt s k c b)) k c b freshQuern) s

/-- The channel's sequencer is idle again: what an entry holds is gone, sparing and prefetched tiles of other jobs stay. -/
def idleChan (ch : Chan) : Chan :=
  { ch with seq := .idle, job := none, cmd := 0, waiting := false, casting := false, sent := 0, entryBanks := [], phaseBanks := []
            syncMask := 0, admission := [], streaming := [], trees := [], tailErr := false, castErr := false, short := false
            mill := none
            slots := ch.slots.filter (fun sl => some sl.job != ch.job) }

/-- R173: the entry running on a channel ends at once; its job's part is aborted. -/
def abortChan (s : State) (k c : Nat) : State :=
  let ch := chanAt s k c
  if ch.seq = .idle then s
  else
    let s := resetQuerns s k c ch.entryBanks
    modChan (jobOutcome s ch.job c 9) k c idleChan

def abortStack (s : State) (k : Nat) : State := (List.range 32).foldl (fun s c => abortChan s k c) s

/-- A change of the slot, or of the millrace input queue, that waits for a tile. -/
def modSlot (s : State) (mill : Bool) (d : TileId) (f : Slot → Slot) : State :=
  let g : Slot → Slot := fun sl => if sl.job = d.job ∧ sl.cmd = d.cmd then f sl else sl
  modChan s d.stack d.chan (fun ch => if mill then { ch with mill := ch.mill.map g } else { ch with slots := ch.slots.map g })

/-- R324, R161: a part of a tile arrives where it is waited for; `none`: it cannot be read (R325). -/
def gotPart (off : Nat) (x : Option (List Byte × List Bool)) (sl : Slot) : Slot :=
  match x with
  | some p => { sl with parts := tins off p sl.parts, left := sl.left - 1 }
  | none => { sl with left := sl.left - 1, addrErr := true }

def tileGot (s : State) (x : Option (List Byte × List Bool)) : SeqReq → State
  | .tile off dests => dests.foldl (fun s d => modSlot s false d (gotPart off x)) s
  | .mill off d => modSlot s true d (gotPart off x)
  | .unit _ _ _ => s
  | .quiet => s
  | .access _ _ => s

/-- R80: a waiting request of a FAILED stack receives an address error: its source is told; a channel sequencer's tile
holds the outcome (R325), and its tailrace unit is lost (R520). -/
def failReq (s : State) (r : FarReq) : State :=
  match r.seq with
  | none => emit s (.addrError r.src)
  | some (.unit job k c) =>
    if (chanAt s k c).job = some job then modChan s k c (fun ch => { ch with tailErr := true })
    else jobOutcome s (some job) c 0xC
  | some q => tileGot s none q

/-- R119, R77, R79: the stack enters FAILED; running entries end and waiting requests receive address errors (R80). -/
def failStack (s : State) (k cause : Nat) : State :=
  if (stackAt s k).st = .failed then s
  else
    let s := abortStack s k
    let s := (stackAt s k).reqs.foldl failReq s
    let s := modStack s k (fun st => { st with st := .failed, reqs := [], entering := false, forStandby := false })
    event s 4 3 7 cause (stackUnit k)

/-! ### Sparing decisions (R107–R119) -/

def chanUnit (k c : Nat) : Nat := k * 32 + c

/-- R116, R118: no spare resource is left for the failure of `bank`; R119: eight such channels lose the stack. -/
def degradeChan (s : State) (k c bank : Nat) : State :=
  if (chanAt s k c).spSt = .degraded then s
  else
    let s := modChan s k c (fun ch => { ch with spSt := .degraded })
    let s := event s 2 3 5 0 (chanUnit k c) bank
    if ((List.range 32).filter (fun c => decide ((chanAt s k c).spSt = .degraded))).length ≥ 8 then failStack s k 3 else s

/-- R117: a sparing record is written when a replacement is declared or completes. -/
def recordSpare (s : State) (r : SpareRec) : State :=
  let keep := s.flash.sparing.filter (fun x => !(x.stack == r.stack && x.chan == r.chan && x.isLayer == r.isLayer
    && x.unit == r.unit))
  { s with flash := { s.flash with sparing := keep ++ [r] } }

/-- R110: a migration of a layer starts. -/
def startMigration (s : State) (k c layer : Nat) : State :=
  let s := modChan s k c (fun ch => { ch with spSt := .migrating, spLayer := layer, progress := 0, noGap := false })
  let s := event s 2 3 3 0 (chanUnit k c) layer
  recordSpare s { stack := k, chan := c, isLayer := true, unit := layer, spare := 16, complete := false }

/-- R115: a remap of working bank w to a free spare bank starts. The event's bytes are the failed bank and the spare bank,
as 64 to 67 (log 73). -/
def startRemap (s : State) (k c w sp : Nat) : State :=
  let s := modChan s k c (fun ch => { ch with spSt := .remapping, remapping := some (sp, w), progress := 0 })
  let s := event s 2 3 4 0 (chanUnit k c) (w + put (64 + sp) 8)
  recordSpare s { stack := k, chan := c, isLayer := false, unit := w, spare := sp, complete := false }

/-- R38: control core 2 does not run, and an error waits for it. -/
def cc2Down (s : State) : Bool := (ctlAt s 2).st != 0

def holdErr (s : State) (e : HeldErr) : State :=
  { s with ctlHeld := if s.ctlHeld.contains e then s.ctlHeld else s.ctlHeld ++ [e] }

/-- R118: what a failing layer does to its channel; `auto` is R108's condition or a request. The spare layer itself, when
it serves no layer, is none of the layers that R118 replaces. -/
def layerFailing (s : State) (k c layer : Nat) (auto : Bool) : State :=
  let ch := chanAt s k c
  if 16 ≤ layer then s
  else if cc2Down s then holdErr s (.layer k c layer auto)
  else match ch.spSt with
  | .clean => if auto then startMigration s k c layer else s
  | .migrating =>
    if ch.spLayer = layer then s
    else modChan s k c (fun ch => { ch with failed := ch.failed ++ [(true, layer)] })
  | .remapping => modChan s k c (fun ch => { ch with failed := ch.failed ++ [(true, layer)] })
  | .layerSpared => degradeChan s k c (layer * 4)
  | .remapped => degradeChan s k c (layer * 4)
  | .degraded => s

/-- R112, R88: the spare layer now carries the failing layer. -/
def migrationDone (s : State) (k c : Nat) : State :=
  let ch := chanAt s k c
  let s := modChan s k c (fun ch => { ch with
    spSt := .layerSpared, layerOut := true, progress := 0, noGap := false, copying := false, copied := [], failed := [] })
  recordSpare s { stack := k, chan := c, isLayer := true, unit := ch.spLayer, spare := 16, complete := true }

/-- R118: a failure that was recorded while the migration ran leads to DEGRADED. -/
def migrationFailure (s : State) (k c : Nat) (failed : List (Bool × Nat)) : State :=
  match failed with
  | [] => s
  | (true, l) :: _ => degradeChan s k c (l * 4)
  | (false, w) :: _ => degradeChan s k c w

/-! ### The stored row -/

/-- What the column code says of a stored column (R93): its class, and the data bytes that still differ from what was
written after the column code's correction. -/
structure ColState where
  cls : ColCls
  left : List Byte
  deriving DecidableEq, Repr

/-- R93: the syndrome of a stored column, which depends on its flipped bits and its poison alone. -/
def storedSyndrome (s : State) (key col : Nat) : Nat :=
  hTimes (leNat (mread s.dramErr (colAddr key col) 32))
    ^^^ leNat (mread s.dramErr (colAddr key col + 32) 2)
    ^^^ (if s.poison.contains (colKey key col) then 0xFFFF else 0)

def colState (s : State) (key col : Nat) : ColState :=
  let cls := classify (storedSyndrome s key col)
  let err := mread s.dramErr (colAddr key col) 32
  { cls := cls
    left := match cls with
      | .dataBit i => leBytes 32 (leNat err ^^^ 2 ^ i)
      | _ => err }

/-- The columns of a row that hold any flipped bit. -/
def errCols (s : State) (key : Nat) : List Nat :=
  ((s.dramErr.filter (fun p => colAddr key 0 ≤ p.1 ∧ p.1 < colAddr key 66)).map (fun p => (p.1 - colAddr key 0) / 34)).eraseDups

/-- R94: the codeword that byte b of a column belongs to. -/
def laneOf (col b : Nat) : Nat :=
  if col < 64 then b % 8 else if col = 64 then b / 8 else 4 + b / 8

/-- R95: twice the errors plus the erasures of codeword j in one column. -/
def laneLoad (col : Nat) (cs : ColState) (j : Nat) : Nat :=
  let here := (cs.left.zipIdx).filter (fun p => laneOf col p.2 == j)
  if cs.cls = .bad then here.length else 2 * (here.filter (fun p => p.1 != 0)).length

/-- The outcome of decoding a row (R95). -/
structure RowDec where
  cols : List (Nat × ColState)
  /-- Codewords beyond reach. -/
  lost : List Nat
  /-- Bytes that the row code corrected. -/
  fixed : Nat
  deriving DecidableEq, Repr

def RowDec.beyond (d : RowDec) : Bool := !d.lost.isEmpty

/-- The row code restores a column that the column code could not (R96, R124), be it with unchanged bytes. -/
def RowDec.needed (d : RowDec) : Bool := d.fixed != 0 || d.cols.any (fun p => decide (p.2.cls = .bad))

def decodeRow (s : State) (key : Nat) : RowDec :=
  let cols := (errCols s key).map (fun c => (c, colState s key c))
  let lost := (List.range 8).filter (fun j => decide (8 < (cols.map (fun p => laneLoad p.1 p.2 j)).sum))
  { cols := cols, lost := lost
    fixed := (cols.map (fun p =>
      ((p.2.left.zipIdx).filter (fun b => b.1 != 0 && !lost.contains (laneOf p.1 b.2))).length)).sum }

/-- The bytes of a column that still differ after the row decode. -/
def leftAfter (d : RowDec) (col : Nat) (cs : ColState) : List Byte :=
  (cs.left.zipIdx).map (fun p => if d.lost.contains (laneOf col p.2) then p.1 else 0)

def xorBytes (a b : List Byte) : List Byte := List.zipWith (· ^^^ ·) a b

def writtenBytes (s : State) (key col : Nat) : List Byte := mread s.dram (colAddr key col) 32

/-- A column as a reader receives it, with its poison flag (R93, R95, R100); a poisoned column's bytes are those that the
row's decode leaves (log 82). -/
def readCol (s : State) (key col : Nat) (dec : Option RowDec) : List Byte × Bool :=
  let cs := colState s key col
  let left := match dec with
    | some d => leftAfter d col cs
    | none => cs.left
  let lostCol := decide (cs.cls = .bad) && (match dec with | some d => d.beyond | none => true)
  (xorBytes (writtenBytes s key col) left, decide (cs.cls = .poisoned) || lostCol)

def zeroRange (m : Memory) (a n : Nat) : Memory := m.filter (fun p => !(decide (a ≤ p.1) && decide (p.1 < a + n)))

def setPoison (s : State) (k : Nat) (b : Bool) : State :=
  if b then { s with poison := if s.poison.contains k then s.poison else s.poison ++ [k] }
  else { s with poison := s.poison.filter (fun x => x != k) }

/-- Stores a column with fresh codes (R91, R97). -/
def storeCol (s : State) (key col : Nat) (bytes : List Byte) (poison : Bool) : State :=
  let s := { s with
    dram := if col < 64 then mwrite s.dram (colAddr key col) bytes else s.dram
    dramErr := zeroRange s.dramErr (colAddr key col) 34 }
  setPoison s (colKey key col) poison

/-- Rows cleared to zeros with valid codes (R79, R87). -/
def clearKeys (s : State) (lo n : Nat) : State :=
  { s with
    dram := zeroRange s.dram (colAddr lo 0) (n * 66 * 34)
    dramErr := zeroRange s.dramErr (colAddr lo 0) (n * 66 * 34)
    poison := s.poison.filter (fun x => !(decide (lo * 66 ≤ x) && decide (x < (lo + n) * 66))) }

/-- Every row of a channel, its spare layer included. -/
def clearChan (s : State) (k c : Nat) : State := clearKeys s (rowKey k c 0 0 0) (17 * 4 * 16384)

/-! ### What a read reports (R96, R103, R108, R124, R125) -/

/-- R125: the first uncorrectable column or lost row; and its event (R497). -/
def noteUe (s : State) (k c layer bank row col kind : Nat) : State :=
  let where' := if kind = 4 then 3 else if col = 64 then 1 else if col = 65 then 2 else 0
  let w0 := row + put (if where' = 0 then col else 0) 14 + put bank 20 + put layer 22 + put c 27
  let w1 := 1 + put kind 1 + put where' 4
  let s := if regBit s (oStk k (kUeLoc + 4)) 0 then s
    else regSet (regSet s (oStk k kUeLoc) (w32 w0)) (oStk k (kUeLoc + 4)) (w32 w1)
  event s 3 3 1 kind (chanUnit k c) (w0 + put w1 32)

/-- R103: a repair request for a row. -/
def requestRepair (s : State) (k : Nat) (l : Loc) : State :=
  let st := stackAt s k
  if st.repairs.contains l then s
  else if st.repairs.length ≥ 64 then count s (oStk k kRepairDrop)
  else modStack s k (fun st => { st with repairs := st.repairs ++ [l] })

/-- R108: one more corrected column of a physical layer. -/
def noteCe (s : State) (k c phys layer : Nat) : State :=
  let key := c * 17 + phys
  let n := tget 0 (stackAt s k).layerCe key + 1
  let s := modStack s k (fun st => { st with layerCe := tset 0 key n st.layerCe })
  let th := regFld s (oStk k kSpareCtl) 23 8
  if th ≠ 0 ∧ n > th then layerFailing s k c layer (regBit s (oStk k kSpareCtl) 24) else s

/-- R96, R108: what a row decode counts. -/
def noteDecode (s : State) (k : Nat) (l : Loc) (phys : Nat × Nat) (d : RowDec) : State :=
  let s := if d.beyond then
      noteUe (count s (oStk k kRowUe)) k l.chan phys.1 phys.2 l.row 0 4
    else if d.needed then count s (oStk k kRowFix) else s
  if d.beyond ∨ d.fixed > 16 then layerFailing s k l.chan l.layer (regBit s (oStk k kSpareCtl) 24) else s

/-- What one column read counts: kind 0 far path, 1 scrub, 3 copy (R124, R125). -/
def noteCol (s : State) (k : Nat) (l : Loc) (phys : Nat × Nat) (kind col : Nat) (cls : ColCls) (flagged : Bool) : State :=
  let s := match cls with
    | .dataBit _ => noteCe (count s (oStk k kCe)) k l.chan phys.1 l.layer
    | .checkBit => noteCe (count s (oStk k kCe)) k l.chan phys.1 l.layer
    | .bad => noteUe (count s (oStk k kUe)) k l.chan phys.1 phys.2 l.row col kind
    | _ => s
  countIf s (flagged && kind == 0) (oStk k kPoison)

/-- R124: what a far-path read has counted of a row that now waits for its repair. -/
def noteSeen (s : State) (k : Nat) (l : Loc) (d : RowDec) : State :=
  modStack s k (fun st => { st with
    seen := if st.repairs.contains l then (l, d.beyond, d.fixed) :: st.seen.filter (fun x => x.1 != l) else st.seen })

/-- R93, R96: the columns that a far-path access reads, counted, with the row's decode when one of them is not clean or
`whole` asks for it; a row with a column that is not clean is to be repaired (R102). -/
def checkCols (s : State) (k : Nat) (l : Loc) (cols : List Nat) (whole deliver : Bool) : Option RowDec × State :=
  let phys := servedAt s k l
  let key := servedKey s k l
  let states := cols.map (fun c => (c, (colState s key c).cls))
  let dirty := states.any (fun p => decide (p.2 ≠ .clean))
  let dec := if dirty || whole then some (decodeRow s key) else none
  let s' := states.foldl (fun st p =>
    noteCol st k l phys 0 p.1 p.2 (deliver && decide (p.1 < 64) && (readCol s key p.1 dec).2)) s
  match dec with
  | none => (none, s')
  | some d =>
    let s' := noteDecode s' k l phys d
    (some d, if dirty then noteSeen (requestRepair s' k l) k l d else s')

/-- R96: a far-path read of columns `cols` of one row: the bytes with a poison flag per column. A read of the whole row
reads its check columns too. -/
def farReadCols (s : State) (k : Nat) (l : Loc) (cols : List Nat) : List (List Byte × Bool) × State :=
  let whole := decide (cols.length = 64)
  let r := checkCols s k l (if whole then cols ++ [64, 65] else cols) whole true
  (cols.map (fun c => readCol s (servedKey s k l) c r.1), r.2)

/-! ### Writes (R97, R98, R120) -/

/-- R120: the armed flip alters the stored bits of the lowest column that the write covers. The write is judged when it is
performed, with STK_FLIP_MASK as it then stands (log 73). -/
def flipApply (s : State) (k : Nat) (l : Loc) (col port : Nat) : State :=
  let ctl := regGet s (oStk k kFlipCtl)
  if bitOf ctl 0 && decide (port ≤ 2) && (bitOf ctl 9 || fld ctl 8 4 == l.chan)
      && (sealedSlot s k l.chan).isNone then
    let key := servedKey s k l
    let mask := (List.range 8).foldl (fun a w => a + put (regGet s (oStk k (kFlipMask w))).toNat (32 * w)) 0
    let tgt := fld ctl 2 1
    let (addr, bytes) :=
      if tgt = 1 then (colAddr key col + 32, leBytes 2 mask)
      else (colAddr key (if tgt = 0 then col else if tgt = 2 then 64 else 65), leBytes 32 mask)
    let s := { s with dramErr := mwrite s.dramErr addr (xorBytes (mread s.dramErr addr bytes.length) bytes) }
    regSet s (oStk k kFlipCtl) (setFld (setFld ctl 0 0 0) 16 16 1)
  else s

/-- Bytes `new` over `old` at offset `off`. -/
def overlay (old : List Byte) (off : Nat) (new : List Byte) : List Byte :=
  old.take off ++ new ++ old.drop (off + new.length)

/-- One column stored alike in every copy. -/
def storeCopies (s : State) (keys : List Nat) (col : Nat) (x : List Byte × Bool) : State :=
  keys.foldl (fun s key => storeCol s key col x.1 x.2) s

/-- Columns of a write: (column, offset in it, bytes). -/
def splitColsN : (fuel off : Nat) → List Byte → List (Nat × Nat × List Byte)
  | 0, _, _ => []
  | f + 1, off, bs =>
    if bs.isEmpty then []
    else
      let n := 32 - off % 32
      (off / 32, off % 32, bs.take n) :: splitColsN f (off + (bs.take n).length) (bs.drop n)

def splitCols (off : Nat) (bs : List Byte) : List (Nat × Nat × List Byte) := splitColsN (bs.length / 32 + 2) off bs

/-- R97: the columns of a row that a write keeps in part: data columns it covers in part, and both check columns. -/
def keptCols (cs : List (Nat × Nat × List Byte)) : List Nat :=
  (cs.filter (fun c => decide (c.2.2.length < 32))).map (·.1) ++ [64, 65]

/-- R97: what the read of the read-modify-write makes the stack controller store beside the written columns: a check column
that is not clean, corrected; and every failed column of a row beyond the row code, as a repair stores it. -/
def storeKept (s : State) (keys : List Nat) (key : Nat) (cs : List (Nat × Nat × List Byte)) (d : RowDec) : State :=
  let bad := (keptCols cs).filter (fun c => decide ((colState s key c).cls ≠ .clean) || (decide (64 ≤ c) && cs.length == 64))
  let lost := if d.beyond && !bad.isEmpty then (d.cols.filter (fun p => decide (p.2.cls = .bad))).map (·.1) else []
  ((bad.filter (64 ≤ ·)) ++ lost).eraseDups.foldl (fun st c => storeCopies st keys c (readCol s key c (some d))) s

/-- R97, R98: one column written into every copy: a part of it over the column as the check of the read leaves it. -/
def writeCol (s0 s : State) (keys : List Nat) (key : Nat) (dec : Option RowDec) (c : Nat × Nat × List Byte)
    (poison : Bool) : State :=
  if c.2.2.length = 32 then storeCopies s keys c.1 (c.2.2, poison)
  else
    let r := readCol s0 key c.1 (dec.filter (fun d => !d.beyond))
    storeCopies s keys c.1 (overlay r.1 c.2.1 c.2.2, r.2 || poison)

/-- R97: a write of one row piece from a port; `poison` holds a flag per column written. -/
def farWritePiece (s : State) (k : Nat) (l : Loc) (off : Nat) (bs : List Byte) (poison : List Bool) (port : Nat) : State :=
  let cs := splitCols off bs
  let key := servedKey s k l
  let keys := writeKeys s k l
  let r := checkCols s k l (cs.map (·.1) ++ [64, 65]) (decide (off = 0) && bs.length == 2048) false
  let s' := match r.1 with
    | some d => storeKept r.2 keys key cs d
    | none => r.2
  let s' := (cs.zipIdx).foldl (fun st p => writeCol s st keys key r.1 p.1 (poison.getD p.2 false)) s'
  match cs with
  | c :: _ => flipApply s' k l c.1 port
  | [] => s'

/-- R96: a read of one row piece: its bytes, with a flag per column touched. -/
def farReadPiece (s : State) (k : Nat) (l : Loc) (off len : Nat) : List Byte × List Bool × State :=
  let c0 := off / 32
  let c1 := (off + len + 31) / 32
  let r := farReadCols s k l ((List.range (c1 - c0)).map (· + c0))
  (((r.1.flatMap (·.1)).drop (off - c0 * 32)).take len, r.1.map (·.2), r.2)

/-! ### Repair and scrubbing (R102, R104, R110) -/

/-- The row holds any error that a row decode finds. -/
def rowDirty (s : State) (key : Nat) : Bool := !(errCols s key).isEmpty

/-- The columns in which any of the rows `keys` holds a flipped bit. -/
def dirtyCols (s : State) (keys : List Nat) : List Nat := (keys.flatMap (errCols s)).eraseDups

/-- R102, R111: every column that differs in a copy is written with what the decode of row `key` gives. -/
def rewriteRow (s : State) (key : Nat) (keys : List Nat) (d : RowDec) : State :=
  (dirtyCols s keys).foldl (fun st c => storeCopies st keys c (readCol s key c (some d))) s

/-- R109: the times of the columns that a quern reported uncorrectable and that the row's decode finds clean. A time that
is 1 s old is forgotten once no report of the quern waits. -/
def noteFoundClean (s : State) (k : Nat) (l : Loc) (times : List W64) : State :=
  let q := l.chan * 64 + l.layer * 4 + l.bank
  modStack s k (fun st =>
    let waits := st.asked.any (fun a => a.1.chan == l.chan && a.1.layer == l.layer && a.1.bank == l.bank)
    let all := times ++ tget [] st.quernUe q
    { st with quernUe := tset [] q (if waits then all else all.filter (fun t => decide ((s.time - t).toNat < 1000000000)))
                          st.quernUe })

/-- R102, R111: a repair of a row, in every copy. Its decode is counted (R124) unless the read that found the row, `noted`
or in `seen`, has counted the same. -/
def repairRow (s : State) (k : Nat) (l : Loc) (noted : Bool) : State :=
  let key := servedKey s k l
  let d := decodeRow s key
  let st := stackAt s k
  let qkey := quernRowKey s k l.chan (l.layer * 4 + l.bank) l.row
  let times := (st.asked.filter (fun a => a.1 == l && decide ((colState s qkey a.2.1).cls = .clean))).map (·.2.2)
  let s' := rewriteRow s key (writeKeys s k l) d
  let s' := modStack s' k (fun st => { st with
    repairs := st.repairs.filter (fun x => x != l), asked := st.asked.filter (fun x => x.1 != l)
    seen := st.seen.filter (fun x => x.1 != l) })
  let s' := if noted || st.seen.contains (l, d.beyond, d.fixed) then s' else noteDecode s' k l (servedAt s k l) d
  if times.isEmpty then s' else noteFoundClean s' k l times

/-- The location whose data a physical row holds, when it holds any (R10, R111, R112, R115). -/
def ownerOfRow (s : State) (k : Nat) (x : Loc) : Option Loc :=
  ((List.range 64).map (fun w => { x with layer := w / 4, bank := w % 4 })).find? (fun l =>
    (writeKeys s k l).contains (rowKey k x.chan x.layer x.bank x.row))

/-- The logical number of a physical layer (R92, R112). -/
def layerNumber (ch : Chan) (p : Nat) : Nat := if ch.layerOut && p == 16 then ch.spLayer else p

/-- R104: a scrub read of a physical row counts its columns and repairs the row when it holds any error: as a repair does
where it holds data that is served, and by itself where it does not. -/
def scrubRow (s : State) (k : Nat) (x : Loc) : State :=
  let key := rowKey k x.chan x.layer x.bank x.row
  if rowDirty s key then
    let d := decodeRow s key
    let owner := ownerOfRow s k x
    let l := owner.getD { x with layer := layerNumber (chanAt s k x.chan) x.layer }
    let s' := d.cols.foldl (fun s p => noteCol s k l (x.layer, x.bank) 1 p.1 p.2.cls false) s
    let s' := noteDecode s' k l (x.layer, x.bank) d
    match owner with
    | some l => repairRow s' k l (key == servedKey s k l)
    | none => rewriteRow s' key [key] d
  else s

/-- R110: one row copied to a spare row with a row decode and fresh codes. -/
def copyRow (s : State) (k : Nat) (l : Loc) (phys dst : Nat × Nat) : State :=
  let src := rowKey k l.chan phys.1 phys.2 l.row
  let d := decodeRow s src
  let s0 := s
  let s := (List.range 66).foldl (fun st col =>
    let r := readCol s0 src col (some d)
    storeCol st (rowKey k l.chan dst.1 dst.2 l.row) col r.1 r.2) s
  let s := (d.cols.filter (fun p => decide (p.2.cls = .bad))).foldl
    (fun s p => noteUe s k l.chan phys.1 phys.2 l.row p.1 3) s
  if d.cols.isEmpty then s else noteDecode s k l phys d

end Sys2Proof.Machine
end

