-- ==== Sys2Proof/Machine/Access.lean ====
section
/-! DEFINITION. Reads and writes of a device address range by a module initiator: DRAM through the stack controller,
scratchpads with their poison bits (R188), the exchange window with its directory (R340, R341). The caller has
checked address errors, waiting stacks and the sealed region. -/

namespace Sys2Proof.Machine

open Sys2Proof

/-! ### The exchange window -/

/-- The host's newest data of a line that it holds in E/M, which only the host knows: free values (log 9). -/
def dirtyLine (s : State) (line : Nat) : State :=
  (List.range 8).foldl (fun (s : State) (i : Nat) =>
    let d := draw s
    { d.2 with window := mwrite d.2.window (64 * line + 8 * i) (leBytes 8 d.1.toNat) }) s

def setLine (s : State) (line : Nat) (x : LineSt) : State :=
  { s with link := { s.link with window := tset .i line x s.link.window } }

/-- R340, R341: before a module access to a window line the host's copy is snooped, or the line resolved over CXL.cache; in
E/M the host returns its data. After a read the host keeps at most S, after a write I. Its callers wait while the link
cannot carry the snoop (R336, R354, R357). -/
def windowSnoop (w : Bool) (s : State) (line : Nat) : State :=
  let st := tget .i s.link.window line
  if !lineSnoops s line w || !linkCarries s then s
  else
    let s := if s.link.mode = .cxl3 then emit (count s oBisnpCnt) (.biSnoop line w) else emit s (.cxlResolve line)
    let s := if st = .em then dirtyLine s line else s
    setLine s line (if w then .i else if st = .em then .s else st)

/-- The 64 B lines of a window range. -/
def linesOf (off len : Nat) : List Nat :=
  if len = 0 then [] else (List.range ((off + len - 1) / 64 + 1 - off / 64)).map (· + off / 64)

def windowRead (s : State) (off len : Nat) : List Byte × State :=
  let s := (linesOf off len).foldl (windowSnoop false) s
  (mread s.window off len, s)

def windowWrite (s : State) (off : Nat) (bs : List Byte) : State :=
  let s := (linesOf off bs.length).foldl (windowSnoop true) s
  { s with window := mwrite s.window off bs }

/-! ### Scratchpads -/

def scratchAddr (core off : Nat) : Nat := core * 0x80000 + off

/-- The poison bit of a 32 B line of a scratchpad (R188). -/
def linePoison (s : State) (core line : Nat) : Bool := s.scratchPoison.contains (core * 16384 + line)

def setLinePoison (s : State) (core line : Nat) (b : Bool) : State :=
  let k := core * 16384 + line
  if b then { s with scratchPoison := if s.scratchPoison.contains k then s.scratchPoison else s.scratchPoison ++ [k] }
  else { s with scratchPoison := s.scratchPoison.filter (fun x => x != k) }

def scratchRead (s : State) (core off len : Nat) : List Byte := mread s.scratch (scratchAddr core off) len

def scratchWrite (s : State) (core off : Nat) (bs : List Byte) : State :=
  { s with scratch := mwrite s.scratch (scratchAddr core off) bs }

/-- A core's scratchpad and its poison bits cleared. -/
def clearScratch (s : State) (core : Nat) : State :=
  { s with
    scratch := zeroRange s.scratch (scratchAddr core 0) scratchSize
    scratchPoison := s.scratchPoison.filter (fun x => x / 16384 != core) }

/-! ### Ranges -/

def readPiece (s : State) (da len : Nat) : List Byte × List Bool × State :=
  match daKind s da with
  | .dram =>
    let l := locate s da
    farReadPiece s l.stack l.loc l.off len
  | .scratch n off => (scratchRead s n off len, [linePoison s n (off / 32)], s)
  | .window off =>
    let r := windowRead s off len
    (r.1, [false], r.2)
  | _ => (zeros len, [false], s)

/-- Reads a range: its bytes, a poison flag per 32 B unit touched, and the state with what the reads count. -/
def daRead (s : State) (da len : Nat) : List Byte × List Bool × State :=
  (accessPieces s da len).foldl (fun a p =>
    let r := readPiece a.2.2 p.1 p.2
    (a.1 ++ r.1, a.2.1 ++ r.2.1, r.2.2)) ([], [], s)

/-- R14: a read for the work of a descriptor or an instruction. -/
def readAs (s : State) (jobtag : W32) (tag da len : Nat) : List Byte × List Bool × State :=
  let r := daRead { s with cause := (jobtag, tag) } da len
  (r.1, r.2.1, { r.2.2 with cause := s.cause })

def writePiece (s : State) (port : Nat → Nat) (da : Nat) (bs : List Byte) (poison : List Bool) : State :=
  match daKind s da with
  | .dram =>
    let l := locate s da
    farWritePiece s l.stack l.loc l.off bs poison (port l.stack)
  | .scratch n off =>
    let s := scratchWrite s n off bs
    let full := decide (off % 32 = 0 ∧ bs.length = 32)
    if poison.headD false then setLinePoison s n (off / 32) true
    else if full then setLinePoison s n (off / 32) false else s
  | .window off => windowWrite s off bs
  | _ => s

/-- Writes a range; `poison` has a flag per 32 B unit of the range, `port` the stack-controller port used (R55). -/
def daWrite (s : State) (port : Nat → Nat) (da : Nat) (bs : List Byte) (poison : List Bool) : State :=
  ((accessPieces s da bs.length).foldl (fun a p =>
    let s := a.1
    let off := a.2
    let u := (da % 32 + off) / 32
    (writePiece s port p.1 ((bs.drop off).take p.2) (poison.drop u), off + p.2)) (s, 0)).1

/-- R188, R99: any unit of a range flagged poisoned. -/
def anyPoison (l : List Bool) : Bool := l.any id

end Sys2Proof.Machine
end

