-- ==== Sys2Proof/Machine/Complete.lean ====
section
/-! DEFINITION. Completion records (R384, R386–R388), the ring's interrupt (R395) and the end of draining (R396). -/

namespace Sys2Proof.Machine

open Sys2Proof

/-- What a completion reports beside the ring fields (R384, R386). -/
structure Done where
  status : Nat := 0
  info0 : Nat := 0
  info1 : Nat := 0
  qflags : Nat := 0
  dflags : Nat := 0
  done : Nat := 0

def admAt (s : State) (did : Nat) : Option Adm := s.admitted.find? (fun a => a.did == did)

def ringSize (s : State) (n lo : Nat) : Nat := 2 ^ regFld s (oRing n rCfg) (lo + 4) lo
def sqSize (s : State) (n : Nat) : Nat := ringSize s n 0
def cqSize (s : State) (n : Nat) : Nat := ringSize s n 8

/-- R395: ring n raises its vector; the interrupt covers every record written before it. -/
def ringInterrupt (s : State) (n : Nat) : State :=
  msixRaise (modRing s n (fun r => { r with uncovered := 0 })) (regFld s (oRing n rIrq) 10 0)

/-- R395: the trigger moments at the writing of a record. -/
def ringTrigger (s : State) (n : Nat) (cirq : Bool) (status : Nat) : State :=
  let irq := regGet s (oRing n rIrq)
  if bitOf irq 11 && (cirq || decide (fld irq 23 16 ≤ (ringAt s n).uncovered) || (bitOf irq 12 && status != 0)) then
    ringInterrupt s n
  else s

/-- R396: a draining ring is DISABLED once its last admitted descriptor has its record. -/
def settleRing (s : State) (n : Nat) : State :=
  if (ringAt s n).st = .draining ∧ !s.admitted.any (fun a => a.ring == n) then modRing s n (fun r => { r with st := .disabled })
  else s

/-- R331: the record is written after the descriptor's DEADLINE. -/
def isLateRec (s : State) (a : Adm) : Bool := a.deadline != 0 && decide (a.deadline.toNat < s.time.toNat)

/-- The four words of a record (R386). -/
def recordBytes (s : State) (a : Adm) (r : Ring) (x : Done) : List Byte :=
  leBytes 8 (a.jobtag.toNat + put a.slot 32 + put x.status 48 + put (b2n r.cqPhase) 56 + put (b2n a.posted) 57
      + put (b2n (isLateRec s a)) 58)
    ++ leBytes 8 (x.qflags + put x.dflags 8 + put x.done 16 + put x.info0 32)
    ++ leBytes 8 s.time.toNat
    ++ leBytes 8 x.info1

def cqBase (s : State) (n : Nat) : Nat := (regGet s (oRing n rCqLo)).toNat + put (regGet s (oRing n rCqHi)).toNat 32

/-- R347: Relaxed Ordering is set on a write that may have it, unless LNK_CTL.STRICT is 1. -/
def relaxedWrite (s : State) (may : Bool) : Bool := may && !regBit s oLnkCtl 2

/-- R386, R365, R347: the record goes into the ring's next place. -/
def writeRecord (s : State) (a : Adm) (x : Done) : State :=
  let n := a.ring
  let r := ringAt s n
  let late := isLateRec s a
  let s := hostWriteOut s (cqBase s n + 32 * r.cqTail) (recordBytes s a r x) (relaxedWrite s (!a.fen && a.cls != 6))
  let next := (r.cqTail + 1) % cqSize s n
  let s := setRing s n { r with
    cqTail := next, cqPhase := if next = 0 then !r.cqPhase else r.cqPhase
    uncovered := r.uncovered + 1, oldest := if r.uncovered = 0 then s.time else r.oldest }
  let s := trace s 5 n a.jobtag (data := a.head.toNat)
  let s := countIf s late oLateCnt
  ringTrigger s n a.cirq x.status

/-- The descriptor has ended: at most one record, none for an ST_OK with SUPP (R387, R388). -/
def complete (s : State) (did : Nat) (x : Done) : State :=
  match admAt s did with
  | none => s
  | some a =>
    let s := { s with admitted := s.admitted.filter (fun b => b.did != did) }
    let s := if a.supp && x.status == 0 then s else writeRecord s a x
    settleRing s a.ring

/-- R387: places taken: admitted descriptors without a record, and records the host has not consumed. -/
def ringTaken (s : State) (n : Nat) : Nat :=
  (s.admitted.filter (fun a => a.ring == n)).length
    + ((ringAt s n).cqTail + cqSize s n - (ringAt s n).hostHead) % cqSize s n

/-- R41, R49, R493: the module accepts descriptors: it has become READY, a first COMMIT has taken effect, and no control core
has failed. -/
def frontUp (s : State) : Bool :=
  s.phase == 5 && regGet s oCfgEpoch != 0 && (List.range 4).all (fun n => (ctlAt s n).st != 2)

def ringAdmits (s : State) (n : Nat) : Bool := decide (ringTaken s n < cqSize s n - 1)

end Sys2Proof.Machine
end

