-- ==== Sys2Proof/Machine/Operands.lean ====
section
/-! DEFINITION. The operands of a core instruction: queue entries (R186–R191), the header and payload fields (R194,
R203–R208), parameters and queues of a core. -/

namespace Sys2Proof.Machine

open Sys2Proof

/-! ### Entries (R186) -/

def eKind (e : W64) : Nat := fld e 63 62
def eOff (e : W64) : Nat := fld e 18 0
def eLen (e : W64) : Nat := fld e 38 19
def eFmt (e : W64) : Nat := fld e 42 39
def ePoison (e : W64) : Bool := bitOf e 43
def eVal (e : W64) : W32 := w32 (fld e 31 0)

/-- A handle's fields (R186); OFFSET 524,288 of an empty region is stored as 0 (log 84). -/
def mkHandle (off len fmt : Nat) (poison : Bool) (tag : Nat) : W64 :=
  w64 (off % 2 ^ 19 + put (len % 2 ^ 20) 19 + put (fmt % 16) 39 + put (b2n poison) 43 + put (tag % 4096) 48)

def mkValue (v : W32) (poison : Bool) (tag : Nat) : W64 :=
  w64 (v.toNat + put (b2n poison) 43 + put (tag % 4096) 48 + put 1 62)

/-- R186: an entry copied by an instruction carries that instruction's tag. -/
def retag (e : W64) (tag : Nat) : W64 := setFld e 59 48 tag

/-- R191: what is wrong with a region, as CAUSEs of R221 in ascending order. -/
def regionFaults (off len : Nat) : List Nat :=
  (if off % 32 ≠ 0 ∨ len % 32 ≠ 0 then [4] else []) ++ (if 524288 < off + len then [5] else [])

/-- R186, R187, R191: what is wrong with an entry that an instruction uses as a handle. -/
def handleFaults (e : W64) : List Nat :=
  if eKind e ≠ 0 then [6] else regionFaults (eOff e) (eLen e) ++ (if 14 ≤ eFmt e then [6] else [])

/-- R186: an entry of a reserved KIND. -/
def kindFaults (e : W64) : List Nat := if 2 ≤ eKind e then [6] else []

/-! ### Instruction fields -/

def iClass (w : W128) : Nat := fld w 3 0
def iOp (w : W128) : Nat := fld w 11 4
def iTag (w : W128) : Nat := fld w 23 12
def iSrc (w : W128) (i : Nat) : Nat := fld w (27 + 4 * i) (24 + 4 * i)
def iDst (w : W128) (i : Nat) : Nat := fld w (39 + 4 * i) (36 + 4 * i)
def iUseSrc (w : W128) (i : Nat) : Bool := bitOf w (44 + i)
def iUseDst (w : W128) (i : Nat) : Bool := bitOf w (47 + i)
def iKeep (w : W128) (i : Nat) : Bool := bitOf w (49 + i)
def iPf (w : W128) : Nat := fld w 54 52
def iPen (w : W128) : Bool := bitOf w 55
def iPneg (w : W128) : Bool := bitOf w 56

/-- SCALAR and QUEUE payload (R203). -/
def iPd (w : W128) : Nat := fld w 69 64
def iPa (w : W128) : Nat := fld w 75 70
def iPb (w : W128) : Nat := fld w 81 76
def iCond (w : W128) : Nat := fld w 84 82
def iFd (w : W128) : Nat := fld w 87 85
def iImm (w : W128) : W32 := w32 (fld w 127 96)

/-! ### Queues (R185, R189, R190) -/

def qDepth (q : Nat) : Nat := if q = 14 then 8 else if q = 15 then 0 else 16

def queueAt (c : Core) (q : Nat) : List QSlot := tget [] c.queues q
def setQueue (c : Core) (q : Nat) (l : List QSlot) : Core := { c with queues := tset [] q l c.queues }

/-- R190: the entries visible at the head: those before the first reserved slot not yet filled. -/
def visible (c : Core) (q : Nat) : List W64 := ((queueAt c q).takeWhile (fun x => x.entry.isSome)).filterMap (·.entry)

/-- R189, R237: free slots, reserved ones counted. -/
def qFree (c : Core) (q n : Nat) : Bool :=
  q == 15 || decide ((queueAt c q).length + (if q = 14 then c.q14rsv else 0) + n ≤ qDepth q)

/-- An entry arrives at a queue that has a place (R190); Q15 discards it. -/
def qPush (c : Core) (q : Nat) (e : W64) : Core :=
  if q = 15 then c
  else { setQueue c q (queueAt c q ++ [{ rid := c.nextRid, entry := some e }]) with nextRid := c.nextRid + 1 }

/-- A slot is reserved; the answer names it (R189). -/
def qReserve (c : Core) (q : Nat) : Option (Nat × Nat) × Core :=
  if q = 15 then (none, c)
  else (some (q, c.nextRid),
    { setQueue c q (queueAt c q ++ [{ rid := c.nextRid, entry := none }]) with nextRid := c.nextRid + 1 })

/-- A reserved slot is filled. -/
def qFill (c : Core) (d : Option (Nat × Nat)) (e : W64) : Core :=
  match d with
  | some (q, rid) => setQueue c q ((queueAt c q).map (fun x => if x.rid = rid then { x with entry := some e } else x))
  | none => c

/-- A reserved slot that takes no entry. -/
def qUnreserve (c : Core) (d : Option (Nat × Nat)) : Core :=
  match d with
  | some (q, rid) => setQueue c q ((queueAt c q).filter (fun x => x.rid != rid))
  | none => c

/-- R189: whether the i-th source of an instruction takes the entry behind an earlier source of the same queue. -/
def srcIndex (w : W128) (i : Nat) : Nat :=
  ((List.range i).filter (fun j => iUseSrc w j && iSrc w j == iSrc w i)).length

/-- The entry that source i gets, if it is visible. -/
def srcEntry (c : Core) (w : W128) (i : Nat) : Option W64 :=
  if iUseSrc w i then (visible c (iSrc w i))[srcIndex w i]? else none

/-- R189: the first queue condition an instruction waits for: its sources in order, then its destinations. -/
def queueBlock (c : Core) (w : W128) (srcs dsts : Nat) : Option Block :=
  match (List.range srcs).find? (fun i => iUseSrc w i && (srcEntry c w i).isNone) with
  | some i => some (.src (iSrc w i))
  | none =>
    if 0 < dsts ∧ iUseDst w 0 ∧ !qFree c (iDst w 0) 1 then some (.dst (iDst w 0))
    else if 1 < dsts ∧ iUseDst w 1 ∧
        !qFree c (iDst w 1) (if iUseDst w 0 ∧ iDst w 0 = iDst w 1 then 2 else 1) then some (.dst (iDst w 1))
    else none

/-- R189: each source whose KEEP bit is 0 is popped. -/
def popSources (c : Core) (w : W128) : Core :=
  (List.range 3).foldl (fun c i =>
    if iUseSrc w i && !iKeep w i then setQueue c (iSrc w i) ((queueAt c (iSrc w i)).drop 1) else c) c

/-- R189: DST i's slot, when it is used. -/
def reserveDst (c : Core) (w : W128) (i : Nat) : Option (Nat × Nat) × Core :=
  if iUseDst w i then qReserve c (iDst w i) else (none, c)

/-! ### Parameters and flags of a core -/

def pGet (c : Core) (i : Nat) : W32 := tget 0 c.params i
def pSet (c : Core) (i : Nat) (v : W32) : Core := { c with params := tset 0 i v c.params }

def fGet (t : Task) (i : Nat) : Bool := bitOf t.flags i
def fSet (t : Task) (i : Nat) (b : Bool) : Task := { t with flags := setFld t.flags i i (b2n b) }

end Sys2Proof.Machine
end

