-- ==== Sys2Proof/Machine/Flags.lean ====
section
/-! DEFINITION. What an instruction makes of flags and of the control flow: COND (R203), predicates (R196), flags an
engine instruction owns (R252), and the hardware loops (R199–R202). -/

namespace Sys2Proof.Machine

open Sys2Proof

/-- COND (R203). -/
def condHolds (cond : Nat) (a b : W32) : Bool :=
  match cond with
  | 0 => a == b
  | 1 => a != b
  | 2 => decide (a.toNat < b.toNat)
  | 3 => decide (b.toNat ≤ a.toNat)
  | 4 => decide (a.toInt < b.toInt)
  | 5 => decide (b.toInt ≤ a.toInt)
  | 6 => true
  | _ => false

/-- R196: a predicated instruction whose predicate is false. -/
def predOff (t : Task) (w : W128) : Bool := iPen w && (fGet t (iPf w) == iPneg w)

/-- The flag that an instruction names beside its predicate (R203, R204). -/
def namesFlag (w : W128) (f : Nat) : Bool :=
  let cls := iClass w
  let op := iOp w
  (iPen w && iPf w == f)
    || (((cls == 1 && (op == 14 || op == 15 || op == 19)) || (cls == 2 && (op == 7 || op == 8))) && iFd w == f)
    || (decide (6 ≤ cls ∧ cls ≤ 8) && bitOf w 90 && fld w 89 87 == f)

/-- R252: an engine instruction of the task owns a flag that the instruction reads or writes. -/
def flagOwned (c : Core) (t : Nat) (w : W128) : Bool :=
  c.vecq.any (fun e => e.task == t && bitOf e.word 90 && namesFlag w (fld e.word 89 87))

/-- R200, R202: what follows the instruction at `pc`: an inner loop ending there decides first. -/
def afterPc : List LoopLvl → Nat → List LoopLvl × Nat
  | [], pc => ([], (pc + 1) % 1024)
  | l :: rest, pc =>
    if l.bend = pc then
      if l.forever ∨ 1 < l.left then ({ l with left := l.left - 1, iter := l.iter + 1 } :: rest, l.beg)
      else afterPc rest pc
    else (l :: rest, (pc + 1) % 1024)

/-- The task goes on after the instruction at `pc`. -/
def advanceFrom (t : Task) (pc : Nat) : Task :=
  let r := afterPc t.loops pc
  { t with loops := r.1, pc := r.2, st := .ready, block := none }

def advance (t : Task) : Task := advanceFrom t t.pc

/-- R199: LOOP pushes a level, or skips the body as if BEND had completed (log 14). -/
def startLoop (t : Task) (w : W128) (n : W32) : Task :=
  if !bitOf w 81 && n == 0 then advanceFrom t (fld w 73 64)
  else { t with
    loops := { beg := (t.pc + 1) % 1024, bend := fld w 73 64, left := n.toNat, iter := 0, forever := bitOf w 81 } :: t.loops
    pc := (t.pc + 1) % 1024, st := .ready, block := none }

/-- R201: BREAK pops k levels and goes on after the k-th's BEND. -/
def breakLoops (t : Task) (k : Nat) : Task :=
  match t.loops[k - 1]? with
  | some l => advanceFrom { t with loops := t.loops.drop k } l.bend
  | none => advance t

end Sys2Proof.Machine
end

