-- ==== Sys2Proof/Machine/CoreState.lean ====
section
/-! DEFINITION. The life of a core: the issue of an instruction (R183, R189, R196), traps (R221–R223), the end of its part
of a launch (R218–R220), and the order of loads, patches and launches (R212–R217). -/

namespace Sys2Proof.Machine

open Sys2Proof

/-! ### Freed cores: loads, patches and launches in order of acceptance (R214) -/

/-- The module holds the core's LOADED, TRAPPED or EMPTY state with nothing of a run left. -/
def coreFree (c : Core) : Bool :=
  match c.st with
  | .empty => true
  | .loaded => true
  | .trapped => c.launch.isNone
  | _ => false

def opCores : CoreOp → List Nat
  | .load _ _ cs _ _ _ => cs
  | .patch _ cs _ => cs
  | .launch _ cs _ _ => cs

/-- The name that an operation completes under. -/
def opDid : CoreOp → Nat
  | .load d _ _ _ _ _ => d
  | .patch d _ _ => d
  | .launch d _ _ _ => d

/-- R217: one core starts its program. -/
def startCore (c : Core) (did : Nat) (jobtag : W32) : Core :=
  { c with
    st := .running, params := c.image, launch := some did, jobtag := jobtag, current := 0, dmaps := 0, events := 0, mat := { out := c.mat.out }
    tasks := ((List.range c.ntask).map (fun t => (t, ({ st := .ready, pc := c.entries.getD t 0 } : Task))))
    queues := c.queues.filter (fun p => p.1 == 13), q14rsv := 0, xfers := [], matq := [], vecq := [], sys := [] }

/-- R217: the lowest core of a launch that holds no program, or another one. -/
def launchRefusal (s : State) (cores : List Nat) (prog : W32) : Option Nat :=
  cores.find? (fun n => (coreAt s n).st = .empty || (coreAt s n).prog != prog)

/-- R217: the launch starts on every core it names, or is refused with ST_PROG. -/
def startLaunch (s : State) (did : Nat) (cores : List Nat) (prog jobtag : W32) : State :=
  match launchRefusal s cores prog with
  | some n => complete s did { status := 7, info0 := n }
  | none =>
    let s := cores.foldl (fun s n => modCore s n (fun c => startCore c did jobtag)) s
    { s with launches := s.launches ++ [{ did := did, cores := cores, left := cores }] }

/-- R450: a patch of a sealed core writes only the words its PATCH_MASK permits; the check came with the descriptor. -/
def patchImage (c : Core) (pairs : List (Nat × W32)) : Core :=
  { c with image := pairs.foldl (fun t p => tset 0 p.1 p.2 t) c.image }

/-- What the passage over the waiting operations carries: cores named by an earlier one, and the ones that remain. -/
structure OpPass where
  s : State
  held : List Nat := []
  keep : List CoreOp := []

/-- R214: one waiting operation acts on the cores that no earlier one holds. -/
def passOp (a : OpPass) (op : CoreOp) : OpPass :=
  match op with
  | .launch did cores prog jobtag =>
    if cores.all (fun n => !a.held.contains n && !coreHeld a.s n && coreFree (coreAt a.s n)) then
      { a with s := startLaunch a.s did cores prog jobtag }
    else { a with held := a.held ++ cores, keep := a.keep ++ [op] }
  | .patch did cores pairs =>
    let now := cores.filter (fun n => !a.held.contains n && !coreHeld a.s n && decide ((coreAt a.s n).st ≠ .loading))
    let left := cores.filter (fun n => !now.contains n)
    let s := now.foldl (fun s n => modCore s n (fun c => patchImage c pairs)) a.s
    if left.isEmpty then { a with s := complete s did {} }
    else { a with s := s, held := a.held ++ left, keep := a.keep ++ [.patch did left pairs] }
  | .load did src cores image slot mask =>
    let now := cores.filter (fun n => !a.held.contains n && !coreHeld a.s n && coreFree (coreAt a.s n))
    let s := now.foldl (fun s n => modCore s n (fun c => { c with st := .loading })) a.s
    { a with s := s, held := a.held ++ cores, keep := a.keep ++ [.load did src cores image slot mask] }

/-- R212, R214: the waiting operations take effect where they now can. -/
def pumpOps (s : State) : State :=
  let r := s.coreOps.foldl passOp { s := { s with coreOps := [] } }
  { r.s with coreOps := r.keep ++ r.s.coreOps }

/-! ### The end of a core's part (R218, R219, R222) -/

/-- R376: a stop's record is written when every named core has left RUNNING and STOPPING. -/
def settleStops (s : State) : State :=
  let out := fun (n : Nat) => match (coreAt s n).st with | .running => false | .stopping => false | _ => true
  let done := s.stops.filter (fun (p : Nat × List Nat) => p.2.all out)
  done.foldl (fun s p => complete s p.1 {}) { s with stops := s.stops.filter (fun (p : Nat × List Nat) => !p.2.all out) }

/-- R384: the lowest-numbered trapped core of a launch. -/
def lowestTrap (l : List (Nat × Nat × Nat × Nat)) : Option (Nat × Nat × Nat × Nat) :=
  l.foldl (fun a x => match a with | some y => if x.1 < y.1 then some x else some y | none => some x) none

/-- R384, R218: how a launch ended. -/
def launchDone (l : Launch) : Done :=
  match lowestTrap l.traps with
  | some (n, cause, pc, tag) => { status := 8, info0 := n + put cause 16, info1 := pc + put tag 16 }
  | none => { status := if l.aborted then 9 else 0 }

/-- R218: a core has done its part; the launch completes with the last. -/
def leaveLaunch (s : State) (n : Nat) : State :=
  match (coreAt s n).launch with
  | none => s
  | some did =>
    let s := modCore s n (fun c => { c with launch := none })
    let s : State := { s with launches := s.launches.map (fun (l : Launch) =>
      if l.did = did then { l with left := l.left.filter (· != n) } else l) }
    match s.launches.find? (fun (l : Launch) => l.did == did && l.left.isEmpty) with
    | some l => complete { s with launches := s.launches.filter (fun (x : Launch) => x.did != did) } did (launchDone l)
    | none => s

/-- R218: everything issued has completed and been delivered. -/
def drained (c : Core) : Bool :=
  c.xfers.isEmpty && c.matq.isEmpty && c.vecq.isEmpty && c.sys.isEmpty && c.dmaps == 0 && c.events == 0 && c.tasks.all (fun p => p.2.sig.isNone)

def allEnded (c : Core) : Bool := c.tasks.all (fun p => decide (p.2.st = .ended))

/-- R218, R222: the part of a running core whose tasks have ended, or of a trapped one, is done when it is drained. -/
def settleCore (s : State) (n : Nat) : State :=
  let c := coreAt s n
  if c.launch.isNone || !drained c then s
  else if c.st = .running ∧ allEnded c then
    pumpOps (settleStops (leaveLaunch (modCore s n (fun c => { c with st := .loaded })) n))
  else if c.st = .trapped then pumpOps (settleStops (leaveLaunch s n))
  else s

/-! ### Traps (R221–R223) -/

/-- R497: a trap's class. -/
def trapClass (cause : Nat) : Nat := if cause = 1 ∨ cause = 2 then 3 else if cause = 11 ∨ cause = 12 then 7 else 6

/-- A trap of core n: recorded when it is the run's first, else MORE (R222, R223); `more` says that another arose with
it. -/
def trapCore (s : State) (n cause task pc tag : Nat) (queue code : Nat := 0) (more : Bool := false) : State :=
  let c := coreAt s n
  if c.st ≠ .running ∧ c.st ≠ .stopping then (if c.st = .trapped then regSetBit s (oCore n cTrap0) 30 else s)
  else
    let w0 := cause + put task 8 + put pc 16 + put (b2n more) 30 + put 1 31
    let w1 := tag + put (if [2, 4, 5, 6].contains cause then queue else 0) 12 + put code 16
    let s := regSet s (oCore n cTrap0) (w32 w0)
    let s := regSet s (oCore n cTrap1) (w32 w1)
    let s := regSet s (oCore n cTrap2) c.jobtag
    let s := event s (trapClass cause) 1 1 cause n (w0 + put w1 32 + put c.jobtag.toNat 64) c.jobtag tag
    let s := trace s 2 n c.jobtag tag task pc true c.sealedBy.isSome
    let s := modCore s n (fun c => { c with st := .trapped })
    let s := match c.launch with
      | some did => { s with launches := s.launches.map (fun (l : Launch) =>
          if l.did = did then { l with traps := l.traps ++ [(n, cause, pc, tag)] } else l) }
      | none => s
    settleCore s n

/-! ### Issue -/

/-- The instruction that a core would issue next. -/
structure Fetch where
  n : Nat
  c : Core
  t : Nat
  task : Task
  w : W128
  deriving DecidableEq, Repr

/-- The current task's instruction, when the core issues: it is RUNNING under a running clock (R471), the task lives and
waits for no SIGNAL. -/
def fetchNext (s : State) (n : Nat) : Option Fetch :=
  let c := coreAt s n
  let t := taskAt c c.current
  if c.st ≠ .running ∨ t.st = .ended ∨ t.sig.isSome ∨ !corePresent s n ∨ coreHeld s n then none
  else some { n := n, c := c, t := c.current, task := t, w := tget 0 c.imem t.pc }

/-- The current instruction, if it is CLASS cls, OP op. -/
def fetchOp (s : State) (n cls op : Nat) : Option Fetch :=
  match fetchNext s n with
  | some f => if iClass f.w = cls ∧ iOp f.w = op then some f else none
  | none => none

/-- R192: the task is blocked, since when its condition first failed. -/
def blockTask (s : State) (f : Fetch) (b : Block) : State :=
  modCore s f.n (fun c => modTask c f.t (fun t =>
    { t with st := .blocked, block := some b, since := if t.st = .blocked then t.since else s.time }))

/-- The flipped bits of the instruction fetched and of its check bits (R213). -/
def fetchFlips (f : Fetch) : Nat := ((List.range 137).filter (bitOf (tget 0 f.c.imemErr f.task.pc))).length

/-- R213: an error that the 9 check bits detect and do not correct. -/
def fetchUe (f : Fetch) : Bool := tget 0 f.c.imemErr f.task.pc != 0 && decide (1 < fetchFlips f)

/-- The first 16 B of the entries that the instruction pops (R189, R502). -/
def poppedBits (f : Fetch) : Nat :=
  if predOff f.task f.w then 0
  else (((List.range 3).filter (fun i => iUseSrc f.w i && !iKeep f.w i)).filterMap (srcEntry f.c f.w)).foldr
    (fun e a => e.toNat + put a 64) 0

/-- R213, R227, R502: what every issue counts and traces. -/
def noteIssue (s : State) (f : Fetch) : State :=
  let s := countIf s ((tget 0 f.c.imemErr f.task.pc) != 0) (oCore f.n cImemCe)
  let s := count s (oCore f.n cRetired)
  trace s 1 f.n f.c.jobtag (iTag f.w) f.t f.task.pc true f.c.sealedBy.isSome (poppedBits f)

def advanceCore (s : State) (n t : Nat) : State := modCore s n (fun c => modTask c t advance)

/-- An instruction traps: nothing is popped or pushed (log 15). -/
def trapAt (s : State) (f : Fetch) (cause : Nat) (queue code : Nat := 0) (more : Bool := false) : State :=
  trapCore s f.n cause f.t f.task.pc (iTag f.w) queue code more

/-- The lowest CAUSE of the faults (CAUSE, queue) found together. -/
def lowestFault (faults : List (Nat × Nat)) : Option (Nat × Nat) :=
  faults.foldl (fun a x => match a with | some y => if x.1 < y.1 then some x else some y | none => some x) none

/-- R223: of the faults found together the lowest is recorded, and another CAUSE among them sets MORE. -/
def trapLowest (s : State) (f : Fetch) (faults : List (Nat × Nat)) : State :=
  match lowestFault faults with
  | some (cause, q) => trapAt s f cause q 0 (faults.any (fun x => x.1 != cause))
  | none => s

/-- A predicate that is false (R196): the instruction issues and has no other effect; a LOOP is skipped. -/
def issueOff (s : State) (f : Fetch) : State :=
  let s := noteIssue s f
  if iClass f.w = 0 ∧ iOp f.w = 1 then
    modCore s f.n (fun c => modTask c f.t (fun t => startLoop t (setFld f.w 81 81 0) 0))
  else advanceCore s f.n f.t

/-- The issue of one instruction: an uncorrectable error of its fetch traps (R213), a flag that an engine owns blocks it
(R252), whatever its predicate (log 84), a false predicate ends it (R196), `wait` names what it still waits for (R189), and `act` is its effect. -/
def issue (s : State) (n cls op : Nat) (wait : State → Fetch → Option Block) (act : State → Fetch → State) : State :=
  match fetchOp s n cls op with
  | none => s
  | some f =>
    if fetchUe f then trapAt s f 1
    else if flagOwned f.c f.t f.w then blockTask s f .flag
    else if predOff f.task f.w then issueOff s f
    else match wait s f with
      | some b => blockTask s f b
      | none => act (noteIssue s f) f

/-- Effects of a class that completes as it issues: the core with the task's flags, then the task goes on. -/
def retire (s : State) (f : Fetch) (g : Core → Core) : State := modCore s f.n (fun c => modTask (g c) f.t advance)

/-- R192: the next ready task in ascending order after the current one. -/
def nextReady (c : Core) : Option Nat :=
  ((List.range 4).map (fun i => (c.current + 1 + i) % 4)).find? (fun t => t != c.current && decide ((taskAt c t).st = .ready))

/-- R192, R227: the core switches to another task; `tag` is that of the instruction that made it. -/
def switchTask (s : State) (n tag task pc : Nat) : State :=
  match nextReady (coreAt s n) with
  | some t =>
    let s := count (modCore s n (fun c => { c with current := t })) (oCore n cSwitch)
    trace s 3 n (coreAt s n).jobtag tag task pc true (coreAt s n).sealedBy.isSome
  | none => s

end Sys2Proof.Machine
end

