-- ==== Sys2Proof/Machine/Stack.lean ====
section
/-! DEFINITION. The stack controller: far-path requests and their scheduling (R51–R66), refresh (R69–R72) and delay bands
(R74–R77). -/

namespace Sys2Proof.Machine

open Sys2Proof

/-- R447: a refused access counts and logs, with the initiator kind of R497. -/
def sealedRefuse (s : State) (kind unit da : Nat) (jobtag : W32 := 0) (tag : Nat := 0xFFF) : State :=
  event (count s oDenyCnt) 5 9 1 kind unit da jobtag tag

/-- R447: an initiator with authority `auth` may not touch a DRAM or scratchpad address, or may not read it. -/
def sealRefused (s : State) (auth : Option (Fin 4)) (da : Nat) (isWrite : Bool) : Bool :=
  match daSealed s da with
  | none => false
  | some k => auth != some k && !(isWrite && (match daKind s da with | .scratch _ _ => true | _ => false))

def rangeSealRefused (s : State) (auth : Option (Fin 4)) (da len : Nat) (isWrite : Bool) : Bool :=
  (units32 da len).any (fun p => sealRefused s auth (p.1 % 2 ^ 48) isWrite)

/-- A range that lies wholly in DRAM. -/
def rangeDram (s : State) (da len : Nat) : Bool :=
  (units32 da len).all (fun p => decide (daKind s (p.1 % 2 ^ 48) = .dram))

/-! ### Requests (R51, R55–R59) -/

def opLen : FarOp → Nat
  | .read n => n
  | .write d _ => d.length

/-- The part of a request that one piece carries. -/
def opPart (op : FarOp) (base off len : Nat) : FarOp :=
  match op with
  | .read _ => .read len
  | .write d p => .write ((d.drop off).take len) (p.drop ((base % 32 + off) / 32))

/-- R55: a request of one row piece arrives at its stack and waits. -/
def enqueueOne (s : State) (stack : Nat) (r : FarReq) : State :=
  modStack { s with nextId := s.nextId + 1 } stack (fun st => { st with
    reqs := st.reqs ++ [{ r with id := s.nextId, arrival := s.time }] })

/-- R106: the class that an engine of port 4 starts in; its number is its place in the order, 1 to 5. -/
def engineCls (port src : Nat) : Nat := if port = 4 ∧ (src = 1 ∨ src = 2) then 2 else 0

/-- R14, R55: the job tag of a request: that of its core's launch, or of its DMA channel's descriptor. -/
def srcTag (s : State) (port src : Nat) : W32 :=
  if port = 0 then (coreAt s src).jobtag else if port = 1 then (dmaAt s src).tag else 0

/-- R51, R55, R447: one piece of a request: an address error (R23, R50, R80) and a sealed refusal are answered at once. -/
def farPiece (s : State) (port src : Nat) (auth : Option (Fin 4)) (da : Nat) (op : FarOp) : State :=
  let len := opLen op
  let isW := match op with | .write _ _ => true | .read _ => false
  if !rangeDram s da len || rangeError s da len then emit s (.addrError src)
  else if decide (port ≤ 2) && rangeSealRefused s auth da len isW then
    emit (sealedRefuse s (if port = 0 then 1 else 2) src da (srcTag s port src)) (.sealedError src)
  else
    let l := locate s da
    enqueueOne s l.stack { id := 0, port := port, src := src, loc := l.loc, off := l.off, op := op, arrival := 0
                           minCls := engineCls port src, engine := if port = 4 then src else 0
                           jobtag := srcTag s port src }

/-- FAR_PATH_REQUEST (R51, R55): each piece of the request is a request of its own. -/
def farPathRequest (port : Fin 5) (src : Nat) (auth : Option (Fin 4)) (da : Nat) (req : FarOp) (s : State) : State :=
  ((accessPieces s da (opLen req)).foldl (fun a p =>
    (farPiece a.1 port src auth p.1 (opPart req da a.2 p.2), a.2 + p.2)) (s, 0)).1

/-- R63, R162: a tailrace unit leaves: DRAM in the sequencer's own stack through port 3, in another through port 2; any
other destination is written at once. -/
def unitWrite (s : State) (k c job da : Nat) (bytes : List Byte) (poison : List Bool) : State :=
  ((accessPieces s da bytes.length).foldl (fun a p =>
    let s := a.1
    let part := opPart (.write bytes poison) da a.2 p.2
    let s := match daKind s p.1, part with
      | .dram, _ =>
        let l := locate s p.1
        enqueueOne s l.stack { id := 0, port := if l.stack = k then 3 else 2, src := chanKey k c, loc := l.loc, off := l.off
                               op := part, arrival := 0, seq := some (.unit job k c) }
      | _, .write d ps => writePiece s (fun _ => 2) p.1 d ps
      | _, .read _ => s
    (s, a.2 + p.2)) (s, 0)).1

/-- R162: the units of a channel that wait for port 3 of their own stack fill its tailrace output queue of 16. -/
def unitsWaiting (s : State) (k c : Nat) : Nat :=
  ((stackAt s k).reqs.filter (fun r => match r.seq with
    | some (.unit _ k' c') => k' == k && c' == c
    | _ => false)).length

/-- R153: a tailrace unit of the job has not been written. -/
def unitsLeft (s : State) (job : Nat) : Bool :=
  s.stks.any (fun p => p.2.reqs.any (fun r => match r.seq with | some (.unit j _ _) => j == job | _ => false))

/-! ### Accesses that wait (R55, R62) -/

/-- R55: the source of a core's or a DMA channel's requests at a port: at port 2 every initiator has an identifier of its own. -/
def accessSrc (isDma : Bool) (n port : Nat) : Nat := if port = 2 then (if isDma then 8192 else 4096) + n else n

def isTicket (isDma : Bool) (who : Nat) (r : FarReq) : Bool := r.seq == some (.access isDma who)

/-- R55, R57: an access that waits enters its port of each stack concerned, once: its place ages there (log 85). -/
def askAccess (s : State) (isDma : Bool) (n who : Nat) (port : Nat → Nat) (da len : Nat) (w : Bool := false) : State :=
  (accessPieces s da len).foldl (fun s p =>
    match daKind s p.1 with
    | .dram =>
      let l := locate s p.1
      let q := port l.stack
      let there := (stackAt s l.stack).reqs.any (fun r => isTicket isDma who r && r.loc == l.loc)
      if !daWaits s p.1 w || decide ((stackAt s l.stack).st = .failed) || there then s
      else enqueueOne s l.stack { id := 0, port := q, src := accessSrc isDma n q, loc := l.loc, off := l.off, op := .read p.2
                                  arrival := 0, seq := some (.access isDma who)
                                  jobtag := if isDma then (dmaAt s n).tag else (coreAt s n).jobtag }
    | _ => s) s

/-- The access is performed, and leaves the places that it still has. -/
def dropTickets (s : State) (isDma : Bool) (who : Nat) : State :=
  (s.stks.filter (fun p => p.2.reqs.any (isTicket isDma who))).foldl (fun s p =>
    modStack s p.1 (fun st => { st with reqs := st.reqs.filter (fun r => !isTicket isDma who r) })) s

/-- R57: the latency target of a request's port. -/
def latTarget (s : State) (k : Nat) (r : FarReq) : Nat := regFld s (oStk k (kPortLat r.port)) 15 0

/-- R57: the urgency class by age. -/
def urgency (s : State) (k : Nat) (r : FarReq) : Nat :=
  let t := latTarget s k r
  let age := (s.time - r.arrival).toNat
  let c := if t = 0 then 0 else if age ≥ t then 2 else if 2 * age ≥ t then 1 else 0
  max r.minCls c

def isLate (s : State) (k : Nat) (r : FarReq) : Bool :=
  decide (latTarget s k r ≠ 0) && decide ((s.time - r.arrival).toNat ≥ latTarget s k r)

/-- URGENCY_AGEING (R57): each request that has reached its target is late, and counted once. -/
def urgencyAgeing (stack : Fin 12) (s : State) : State :=
  let k := stack.val
  let fresh := (stackAt s k).reqs.filter (fun r => !r.late && isLate s k r)
  let s := fresh.foldl (fun s r => count s (oStk k (kLateCnt r.port))) s
  modStack s k (fun st => { st with reqs := st.reqs.map (fun r =>
    if fresh.any (fun f => f.id == r.id) then { r with late := true } else r) })

/-- The physical bank (0–67) of a request. -/
def reqBank (s : State) (k : Nat) (r : FarReq) : Nat :=
  if r.scrub then r.loc.layer * 4 + r.loc.bank else physBank s k r.loc

def bankKey (c b : Nat) : Nat := c * 68 + b
def bankAt (s : State) (k c b : Nat) : BankSt := tget {} (stackAt s k).banks (bankKey c b)
def setBank (s : State) (k c b : Nat) (x : BankSt) : State :=
  modStack s k (fun st => { st with banks := tset {} (bankKey c b) x st.banks })

/-- The working bank that physical bank b serves, when it serves one. -/
def workingOf (s : State) (k c b : Nat) : Option Nat :=
  (List.range 64).find? (fun w => quernBank s k c w == b)

/-- R63: the quern job whose entry makes a sequencer's request. -/
def entryOf (s : State) (k : Nat) (r : FarReq) : Option Nat :=
  let mine := fun (d : TileId) => d.stack == k && d.chan == r.loc.chan && some d.job == (chanAt s k r.loc.chan).job
  match r.seq with
  | some (.tile _ dests) => (dests.find? mine).map (·.job)
  | some (.mill _ d) => if mine d then some d.job else none
  | some (.unit job _ _) => some job
  | _ => none

/-- R63: a port 3 request of the entry whose own stream holds the bank; a tile of a job that is still queued waits (R62). -/
def ownStream (s : State) (k : Nat) (r : FarReq) : Bool :=
  r.port == 3 && r.src == chanKey k r.loc.chan && bankStreams s k r.loc.chan (reqBank s k r)
    && (entryOf s k r).isSome && entryOf s k r == (chanAt s k r.loc.chan).job

/-- R59: requests of one source to one stack are performed in order. -/
def firstOfSource (s : State) (k : Nat) (r : FarReq) : Bool :=
  match (stackAt s k).reqs.find? (fun q => q.port == r.port && q.src == r.src && q.seq.isSome == r.seq.isSome) with
  | some q => q.id == r.id
  | none => false

/-- The oldest queued repair of physical bank b (R103). -/
def queuedRepair (s : State) (k c b : Nat) : Option Loc :=
  (stackAt s k).repairs.find? (fun l => l.chan == c && physBank s k l == b)

/-- R106, R103: the repair engine has a request that no stream keeps waiting. -/
def repairReady (s : State) (k : Nat) : Bool := (stackAt s k).repairs.any (fun l => !locStreams s k l)

/-- R115: the physical bank that a remap copies from: the working bank's own, or the spare bank that serves it. -/
def remapHome (ch : Chan) (w : Nat) : Nat :=
  let p := homeAt ch { chan := 0, layer := w / 4, bank := w % 4, row := 0 }
  p.1 * 4 + p.2

/-- R106: the remap engine has a row to copy on a channel, and no stream keeps it waiting. -/
def remapReady (s : State) (k : Nat) : Bool :=
  (List.range 32).any (fun c =>
    match (chanAt s k c).remapping with
    | some (sp, w) => decide ((chanAt s k c).progress < 16384) && !bankStreams s k c (remapHome (chanAt s k c) w)
        && !bankStreams s k c (64 + sp)
    | none => false)

/-- R106, R110, R118: a migration that runs without gap has a bank to copy that no stream keeps waiting. -/
def migrationReady (s : State) (k : Nat) : Bool :=
  (List.range 32).any (fun c =>
    let ch := chanAt s k c
    decide (ch.spSt = .migrating) && decide (ch.progress < 16384)
      && (ch.noGap || decide (regFld s (oStk k kSpareCtl) 7 0 = 0))
      && (List.range 4).any (fun b => !ch.copied.contains b && !bankStreams s k c (ch.spLayer * 4 + b)))

/-- R106: a port 4 request of an engine above this one waits. -/
def engineWaits (s : State) (k engine : Nat) : Bool :=
  (stackAt s k).reqs.any (fun q => q.port == 4 && decide (q.engine < engine))

/-- R106: an engine of port 4 above this one takes the next slot. -/
def engineBlocked (s : State) (k engine : Nat) : Bool :=
  (decide (1 < engine) && repairReady s k) || (decide (2 < engine) && remapReady s k)
    || (decide (3 < engine) && migrationReady s k) || engineWaits s k engine

def enginesAbove (s : State) (k : Nat) (r : FarReq) : Bool := r.port == 4 && engineBlocked s k r.engine

def eligible (s : State) (k : Nat) (r : FarReq) : Bool :=
  firstOfSource s k r && !enginesAbove s k r
    && (!bankStreams s k r.loc.chan (reqBank s k r) || ownStream s k r)

def rowHit (s : State) (k : Nat) (r : FarReq) : Bool :=
  (bankAt s k r.loc.chan (reqBank s k r)).openRow == some r.loc.row

def sameBank (s : State) (k : Nat) (a b : FarReq) : Bool :=
  a.loc.chan == b.loc.chan && reqBank s k a == reqBank s k b

/-- An older waiting request to the same bank. -/
def olderSame (s : State) (k : Nat) (l : List FarReq) (r : FarReq) : Option FarReq :=
  (l.takeWhile (fun q => q.id != r.id)).find? (sameBank s k r)

/-- R58: the request that the scheduler picks among eligible ones, which are in order of arrival. -/
def pickOf (s : State) (k : Nat) (el : List FarReq) : Option FarReq :=
  let top := maxNat (el.map (urgency s k))
  let cls := el.filter (fun r => urgency s k r == top)
  match cls.find? (rowHit s k) with
  | some r =>
    let cap := regFld s (oStk k kSched) 4 0
    match olderSame s k el r with
    | some o => if (bankAt s k r.loc.chan (reqBank s k r)).streak ≥ cap then some o else some r
    | none => some r
  | none => cls.head?

def schedPick (s : State) (k : Nat) : Option FarReq := pickOf s k ((stackAt s k).reqs.filter (eligible s k))

/-- The bank after a grant (R58, R61). -/
def bankAfter (s : State) (k : Nat) (r : FarReq) (el : List FarReq) : BankSt :=
  let b := bankAt s k r.loc.chan (reqBank s k r)
  let streak := if rowHit s k r && (olderSame s k el r).isSome then b.streak + 1 else 0
  if regFld s (oStk k kSched) 15 8 = 0 then { b with openRow := none, streak := 0 }
  else { b with openRow := some r.loc.row, streak := streak }

/-- R14: the job tag of what a sequencer's request belongs to. -/
def reqTag (s : State) (r : FarReq) : W32 :=
  match r.seq with
  | some (.tile _ (d :: _)) => jobTag s d.job
  | some (.mill _ d) => jobTag s d.job
  | some (.unit job _ _) => jobTag s job
  | _ => r.jobtag

/-- Performs a granted request (R56, R96, R97) and answers its source; a sequencer's data goes where it waits (R63). -/
def performReq (s : State) (k : Nat) (r : FarReq) : State :=
  match r.op with
  | .read n =>
    if r.scrub then scrubRow s k r.loc
    else if r.port = 4 then
      let p := servedAt s k r.loc
      scrubRow s k { r.loc with layer := p.1, bank := p.2 }
    else
      let x := farReadPiece s k r.loc r.off n
      match r.seq with
      | some (.access _ _) => s
      | some q => tileGot x.2.2 (some (x.1, x.2.1)) q
      | none => emit x.2.2 (.farData r.src x.1 x.2.1)
  | .write d p =>
    let s := farWritePiece s k r.loc r.off d p r.port
    if r.seq.isSome then s else emit s (.farDone r.src)

def performFar (s : State) (k : Nat) (r : FarReq) : State := caused s (reqTag s r) 0xFFF (fun s => performReq s k r)

/-- R58, R63: the granted request leaves the list; its own entry's stream is held for it. -/
def leaveList (s : State) (k : Nat) (r : FarReq) : State :=
  let c := r.loc.chan
  let own := ownStream s k r
  let b := reqBank s k r
  let nb := bankAfter s k r (stackAt s k).reqs
  let s := if own then count (jobFlag s (chanAt s k c).job 4) (oQrn k qHold) else setBank s k c b nb
  modStack s k (fun st => { st with reqs := st.reqs.filter (fun q => q.id != r.id) })

/-- R106: the repair and remap engines' requests are of class 2, and go before a request of a lower class; their own commands
perform them. -/
def engineFirst (s : State) (k : Nat) (r : FarReq) : Bool :=
  (repairReady s k || remapReady s k) && decide (urgency s k r < 2)

/-- PAGE_IDLE_PRECHARGE (R61). -/
def pageIdlePrecharge (stack : Fin 12) (chan : Fin 32) (bank : Fin 68) (s : State) : State :=
  let b := bankAt s stack chan bank
  if b.openRow.isSome && !bankStreams s stack chan bank then
    setBank s stack chan bank { b with openRow := none, streak := 0 }
  else s

/-! ### Refresh (R69, R72, R170) -/

/-- Pending requests or an active stream keep the bank from idling (R72). -/
def bankBusy (s : State) (k c b : Nat) : Bool :=
  bankStreams s k c b || (stackAt s k).reqs.any (fun r => r.loc.chan == c && reqBank s k r == b)

/-- The refresh pointer moves on: 8,192 commands cover a bank (R69). -/
def refreshBank (b : BankSt) (n : Nat) : BankSt :=
  { b with openRow := none, streak := 0, refreshes := (b.refreshes + n) % 8192 }

/-- R69, R79: the controller refreshes the banks: in READY, and in CLEARING, which keeps the retained channels. -/
def refreshes (s : State) (k : Nat) : Bool := decide ((stackAt s k).st = .ready ∨ (stackAt s k).st = .clearing)

/-- REFRESH_DUE (R69, R72): a refresh is issued, or owed, or the ninth is forced (R170). -/
def refreshDue (stack : Fin 12) (chan : Fin 32) (bank : Fin 68) (s : State) : State :=
  let b := bankAt s stack chan bank
  if !refreshes s stack then s
  else if !bankBusy s stack chan bank then setBank s stack chan bank (refreshBank b 1)
  else if b.owed < 8 then setBank s stack chan bank { b with owed := b.owed + 1 }
  else if bankStreams s stack chan bank then
    let s := count (jobFlag s (chanAt s stack chan).job 4) (oQrn stack qHold)
    setBank s stack chan bank { b with refreshes := (b.refreshes + 1) % 8192 }
  else setBank s stack chan bank (refreshBank b 1)

/-- REFRESH_REPAY (R72): an idle bank repays what it owes. -/
def refreshRepay (stack : Fin 12) (chan : Fin 32) (bank : Fin 68) (s : State) : State :=
  let b := bankAt s stack chan bank
  if !refreshes s stack ∨ b.owed = 0 ∨ bankBusy s stack chan bank then s
  else setBank s stack chan bank { refreshBank b b.owed with owed := 0 }

/-! ### Delay bands (R74–R77) -/

/-- R74: the band whose range holds a temperature. -/
def bandOf (t : Int) : Nat := if t ≤ 20 then 0 else if t ≤ 45 then 1 else if t ≤ 70 then 2 else if t ≤ 85 then 3 else 4

def bandTop (b : Nat) : Int := if b = 0 then 20 else if b = 1 then 45 else if b = 2 then 70 else 85

/-- R74: the band moves down while the temperature is below its lower bound minus 2 °C. -/
def bandDown (t : Int) : Nat → Nat
  | 0 => 0
  | b + 1 => if t < bandTop b - 2 then bandDown t b else b + 1

/-- R74: the band moves up above its upper bound, and down with 2 °C of hysteresis. -/
def bandNext (b : Nat) (t : Int) : Nat := if b < 4 ∧ t > bandTop b then bandOf t else bandDown t b

/-- R77: a band's set is present and whole. -/
def bandValid (s : State) (k b : Nat) : Bool := !s.flash.badBands.contains (k * 8 + b)

/-- R77: the nearest valid band by number, the lower on a tie. -/
def nearestBand (s : State) (k b : Nat) : Option Nat :=
  (([0, 1, 2, 3, 4].flatMap (fun d => if d ≤ b then [b - d, b + d] else [b + d])).filter (fun x => decide (x ≤ 4))).find?
    (bandValid s k)

/-- R74–R77: the band called for is loaded, or the nearest valid one, or the stack fails. Channels that must switch
(R76) keep their band until CHANNEL_DELAY_SWITCH, unless `all` loads them with the stack. -/
def loadBand (s : State) (k b : Nat) (all : Bool) : State :=
  match nearestBand s k b with
  | none => failStack s k 5
  | some n =>
    let s := if n = b then s
      else event (regSetBit s (oStk k 0) 11) 2 3 2 b (stackUnit k) n
    modStack s k (fun st => { st with
      band := n, called := b
      chanBand := if all then (List.range 32).foldl (fun t c => tset 0 c n t) [] else st.chanBand })

/-- CHANNEL_DELAY_SWITCH (R76). -/
def channelDelaySwitch (stack : Fin 12) (chan : Fin 32) (s : State) : State :=
  modStack s stack (fun st => { st with chanBand := tset 0 chan.val st.band st.chanBand })

end Sys2Proof.Machine
end

