-- ==== Sys2Proof/Machine/Issue.lean ====
section
/-! DEFINITION. What an instruction waits for (R189, R205, R208, R237, R286, R387), and the scheduling of a core's
tasks (R192, R193). -/

namespace Sys2Proof.Machine

open Sys2Proof

/-- R208, R265: the DMA channel of a DMAP: 4k + DCH of the core's mill die, k the row's place on the die. -/
def dmapChannel (n dch : Nat) : Nat := 16 + 4 * (n / 100) + dch

/-- R207: an LD or ST of the task is outstanding. -/
def taskXfers (c : Core) (t : Nat) : Bool := c.xfers.any (fun x => x.task == t)

/-- R397: a POST to this ring is taken, not dropped. -/
def postTaken (s : State) (ring : Nat) : Bool :=
  regBit s (oRing ring rCtl) 2 && (match (ringAt s ring).st with | .running => true | .stalled => true | _ => false)

/-- R286, R387: where a POST or DMAP is delivered there is a place for it, or a POST is dropped; `field` is the ring or the
channel. An EVENT goes to the log, where its record waits if it must (R500). -/
def sysRoom (s : State) (op field : Nat) : Bool :=
  match op with
  | 1 => !postTaken s field || (ringAdmits s field && frontUp s)
  | 2 => decide ((dmaAt s field).pending.length < 8)
  | _ => true

/-- The first unmet condition of an instruction, in the order of R189. -/
def waitOf (s : State) (f : Fetch) : Option Block :=
  let c := f.c
  let w := f.w
  let cls := iClass w
  let op := iOp w
  if cls ≤ 1 ∨ 8 < cls ∨ (cls = 2 ∧ (op = 8 ∨ op = 9)) then none
  else if cls = 3 ∧ op = 2 then (if taskXfers c f.t then some .fence else none)
  else match queueBlock c w 3 2 with
    | some b => some b
    | none =>
      if cls = 3 then (if 16 ≤ c.xfers.length then some .unit else none)
      else if cls = 4 then
        match op with
          | 1 => if sysRoom s 1 (fld w 98 89) then none else some .post
          | 2 => if sysRoom s 2 (dmapChannel f.n (fld w 100 99)) then none else some .dmap
          | _ => none
      else if cls = 5 then (if op = 0 ∧ bitOf w 74 ∧ !qFree c 14 1 then some (.dst 14) else none)
      else none

/-- The instruction that task t of core n would issue. -/
def fetchTask (s : State) (n t : Nat) : Fetch :=
  let c := coreAt s n
  { n := n, c := c, t := t, task := taskAt c t, w := tget 0 c.imem (taskAt c t).pc }

/-- What a task waits for now (R192). -/
def taskWait (s : State) (n t : Nat) : Option Block :=
  let f := fetchTask s n t
  if f.task.sig.isSome then some .signal
  else if fetchUe f then none
  else if flagOwned f.c t f.w then some .flag
  else if predOff f.task f.w then none
  else waitOf s f

/-- R192, R197: the core leaves its current task; the record names the instruction that the task stands at. -/
def switchHere (s : State) (n : Nat) : State :=
  let f := fetchTask s n (coreAt s n).current
  switchTask s n (iTag f.w) f.t f.task.pc

/-- TASK_READY (R192): a blocked task's condition is met. -/
def taskReady (core : Fin 1200) (task : Fin 4) (s : State) : State :=
  let t := taskAt (coreAt s core) task
  if t.st = .blocked ∧ taskWait s core task = none then
    let s := modCore s core (fun c => modTask c task (fun t => { t with st := .ready, block := none }))
    let c := coreAt s core
    if (taskAt c c.current).st = .ended then switchHere s core else s
  else s

/-- TASK_SWITCH (R192): the current task is blocked while another is ready. -/
def taskSwitch (core : Fin 1200) (s : State) : State :=
  let c := coreAt s core
  if c.st = .running ∧ (taskAt c c.current).st = .blocked then
    switchHere s core
  else s

/-- DEADLOCK (R193): every task that has not ended is blocked; the lowest-numbered one is named. -/
def deadlock (core : Fin 1200) (s : State) : State :=
  let c := coreAt s core
  let live := (List.range 4).filter (fun t => decide ((taskAt c t).st ≠ .ended))
  match live with
  | [] => s
  | t :: _ =>
    if c.st = .running ∧ regFld s (oCore core cCtl) 27 16 ≠ 0
        ∧ live.all (fun t => decide ((taskAt c t).st = .blocked) && (taskWait s core t).isSome) then
      let f := fetchTask s core t
      let q := match f.task.block with
        | some (.src q) => q
        | some (.dst q) => q
        | _ => 0
      trapCore s core 10 t f.task.pc (iTag f.w) q
    else s

/-- INSTRUCTION_FETCH_UE (R213). -/
def instructionFetchUe (core : Fin 1200) (s : State) : State :=
  match fetchNext s core with
  | some f => trapAt s f 1
  | none => s

/-- The operations that a class defines (R195, R198, R203–R208, R231, R253, R255, R259). -/
def opCount (cls : Nat) : Nat :=
  match cls with
  | 0 => 8 | 1 => 20 | 2 => 10 | 3 => 3 | 4 => 4 | 5 => 3 | 6 => 2 | 7 => 1 | 8 => 4
  | _ => 0

/-- RESERVED_ENCODING_FETCH (R195, R196, R221, R252). -/
def reservedEncodingFetch (core : Fin 1200) (s : State) : State :=
  match fetchNext s core with
  | some f =>
    if iOp f.w < opCount (iClass f.w) then s
    else if fetchUe f then trapAt s f 1
    else if flagOwned f.c f.t f.w then blockTask s f .flag
    else if predOff f.task f.w then issueOff s f
    else trapAt (noteIssue s f) f 13
  | none => s

/-- STOP_DRAIN_COMPLETE (R219): a stopping core's work has completed. -/
def stopDrainComplete (core : Fin 1200) (s : State) : State :=
  let c := coreAt s core
  if c.st = .stopping ∧ drained c then
    let s := modCore s core (fun c => { c with st := .loaded })
    pumpOps (settleStops (leaveLaunch s core))
  else s

end Sys2Proof.Machine
end

