-- ==== Sys2Proof/Machine/Control.lean ====
section
/-! DEFINITION. The CTRL class (R198–R202). -/

namespace Sys2Proof.Machine

open Sys2Proof

/-- NOP. -/
def nop (core : Fin 1200) (s : State) : State := issue s core 0 0 waitOf (fun s f => advanceCore s f.n f.t)

/-- LOOP (R199, R200): the count is latched. -/
def loop (core : Fin 1200) (s : State) : State :=
  issue s core 0 1 waitOf (fun s f =>
    let n := if bitOf f.w 74 then pGet f.c (fld f.w 80 75) else w32 (fld f.w 127 96)
    modCore s f.n (fun c => modTask c f.t (fun t => startLoop t f.w n)))

/-- BREAK (R201). -/
def breakLoop (core : Fin 1200) (s : State) : State :=
  issue s core 0 2 waitOf (fun s f => modCore s f.n (fun c => modTask c f.t (fun t => breakLoops t (fld f.w 65 64 + 1))))

/-- JUMP. -/
def jump (core : Fin 1200) (s : State) : State :=
  issue s core 0 3 waitOf (fun s f =>
    modCore s f.n (fun c => modTask c f.t (fun t => { t with pc := fld f.w 73 64, st := .ready, block := none })))

/-- YIELD (R192). -/
def yieldTask (core : Fin 1200) (s : State) : State :=
  issue s core 0 4 waitOf (fun s f => switchTask (advanceCore s f.n f.t) f.n (iTag f.w) f.t f.task.pc)

/-- TEND (R198, R218): the task ends with its loops; the core's part may be done. -/
def tend (core : Fin 1200) (s : State) : State :=
  issue s core 0 5 waitOf (fun s f =>
    let s := modCore s f.n (fun c => modTask c f.t (fun t => { t with st := .ended, loops := [], block := none }))
    settleCore (switchTask s f.n (iTag f.w) f.t f.task.pc) f.n)

/-- STRAP: traps with SOFT and CODE. -/
def strap (core : Fin 1200) (s : State) : State :=
  issue s core 0 6 waitOf (fun s f => trapAt s f 11 0 (fld f.w 79 64))

/-- BKPT (R198, R438, R450): a sealed core and the LOCKED level take it as a NOP. -/
def bkpt (core : Fin 1200) (s : State) : State :=
  issue s core 0 7 waitOf (fun s f =>
    if regBit s (oCore f.n cCtl) 8 && decide (s.sec.debug ≠ .locked) && f.c.sealedBy.isNone then trapAt s f 12
    else advanceCore s f.n f.t)

end Sys2Proof.Machine
end

