-- ==== Sys2Proof/Machine/QueueOps.lean ====
section
/-! DEFINITION. The QUEUE class (R204). -/

namespace Sys2Proof.Machine

open Sys2Proof

/-- Pushes to DST i, when it is used. -/
def pushDst (c : Core) (w : W128) (i : Nat) (e : W64) : Core := if iUseDst w i then qPush c (iDst w i) e else c

/-- The entry at SRC0. -/
def src0 (f : Fetch) : W64 := (srcEntry f.c f.w 0).getD 0

/-- An instruction that pops SRC0: a fault traps, else its effect. -/
def popOp (s : State) (core op : Nat) (faults : W64 → List Nat) (g : Fetch → W64 → Core → Core) : State :=
  issue s core 2 op waitOf (fun s f =>
    match faults (src0 f) with
    | [] => retire s f (fun c => g f (src0 f) (popSources c f.w))
    | found => trapLowest s f (found.map (fun cause => (cause, iSrc f.w 0))))

/-- PUSHH: a handle built from immediates and parameters, checked under R191; no queue's entry causes its trap (log 17), and
the sum for OFFSET is taken without a wrap (log 84). -/
def pushh (core : Fin 1200) (s : State) : State :=
  issue s core 2 0 waitOf (fun s f =>
    let off := fld f.w 82 64 + (if bitOf f.w 89 then (pGet f.c (fld f.w 88 83)).toNat else 0)
    let len := if bitOf f.w 116 then (pGet f.c (fld f.w 115 110)).toNat else fld f.w 109 90
    match regionFaults off len with
    | [] => retire s f (fun c => pushDst c f.w 0 (mkHandle off len (fld f.w 120 117) false (iTag f.w)))
    | found => trapLowest s f (found.map (fun cause => (cause, 0))))

/-- PUSHV: a value. -/
def pushv (core : Fin 1200) (s : State) : State :=
  issue s core 2 1 waitOf (fun s f =>
    retire s f (fun c => pushDst c f.w 0 (mkValue (pGet f.c (iPa f.w)) false (iTag f.w))))

/-- POPV: a handle traps with KIND, a poisoned entry with POISON. -/
def popv (core : Fin 1200) (s : State) : State :=
  popOp s core 2 (fun e => (if ePoison e then [2] else []) ++ (if eKind e ≠ 1 then [6] else []))
    (fun f e c => pSet c (iPd f.w) (eVal e))

/-- DROP. -/
def drop (core : Fin 1200) (s : State) : State := popOp s core 3 kindFaults (fun _ _ c => c)

/-- DUP. -/
def dup (core : Fin 1200) (s : State) : State :=
  popOp s core 4 kindFaults (fun f e c =>
    pushDst (pushDst c f.w 0 (retag e (iTag f.w))) f.w 1 (retag e (iTag f.w)))

/-- MOVE. -/
def move (core : Fin 1200) (s : State) : State :=
  popOp s core 5 kindFaults (fun f e c => pushDst c f.w 0 (retag e (iTag f.w)))

/-- SPLIT: the first min(IMM, LEN) bytes, and the rest. -/
def split (core : Fin 1200) (s : State) : State :=
  popOp s core 6 handleFaults (fun f e c =>
    let m := min (iImm f.w).toNat (eLen e)
    let h := fun (off len : Nat) => mkHandle off len (eFmt e) (ePoison e) (iTag f.w)
    pushDst (pushDst c f.w 0 (h (eOff e) m)) f.w 1 (h (eOff e + m) (eLen e - m)))

/-- HLEN: P[PD] = LEN, F[FD] = POISON. -/
def hlen (core : Fin 1200) (s : State) : State :=
  popOp s core 7 handleFaults (fun f e c =>
    modTask (pSet c (iPd f.w) (w32 (eLen e))) f.t (fun t => fSet t (iFd f.w) (ePoison e)))

/-- QTEST: neither blocks nor pops. -/
def qtest (core : Fin 1200) (s : State) : State :=
  issue s core 2 8 waitOf (fun s f =>
    modCore s f.n (fun c => modTask c f.t (fun t =>
      advance (fSet t (iFd f.w) (decide ((iImm f.w).toNat ≤ (visible f.c (iSrc f.w 0)).length))))))

/-- QCOUNT: neither blocks nor pops. -/
def qcount (core : Fin 1200) (s : State) : State :=
  issue s core 2 9 waitOf (fun s f => retire s f (fun c => pSet c (iPd f.w) (w32 (visible f.c (iSrc f.w 0)).length)))

end Sys2Proof.Machine
end

