-- ==== Sys2Proof/Machine/Owner.lean ====
section
/-! DEFINITION. The module in its pair (R399), and owner tables in DRAM (R312–R314): header, entries, their check, their
rewriting (R413, R417), and what waits for a stream or a stack (R62, R80). -/

namespace Sys2Proof.Machine

open Sys2Proof

/-! ### The module in its pair -/

/-- R399: the pair position sampled at the last reset. -/
def myPos (s : State) : Nat := b2n s.pins.posSample
def myPair (s : State) : Nat := fld (effGet s oTwnCfg) 2 1
def mySlot (s : State) : Nat := 2 * myPair s + myPos s

def findSession (s : State) (sid : W32) : Option Session := s.twin.sessions.find? (fun x => x.sid == sid)

/-- R312: what a valid header says. -/
structure OTable where
  da : Nat
  log2 : Nat
  nblock : Nat
  base : Nat
  nslot : Nat
  deriving DecidableEq, Repr

def noSlot : Nat := 0xFFFFFF

/-! ### Entries (R313) -/

def eOwner (e : W64) : Nat := fld e 2 0
def eRepl (e : W64) : Bool := bitOf e 3
def eState (e : W64) : Nat := fld e 6 4
def eSlot (e : W64) : Nat := fld e 31 8
def eSeq (e : W64) : Nat := fld e 63 32

def setOwner (e : W64) (o : Nat) : W64 := setFld e 2 0 o
def setRepl (e : W64) (b : Bool) : W64 := setFld e 3 3 (b2n b)
def setEState (e : W64) (v : Nat) : W64 := setFld e 6 4 v
def setSlot (e : W64) (v : Nat) : W64 := setFld e 31 8 v
def setSeq (e : W64) (v : Nat) : W64 := setFld e 63 32 v

/-- R314: one aligned 8 B unit. -/
def entryDa (t : OTable) (n : Nat) : Nat := t.da + 64 + 8 * n

def getEntry (s : State) (t : OTable) (n : Nat) : W64 × State :=
  let r := daRead s (entryDa t n) 8
  (w64 (leNat r.1), r.2.2)

def putEntry (s : State) (t : OTable) (n : Nat) (e : W64) : State :=
  daWrite s (fun _ => 2) (entryDa t n) (leBytes 8 e.toNat) [false]

/-- An entry changes as `f` says. -/
def modEntry (s : State) (t : OTable) (n : Nat) (f : W64 → W64) : State :=
  let r := getEntry s t n
  putEntry r.2 t n (f r.1)

/-- The DA of a local slot. -/
def slotDa (t : OTable) (slot : Nat) : Nat := t.base + slot * 2 ^ t.log2

def blockSize (t : OTable) : Nat := 2 ^ t.log2

/-! ### The check of a table (R312, R313) -/

/-- The header's fields in order: byte offset, whether it breaks R312 or holds a reserved FMT (R187, R313). -/
def tableFault (h : List Byte) : Option Nat :=
  let log2 := sliceNat h 6 1
  let base := sliceNat h 16 8
  let nslot := sliceNat h 24 4
  ([(0, decide (sliceNat h 0 4 ≠ 0x4F574E54)), (4, decide (sliceNat h 4 2 ≠ 1)), (6, decide (log2 < 12 ∨ 26 < log2)),
    (7, decide (14 ≤ sliceNat h 7 1)),
    (12, decide (sliceNat h 12 4 = 0 ∨ 2 ^ 24 < sliceNat h 12 4)),
    (16, decide (base % 2 ^ log2 ≠ 0 ∨ 2 ^ 48 ≤ base)),
    (24, decide (nslot = 0 ∨ 2 ^ 24 ≤ nslot ∨ dramSize < base + nslot * 2 ^ log2)),
    (32, decide (sliceNat h 32 32 ≠ 0))].find? (·.2)).map (·.1)

def headerTable (da : Nat) (h : List Byte) : OTable :=
  { da := da, log2 := sliceNat h 6 1, nblock := sliceNat h 12 4, base := sliceNat h 16 8, nslot := sliceNat h 24 4 }

def headerTensor (h : List Byte) : Nat := sliceNat h 8 4

/-- R313: an entry holds a reserved value, or a bad SLOT. -/
def entryBadIn (t : OTable) (e : W64) : Bool :=
  decide (4 ≤ eState e) || bitOf e 7 || (decide (t.nslot ≤ eSlot e) && eSlot e != noSlot)

/-- Control core 3 can read a range: no address error, no sealed region of a package (log 13). -/
def ctlReads (s : State) (da len : Nat) : Bool := !rangeError s da len && !rangeSealRefused s none da len false

/-- The first invalid field of the table at a DA, or the table. -/
def checkTable (s : State) (da : Nat) : (Nat ⊕ (OTable × Nat)) × State :=
  if da % 64 ≠ 0 ∨ dramSize < da + 64 ∨ !ctlReads s da 64 then (.inl 0, s)
  else
    let r := daRead s da 64
    match tableFault r.1 with
    | some o => (.inl o, r.2.2)
    | none =>
      let t := headerTable da r.1
      if dramSize < entryDa t t.nblock ∨ !ctlReads r.2.2 (da + 64) (8 * t.nblock) then (.inl 64, r.2.2)
      else
        let x := daRead r.2.2 (da + 64) (8 * t.nblock)
        let bad := (List.range t.nblock).find? (fun n => entryBadIn t (w64 (sliceNat x.1 (8 * n) 8)))
        match bad with
        | some n => (.inl (64 + 8 * n), x.2.2)
        | none => (.inr (t, headerTensor r.1), x.2.2)

/-! ### Registered tables (R413) -/

/-- The registered table of a tensor, as its header says. -/
def tableOf (s : State) (tensor : Nat) : Option OTable :=
  match s.twin.tables.find? (fun p => p.1 == tensor) with
  | some p => some (headerTable p.2 (daRead s p.2 64).1)
  | none => none

def tableEntries (s : State) : Nat := (s.twin.tables.map (fun p => (headerTable p.2 (daRead s p.2 64).1).nblock)).sum

/-- The table and the entry of a block, when both exist. -/
def blockOf (s : State) (tensor block : Nat) : Option (OTable × W64) :=
  match tableOf s tensor with
  | some t => if block < t.nblock then some (t, (getEntry s t block).1) else none
  | none => none

/-- What reading the header of a registered table does (R93). -/
def touchTable (s : State) (tensor : Nat) : State :=
  match s.twin.tables.find? (fun p => p.1 == tensor) with
  | some p => (daRead s p.2 64).2.2
  | none => s

/-- What reading a header and an entry does. -/
def touchBlock (s : State) (tensor block : Nat) : State :=
  match tableOf s tensor with
  | some t => if block < t.nblock then (getEntry (touchTable s tensor) t block).2 else touchTable s tensor
  | none => s

/-- An entry of this module's table changes, if the table is there. -/
def modBlock (s : State) (tensor block : Nat) (f : W64 → W64) : State :=
  match tableOf s tensor with
  | some t => modEntry (touchTable s tensor) t block f
  | none => s

/-- What reading a whole table does. -/
def touchEntries (s : State) (tensor : Nat) : State :=
  match tableOf s tensor with
  | some t => (daRead (touchTable s tensor) (t.da + 64) (8 * t.nblock)).2.2
  | none => s

def touchTables (s : State) : State := s.twin.tables.foldl (fun s p => touchEntries s p.1) s

/-- The entries of a table in order. -/
def entriesOf (s : State) (t : OTable) : List W64 := (List.range t.nblock).map (fun n => (getEntry s t n).1)

/-! ### Sealed regions (R451) -/

/-- The package in whose region a range lies whole: its PKG_ID and PKG_VERSION. -/
def regionPkg (s : State) (da len : Nat) : Option (W32 × W32) :=
  match daSealed s (da % 2 ^ 48) with
  | none => none
  | some k =>
    if (units32 da len).all (fun p => daSealed s (p.1 % 2 ^ 48) == some k) then
      some ((pkgAt s k).id, (pkgAt s k).version)
    else none

/-- R451: a range that touches a sealed region crosses only into the region of the same package at the partner. -/
def mayCross (s : State) (da len : Nat) (peer : Option (W32 × W32)) : Bool :=
  if (units32 da len).any (fun p => (daSealed s (p.1 % 2 ^ 48)).isSome) then
    (regionPkg s da len).isSome && regionPkg s da len == peer
  else true

/-- The package in whose region the partner's slot of a block lies, as the partner last told. -/
def peerPkg (s : State) (tensor block : Nat) : Option (W32 × W32) :=
  match s.twin.peerTables.find? (fun p => p.tensor == tensor) with
  | some p => p.pkgs.getD block none
  | none => none

/-! ### What waits (R62, R80) -/

def tableWaits (s : State) (da : Nat) : Bool := rangeWaits s da (64 + 8 * (headerTable da (daRead s da 64).1).nblock)

/-- The table of a tensor waits. -/
def tensorWaits (s : State) (tensor : Nat) : Bool := s.twin.tables.any (fun p => p.1 == tensor && tableWaits s p.2)

def tablesWait (s : State) : Bool := s.twin.tables.any (fun p => tableWaits s p.2)

/-- A table that is not registered yet waits: its header, and its entries when the header is valid. -/
def newTableWaits (s : State) (da : Nat) : Bool :=
  rangeWaits s da 64 || ((tableFault (daRead s da 64).1).isNone && tableWaits s da)

/-- The data of a block waits. -/
def blockWaits (s : State) (tensor block : Nat) : Bool :=
  match blockOf s tensor block with
  | some (t, e) => eSlot e != noSlot && rangeWaits s (slotDa t (eSlot e)) (blockSize t)
  | none => false

/-- R414: the data of a block that would move waits; a current copy at the partner is not read. -/
def moveWaits (s : State) (tensor block : Nat) : Bool :=
  match blockOf s tensor block with
  | some (_, e) => eOwner e == mySlot s && !eRepl e && blockWaits s tensor block
  | none => false

/-- The tables, or the data of the blocks that the partner asked for and will be sent now, wait. -/
def serveWaits (s : State) : Bool := tablesWait s || s.twin.serve.any (fun x => blockWaits s x.1 x.2.1)

/-- R417 step 3, for one entry. -/
def takeEntry (me peer : Nat) (e : W64) : W64 :=
  let lost := setRepl (setEState e 3) false
  if eState e = 2 ∨ (eState e = 1 ∧ eOwner e = peer) then
    if eOwner e = me ∨ (eRepl e ∧ eSlot e ≠ noSlot) then setRepl (setEState (setOwner e me) 1) false else lost
  else setRepl e false

/-- R417 step 3, for one table. -/
def takeTable (s : State) (me peer da : Nat) : State :=
  let h := daRead s da 64
  let t := headerTable da h.1
  let s := (List.range t.nblock).foldl (fun s n => modEntry s t n (takeEntry me peer)) h.2.2
  daWrite s (fun _ => 2) (da + 28) (leBytes 4 (sliceNat h.1 28 4 + 1)) [false]

/-- The tensor has a LOST block. -/
def hasLost (s : State) (tensor : Nat) : Bool :=
  match tableOf s tensor with
  | some t => (List.range t.nblock).any (fun n => eState (getEntry s t n).1 == 3)
  | none => false

/-- This module holds the block current (R422). -/
def holdsCurrent (me : Nat) (e : W64) : Bool :=
  eSlot e != noSlot && (eState e == 1 || eState e == 2) && (eOwner e == me || eRepl e)

end Sys2Proof.Machine
end

