-- ==== Sys2Proof/Machine/Float.lean ====
section
/-! DEFINITION. Number formats (R131, R132, R187) as exact dyadic values, and the roundings of the quern (R144), the
matrix unit (R238) and the vector engine (R245, R248). -/

namespace Sys2Proof.Machine

open Sys2Proof

/-- A value: NaN, an infinity, or ± m × 2^e exactly. -/
inductive FV where
  | nan
  | inf (neg : Bool)
  | fin (neg : Bool) (m : Nat) (e : Int)
  deriving DecidableEq, Repr

namespace FV

def zero : FV := .fin false 0 0
def one : FV := .fin false 1 0
def ofNat (n : Nat) : FV := .fin false n 0
def ofInt (i : Int) : FV := .fin (decide (i < 0)) i.natAbs 0
def pow2 (e : Int) : FV := .fin false 1 e

def isNan : FV → Bool
  | .nan => true
  | _ => false

def isInf : FV → Bool
  | .inf _ => true
  | _ => false

def isZero : FV → Bool
  | .fin _ 0 _ => true
  | _ => false

def isFin : FV → Bool
  | .fin _ _ _ => true
  | _ => false

def isNeg : FV → Bool
  | .nan => false
  | .inf n => n
  | .fin n _ _ => n

def neg : FV → FV
  | .nan => .nan
  | .inf n => .inf (!n)
  | .fin n m e => .fin (!n) m e

def abs : FV → FV
  | .nan => .nan
  | .inf _ => .inf false
  | .fin _ m e => .fin false m e

/-- The signed integer m × 2^(e − lo) of a finite value, for lo ≤ e. -/
def scaled (n : Bool) (m : Nat) (e lo : Int) : Int :=
  let v : Int := (m * 2 ^ (e - lo).toNat : Nat)
  if n then -v else v

/-- The exact sum; x + (−x) is +0 and −0 + −0 is −0 (IEEE 754, round-to-nearest). -/
def add : FV → FV → FV
  | .nan, _ => .nan
  | _, .nan => .nan
  | .inf a, .inf b => if a = b then .inf a else .nan
  | .inf a, _ => .inf a
  | _, .inf b => .inf b
  | .fin n m e, .fin n' m' e' =>
    if m = 0 ∧ m' = 0 then .fin (n && n') 0 0
    else
      let lo := min e e'
      let v := scaled n m e lo + scaled n' m' e' lo
      .fin (decide (v < 0)) v.natAbs lo

def sub (a b : FV) : FV := add a (neg b)

/-- The exact product; zero × infinity is NaN. -/
def mul : FV → FV → FV
  | .nan, _ => .nan
  | _, .nan => .nan
  | .inf a, .inf b => .inf (a != b)
  | .inf a, .fin n m _ => if m = 0 then .nan else .inf (a != n)
  | .fin n m _, .inf b => if m = 0 then .nan else .inf (n != b)
  | .fin n m e, .fin n' m' e' => .fin (n != n') (m * m') (e + e')

/-- a < b for numbers; false when either is NaN. -/
def lt : FV → FV → Bool
  | .nan, _ => false
  | _, .nan => false
  | .inf a, .inf b => a && !b
  | .inf a, _ => a
  | _, .inf b => !b
  | .fin n m e, .fin n' m' e' =>
    let lo := min e e'
    decide (scaled n m e lo < scaled n' m' e' lo)

/-- Equal as numbers: +0 = −0. -/
def eq (a b : FV) : Bool := !a.isNan && !b.isNan && !lt a b && !lt b a

/-- Larger of two; NaN if either is NaN (R247). -/
def max (a b : FV) : FV := if a.isNan || b.isNan then .nan else if lt a b then b else a

def min' (a b : FV) : FV := if a.isNan || b.isNan then .nan else if lt b a then b else a

end FV

/-! ### Rounding -/

/-- m ÷ 2^k rounded to nearest, ties to even. -/
def rneShift (m k : Nat) : Nat :=
  let q := m / 2 ^ k
  let r := m % 2 ^ k
  if 2 * r > 2 ^ k then q + 1 else if 2 * r = 2 ^ k then q + q % 2 else q

/-- m × 2^e rounded to `p` significant bits with no unit below 2^lo: (mantissa, exponent of its unit). -/
def roundTo (p : Nat) (lo : Int) (m : Nat) (e : Int) : Nat × Int :=
  let len : Int := Nat.log2 m + 1
  let q := max (e + len - p) lo
  if q ≤ e then (m * 2 ^ (e - lo).toNat, lo) else (rneShift m (q - e).toNat, q)

/-- A binary format: precision, exponent of its smallest unit, greatest exponent. -/
structure Fmt where
  p : Nat
  lo : Int
  emax : Int

def fmt32 : Fmt := { p := 24, lo := -149, emax := 127 }
def fmtBf16 : Fmt := { p := 8, lo := -133, emax := 127 }

/-- The exponent of the leading bit of m × 2^e, m ≠ 0. -/
def leadExp (m : Nat) (e : Int) : Int := Nat.log2 m + e

/-- A rounded finite magnitude: its value, and whether it lies beyond the format's range. -/
def roundMag (f : Fmt) (m : Nat) (e : Int) : Nat × Int × Bool :=
  if m = 0 then (0, 0, false)
  else
    let r := roundTo f.p f.lo m e
    (r.1, r.2, decide (r.1 ≠ 0) && decide (leadExp r.1 r.2 > f.emax))

/-- The field bits of a non-negative value that the format holds exactly: `mb` mantissa bits, exponent bias. -/
def encodeMag (mb : Nat) (lo bias : Int) (m : Nat) (e : Int) : Nat :=
  if m = 0 then 0
  else
    let x := leadExp m e
    let unit := max (x - mb) lo
    let mant := if unit ≤ e then m * 2 ^ (e - unit).toNat else m / 2 ^ (unit - e).toNat
    if x < lo + mb then mant else mant - 2 ^ mb + (x + bias).toNat * 2 ^ mb

def sign (n : Bool) (bits : Nat) : Nat := if n then 2 ^ bits else 0

/-- FP32 canonical NaN. -/
def nan32 : W32 := 0x7FC00000

/-- The rounding of a value to FP32, with whether it overflowed to an infinity; `flush` sends subnormal results to
zero of the same sign (R144, R238). -/
def round32 (flush : Bool) : FV → W32 × Bool
  | .nan => (nan32, false)
  | .inf n => (w32 (sign n 31 + 0x7F800000), false)
  | .fin n m e =>
    let r := roundMag fmt32 m e
    if r.2.2 then (w32 (sign n 31 + 0x7F800000), true)
    else if flush && decide (r.1 ≠ 0) && decide (leadExp r.1 r.2.1 < -126) then (w32 (sign n 31), false)
    else (w32 (sign n 31 + encodeMag 23 (-149) 127 r.1 r.2.1), false)

/-! ### Decoding -/

/-- A format with sign, `eb` exponent and `mb` mantissa bits, all codes finite. -/
def decodeFin (eb mb : Nat) (bias : Int) (v : Nat) : FV :=
  let m := v % 2 ^ mb
  let x := v / 2 ^ mb % 2 ^ eb
  let n := v.testBit (eb + mb)
  if x = 0 then .fin n m (1 - bias - mb) else .fin n (2 ^ mb + m) (x - bias - mb)

def dec32 (w : W32) : FV :=
  let v := w.toNat
  if v / 2 ^ 23 % 256 = 255 then (if v % 2 ^ 23 = 0 then .inf (v.testBit 31) else .nan)
  else decodeFin 8 23 127 v

def decBf16 (v : Nat) : FV := dec32 (w32 (v % 65536 * 65536))

/-- OFP8 E4M3: no infinity, NaN at 0x7F and 0xFF. -/
def decE4M3 (v : Nat) : FV := if v % 128 = 127 then .nan else decodeFin 4 3 7 v

/-- OFP8 E5M2. -/
def decE5M2 (v : Nat) : FV :=
  if v / 4 % 32 = 31 then (if v % 4 = 0 then .inf (v.testBit 7) else .nan) else decodeFin 5 2 15 v

def decE2M3 (v : Nat) : FV := decodeFin 2 3 1 v
def decE3M2 (v : Nat) : FV := decodeFin 3 2 3 v
def decE2M1 (v : Nat) : FV := decodeFin 2 1 1 v
def decInt8 (v : Nat) : FV := FV.ofInt (signed 8 v)
/-- MXINT8: value × 2^−6. -/
def decMxInt8 (v : Nat) : FV := (decInt8 v).mul (.pow2 (-6))
/-- An E8M0 scale; 0xFF is NaN. -/
def decE8M0 (v : Nat) : FV := if v % 256 = 255 then .nan else .pow2 ((v % 256 : Nat) - 127)

/-- A BF16 value with subnormals taken as zero (R144). -/
def decBf16Flush (v : Nat) : FV :=
  if v / 128 % 256 = 0 then .fin (v.testBit 15) 0 0 else decBf16 v

/-! ### FP32 arithmetic: each operation rounds once, and says whether it overflowed -/

def add32 (fl : Bool) (a b : W32) : W32 × Bool := round32 fl ((dec32 a).add (dec32 b))
def sub32 (fl : Bool) (a b : W32) : W32 × Bool := round32 fl ((dec32 a).sub (dec32 b))
def mul32 (fl : Bool) (a b : W32) : W32 × Bool := round32 fl ((dec32 a).mul (dec32 b))

/-- The integer square root, by bits. -/
def isqrtN (v : Nat) : Nat → Nat → Nat
  | 0, r => r
  | b + 1, r => if (r + 2 ^ b) * (r + 2 ^ b) ≤ v then isqrtN v b (r + 2 ^ b) else isqrtN v b r

def isqrt (v : Nat) : Nat := isqrtN v (Nat.log2 v / 2 + 1) 0

/-- √a correctly rounded: 64 more bits than FP32 keeps, and a sticky bit (R248). -/
def sqrtFV : FV → FV
  | .nan => .nan
  | .inf n => if n then .nan else .inf false
  | .fin n m e =>
    if m = 0 then .fin n 0 0
    else if n then .nan
    else
      let e' := if e % 2 = 0 then e - 64 else e - 65
      let v := m * 2 ^ (e - e').toNat
      let r := isqrt v
      .fin false (2 * r + (if r * r = v then 0 else 1)) (e' / 2 - 1)

/-- a ÷ b correctly rounded to 64 bits with a sticky bit. -/
def divFV (a b : FV) : FV :=
  match a, b with
  | .nan, _ => .nan
  | _, .nan => .nan
  | .inf x, .inf y => let _ := x != y; .nan
  | .inf x, .fin n _ _ => .inf (x != n)
  | .fin n _ _, .inf y => .fin (n != y) 0 0
  | .fin n m e, .fin n' m' e' =>
    if m' = 0 then (if m = 0 then .nan else .inf (n != n'))
    else
      let q := m * 2 ^ 400 / m'
      .fin (n != n') (2 * q + (if m * 2 ^ 400 % m' = 0 then 0 else 1)) (e - e' - 401)

/-! ### Narrow formats (R238, R245, R254) -/

/-- BF16 of a value: bits, whether a finite value was beyond range. -/
def toBf16 (sat : Bool) : FV → Nat × Bool
  | .nan => (0x7FC0, false)
  | .inf n => (sign n 15 + 0x7F80, false)
  | .fin n m e =>
    let r := roundMag fmtBf16 m e
    if r.2.2 then (sign n 15 + (if sat then 0x7F7F else 0x7F80), true)
    else (sign n 15 + encodeMag 7 (-133) 127 r.1 r.2.1, false)

/-- E4M3: greatest finite 448, NaN beyond range when not saturating; an infinity is beyond range and not finite. -/
def toE4M3 (sat : Bool) : FV → Nat × Bool
  | .nan => (0x7F, false)
  | .inf n => (sign n 7 + 0x7F, false)
  | .fin n m e =>
    let r := roundMag { p := 4, lo := -9, emax := 8 } m e
    let bits := encodeMag 3 (-9) 7 r.1 r.2.1
    if r.2.2 || decide (bits ≥ 127) then (sign n 7 + (if sat then 0x7E else 0x7F), true)
    else (sign n 7 + bits, false)

def toE5M2 (sat : Bool) : FV → Nat × Bool
  | .nan => (0x7F, false)
  | .inf n => (sign n 7 + 0x7C, false)
  | .fin n m e =>
    let r := roundMag { p := 3, lo := -16, emax := 15 } m e
    if r.2.2 then (sign n 7 + (if sat then 0x7B else 0x7C), true)
    else (sign n 7 + encodeMag 2 (-16) 15 r.1 r.2.1, false)

/-- A finite-only format, saturating to its largest value. -/
def toFinite (eb mb : Nat) (bias : Int) (v : FV) : Nat × Bool :=
  match v with
  | .fin n m e =>
    let lo := 1 - bias - mb
    let r := roundMag { p := mb + 1, lo := lo, emax := 2 ^ eb - 1 - bias } m e
    if r.2.2 then (sign n (eb + mb) + (2 ^ (eb + mb) - 1), true)
    else (sign n (eb + mb) + encodeMag mb lo bias r.1 r.2.1, false)
  | _ => (0, false)

/-- The integer nearest to a finite value, ties to even. -/
def rneInt (n : Bool) (m : Nat) (e : Int) : Int :=
  let v : Nat := if 0 ≤ e then m * 2 ^ e.toNat else rneShift m (-e).toNat
  if n then -(v : Int) else v

/-- To an integer range: (value, saturated, was NaN). -/
def toInt (lo hi : Int) : FV → Int × Bool × Bool
  | .nan => (0, false, true)
  | .inf n => (if n then lo else hi, true, false)
  | .fin n m e =>
    let v := rneInt n m e
    if v < lo then (lo, true, false) else if v > hi then (hi, true, false) else (v, false, false)

/-- ⌊log2⌋ of a positive finite value. -/
def floorLog2 : FV → Int
  | .fin _ m e => leadExp m e
  | _ => 0

end Sys2Proof.Machine
end

