-- ==== Sys2Proof/Machine/Approx.lean ====
section
/-! DEFINITION. The functions whose error the spec bounds (R143, R248). Their true values are computed in fixed point with
256 fractional bits, with a bound of the computation's own error; a result of Config that keeps within the spec's bound
is the unit's result, and otherwise the rounded value is (log 6). -/

namespace Sys2Proof.Machine

open Sys2Proof

/-! ### Fixed point -/

/-- 1 in fixed point. -/
def fxOne : Nat := 2 ^ 256

/-- t + t³/3 + t⁵/5 + … from the k-th term on; `p` is t to its power. -/
def atanhTerms : (n k p t2 : Nat) → Nat
  | 0, _, _, _ => 0
  | n + 1, k, p, t2 => p / (2 * k + 1) + atanhTerms n (k + 1) (p * t2 / fxOne) t2

/-- ln((1 + t) ÷ (1 − t)) for t up to 1/3. -/
def lnRatioFx (t : Nat) : Nat := 2 * atanhTerms 84 0 t (t * t / fxOne)

def ln2Fx : Nat := lnRatioFx (fxOne / 3)

/-- The terms rᵏ/k! from the one given on. -/
def expTerms : (n k term r : Nat) → Nat
  | 0, _, _, _ => 0
  | n + 1, k, term, r => term + expTerms n (k + 1) (term * r / fxOne / k) r

/-- A finite value in fixed point, rounded towards zero; magnitudes of 2^10 and more count as 2^10, where every function
here has long left the range of FP32 or reached its limit. -/
def toFx : FV → Int
  | .fin n m e =>
    let v : Nat := if m ≠ 0 ∧ 10 ≤ leadExp m e then 2 ^ 10 * fxOne
      else if 0 ≤ e + 256 then m * 2 ^ (e + 256).toNat else m / 2 ^ (-(e + 256)).toNat
    if n then -(v : Int) else v
  | _ => 0

/-- e^z: a mantissa between 1 and 2 in fixed point, and the power of 2 above it. -/
def expParts (z : Int) : Nat × Int := (expTerms 64 1 fxOne (z % ln2Fx).toNat, z / ln2Fx)

/-- e^(−z) for z ≥ 0 in fixed point. -/
def expNegFx (z : Nat) : Nat :=
  let r := expParts (-(z : Int))
  r.1 / 2 ^ (-r.2).toNat

/-- 1 ÷ (1 + e^(−z)) in fixed point. -/
def sigmoidFx (z : Int) : Nat :=
  let t := expNegFx z.natAbs
  if z < 0 then t * fxOne / (fxOne + t) else fxOne * fxOne / (fxOne + t)

/-! ### True values: the value and the bound of its error -/

structure Near where
  mid : FV
  err : FV

/-- A relative error of 2^−200. -/
def nearRel (x : FV) : Near := { mid := x, err := x.abs.mul (.pow2 (-200)) }

/-- A value in fixed point, times `x`. -/
def nearFx (v : Int) (x : FV := .one) : Near :=
  { mid := (FV.fin (decide (v < 0)) v.natAbs (-256)).mul x, err := x.abs.mul (.pow2 (-216)) }

def nearExp (z : Int) : Near :=
  let r := expParts z
  nearRel (.fin false r.1 (r.2 - 256))

def nearRcp (x : FV) : Near := nearRel (divFV .one x)

/-- The quotient has enough bits for 100 of its root. -/
def nearRsqrt (x : FV) : Near :=
  let r := sqrtFV (divFV .one x)
  { mid := r, err := r.mul (.pow2 (-100)) }

def nearExp2 (x : FV) : Near := nearExp (toFx x * ln2Fx / fxOne)

def nearLog2 : FV → Near
  | .fin _ m e =>
    let k := Nat.log2 m
    let t := (m - 2 ^ k) * fxOne / (m + 2 ^ k)
    nearFx ((k + e) * fxOne + (lnRatioFx t * fxOne / ln2Fx : Nat))
  | x => nearRel x

def nearTanh (x : FV) : Near :=
  let z := toFx x
  let t := expNegFx (2 * z.natAbs)
  let v : Int := ((fxOne - t) * fxOne / (fxOne + t) : Nat)
  nearFx (if z < 0 then -v else v)

def nearSilu (x : FV) : Near := nearFx (sigmoidFx (toFx x)) x

/-- 1 + tanh u is 2 ÷ (1 + e^(−2u)); the two decimal constants of R247 are exact quotients. -/
def nearGelu (x : FV) : Near :=
  let cube := (x.mul x).mul x
  let u := (FV.ofNat 7978846).mul (((FV.ofNat 1000000).mul x).add ((FV.ofNat 44715).mul cube))
  nearFx (sigmoidFx (toFx (divFV ((FV.ofNat 2).mul u) (FV.ofNat (10 ^ 13))))) x

/-! ### Bounds -/

/-- The unit in the last place of FP32 at a value. -/
def ulp32 : FV → FV
  | .fin _ m e => .pow2 (if m = 0 then -149 else max (leadExp m e - 23) (-149))
  | _ => .zero

/-- R248: `ulps` units in the last place, and 2^−24 where that is larger and the function's row allows it. -/
def bound32 (ulps : Nat) (floor : Bool) (x : FV) : FV :=
  let b := (FV.ofNat ulps).mul (ulp32 x)
  if floor && b.lt (.pow2 (-24)) then .pow2 (-24) else b

/-- `v` certainly lies within the bound of the true value; an infinity counts from where FP32 rounds to one. -/
def withinBound (ulps : Nat) (floor : Bool) (near : Near) (v : FV) : Bool :=
  match v with
  | .nan => false
  | .inf n => decide (near.mid.isNeg = n)
      && !((near.mid.abs.add ((FV.ofNat ulps).mul (.pow2 104))).lt (.fin false (2 ^ 25 - 1) 103))
  | _ => !((bound32 ulps floor near.mid).lt ((v.sub near.mid).abs.add near.err))

/-- The unit's result: Config's where it keeps the bound. -/
def bounded (ulps : Nat) (floor : Bool) (near : Near) (free : W32) : W32 :=
  if withinBound ulps floor near (dec32 free) then free else (round32 false near.mid).1

/-- R143: 2^x with a relative error that Config gives in units of 2^−40, kept to 2^−12 (less the error of the computation). -/
def expWithin (x : FV) (units : Int) : FV :=
  let e := max (-(2 ^ 28 - 1)) (min (2 ^ 28 - 1) units)
  let y := (nearExp2 x).mid
  y.add (y.mul (.fin (decide (e < 0)) e.natAbs (-40)))

end Sys2Proof.Machine
end

