-- ==== Sys2Proof/Machine/Engine.lean ====
section
/-! DEFINITION. What the matrix unit and the vector engine share: issue (R210), elements of a region (R187, R293) with
their poison (R188), and the end of an instruction (R240, R251, R262). An engine instruction reads, computes and writes
at its completion (log 5). -/

namespace Sys2Proof.Machine

open Sys2Proof

/-! ### Issue -/

/-- What is wrong with the popped entries: each CAUSE of R221, and its queue (R191, R210). -/
def srcsFaults (f : Fetch) : List (Nat × Nat) :=
  (List.range 3).flatMap (fun i =>
    match srcEntry f.c f.w i with
    | some e => (handleFaults e).map (fun c => (c, iSrc f.w i))
    | none => [])

/-- Payload fields of R241. -/
def vNsel (w : W128) : Bool := bitOf w 64
def vVlp (w : W128) : Nat := fld w 70 65
def vOutm (w : W128) : Nat := fld w 72 71
def vOfmt (w : W128) : Nat := fld w 76 73
def vSat (w : W128) : Bool := bitOf w 77
def vMen (w : W128) : Bool := bitOf w 78
def vMpr (w : W128) : Nat := fld w 84 79
def vMneg (w : W128) : Bool := bitOf w 85
def vMz (w : W128) : Bool := bitOf w 86
def vFd (w : W128) : Nat := fld w 89 87
def vFen (w : W128) : Bool := bitOf w 90
/-- R255 and R259. -/
def vSpb (w : W128) : Nat := fld w 101 96
def vNst (w : W128) : Nat := fld w 104 102 + 1
def vFsrc (w : W128) : Bool := bitOf w 102
/-- R232. -/
def mKb (w : W128) : Nat := fld w 71 64
def mAcc1 (w : W128) : Bool := bitOf w 72
def mZero (w : W128) : Bool := bitOf w 73
def mFin (w : W128) : Bool := bitOf w 74
def mOutfmt (w : W128) : Nat := fld w 76 75
def mSat (w : W128) : Bool := bitOf w 77

/-- The stage words of a VOP or a CHAIN, as they stand at its issue (R246, R255). -/
def stageWords (c : Core) (w : W128) : List W32 :=
  if iClass w = 6 then [iImm w]
  else if iClass w = 7 then (List.range (vNst w)).map (fun i => pGet c (vSpb w + i))
  else []

/-- The instruction as its engine takes it. -/
def engInstr (f : Fetch) (srcs : List (Option W64)) (dsts : List (Option (Nat × Nat))) : EngInstr :=
  { task := f.t, pc := f.task.pc, word := f.w, srcs := srcs, dsts := dsts
    vl := (pGet f.c (vVlp f.w)).toNat, mask := pGet f.c (vMpr f.w)
    fill := if vFsrc f.w then pGet f.c (vSpb f.w) else 0, stages := stageWords f.c f.w }

/-- Issue of a MAT, VEC, CHAIN or PERM instruction: it pops its handles, reserves its slots and joins its engine's
instructions (R189, R210, R237). -/
def engIssue (s : State) (core cls op : Nat) : State :=
  issue s core cls op waitOf (fun s f =>
    match srcsFaults f with
    | x :: r => trapLowest s f (x :: r)
    | [] => retire s f (fun c =>
        let srcs := (List.range 3).map (srcEntry c f.w)
        let r0 := reserveDst (popSources c f.w) f.w 0
        let r1 := reserveDst r0.2 f.w 1
        let e := engInstr f srcs [r0.1, r1.1]
        if cls = 5 then
          { r1.2 with matq := r1.2.matq ++ [e], q14rsv := r1.2.q14rsv + (if op = 0 ∧ mFin f.w then 1 else 0) }
        else { r1.2 with vecq := r1.2.vecq ++ [e] }))

/-! ### Elements -/

/-- Element widths in bits (R187); FMT 0 is a byte. -/
def fmtBits (fmt : Nat) : Nat :=
  match fmt with
  | 1 => 32 | 2 => 16 | 5 => 32 | 7 => 32 | 10 => 6 | 11 => 6 | 12 => 4
  | _ => 8

/-- The value of an element. -/
def fmtValue (fmt v : Nat) : FV :=
  match fmt with
  | 1 => dec32 (w32 v)
  | 2 => decBf16 v
  | 3 => decE4M3 v
  | 4 => decE5M2 v
  | 5 => FV.ofInt (signed 32 v)
  | 6 => decInt8 v
  | 7 => FV.ofNat v
  | 8 => decE4M3 v
  | 9 => decE5M2 v
  | 10 => decE2M3 v
  | 11 => decE3M2 v
  | 12 => decE2M1 v
  | 13 => decMxInt8 v
  | _ => FV.ofNat v

/-- Element i, `w` bits wide, of the array at byte `base` (R293). -/
def elemAt (m : Memory) (base w i : Nat) : Nat :=
  leNat (mread m (base + i * w / 8) ((i * w % 8 + w + 7) / 8)) / 2 ^ (i * w % 8) % 2 ^ w

/-- Element i written. -/
def elemPut (m : Memory) (base w i v : Nat) : Memory :=
  let n := (i * w % 8 + w + 7) / 8
  let a := base + i * w / 8
  let old := leNat (mread m a n)
  let k := i * w % 8
  mwrite m a (leBytes n (old - old / 2 ^ k % 2 ^ w * 2 ^ k + v % 2 ^ w * 2 ^ k))

def elemGet (s : State) (core off w i : Nat) : Nat := elemAt s.scratch (scratchAddr core off) w i

/-- The first and last 32 B lines of element i. -/
def elemLines (off w i : Nat) : Nat × Nat := ((off + i * w / 8) / 32, (off + (i * w + w - 1) / 8) / 32)

def elemPoison (s : State) (core off w i : Nat) : Bool :=
  linePoison s core (elemLines off w i).1 || linePoison s core (elemLines off w i).2

/-- R188: any line of the first `bytes` bytes of a region. -/
def linesPoison (s : State) (core off bytes : Nat) : Bool := anyPoison (regionPoison' s core off bytes)
where
  regionPoison' (s : State) (core off bytes : Nat) : List Bool :=
    (List.range ((bytes + 31) / 32)).map (fun i => linePoison s core (off / 32 + i))

/-- An element to write: its number, its bits, and whether it is poisoned. -/
structure Elem where
  i : Nat
  bits : Nat
  poison : Bool := false

/-- Bits of line `l` that an element covers. -/
def elemCover (off w l i : Nat) : Nat :=
  let a := 8 * off + i * w
  min (a + w) (256 * (l + 1)) - max a (256 * l)

/-- Writes elements; a line takes poison from the elements written in it, and keeps its own unless all of it is
overwritten (R188, R229). -/
def writeElems (s : State) (core off w : Nat) (es : List Elem) : State :=
  let lines := (es.flatMap (fun (e : Elem) => [(elemLines off w e.i).1, (elemLines off w e.i).2])).eraseDups
  let s : State := { s with
    scratch := es.foldl (fun m e => elemPut m (scratchAddr core off) w e.i e.bits) s.scratch }
  lines.foldl (fun s l =>
    let mine := es.filter (fun (e : Elem) => elemCover off w l e.i != 0)
    let full := decide ((mine.map (fun (e : Elem) => elemCover off w l e.i)).sum = 256)
    setLinePoison s core l (mine.any (fun (e : Elem) => e.poison) || (linePoison s core l && !full))) s

def roundUp32 (n : Nat) : Nat := (n + 31) / 32 * 32

/-- Two byte ranges meet. -/
def overlaps (a la b lb : Nat) : Bool :=
  decide (a < b + lb) && decide (b < a + la) && decide (0 < la) && decide (0 < lb)

def handleOverlap (x y : W64) : Bool := overlaps (eOff x) (eLen x) (eOff y) (eLen y)

/-! ### The end of an instruction -/

/-- Bits of CORE_VSTAT (R264). -/
abbrev vsEmpty : Nat := 1
abbrev vsRange : Nat := 2
abbrev vsNan : Nat := 4
abbrev vsOvf : Nat := 8
abbrev vsDivz : Nat := 16
abbrev vsSat : Nat := 32
abbrev vsPoison : Nat := 64
abbrev vsMatNan : Nat := 128
abbrev vsMatOvf : Nat := 256
abbrev vsMatSat : Nat := 512

def orVstat (s : State) (n bits : Nat) : State :=
  regSet s (oCore n cVstat) (regGet s (oCore n cVstat) ||| w32 bits)

def engSrc (e : EngInstr) (i : Nat) : W64 := ((e.srcs[i]?).getD none).getD 0
def engUses (e : EngInstr) (i : Nat) : Bool := ((e.srcs[i]?).getD none).isSome
def engDst (e : EngInstr) (i : Nat) : Option (Nat × Nat) := (e.dsts[i]?).getD none

/-- R262: a failed check; the instruction is over and fills no slot. -/
def engTrap (s : State) (n code : Nat) (e : EngInstr) : State :=
  let s := modCore s n (fun c => qUnreserve (qUnreserve c (engDst e 0)) (engDst e 1))
  settleCore (trapCore s n 9 e.task e.pc (iTag e.word) 0 code) n

/-- The first failed check, in ascending sub-code. -/
def firstFault (checks : List (Nat × Bool)) : Option Nat := (checks.find? (fun c => c.2)).map (fun c => c.1)

end Sys2Proof.Machine
end

