-- ==== Sys2Proof/Machine/Quern.lean ====
section
/-! DEFINITION. The quern's arithmetic (R128–R147): the operation word and its rules, what one column of a stream adds,
the drains, and the exponent step. -/

namespace Sys2Proof.Machine

open Sys2Proof

/-! ### The operation word (R133, R134) -/

def opwOp (w : W128) : Nat := fld w 3 0
def opwWfmt (w : W128) : Nat := fld w 7 4
def opwAfmt (w : W128) : Nat := fld w 9 8
def opwNvec (w : W128) : Nat := fld w 13 10
def opwPlanes (w : W128) : Nat := if opwWfmt w = 10 then 2 else fld w 16 14 + 1
def opwKlen (w : W128) : Nat := fld w 21 17
def opwLsel (w : W128) : Nat := fld w 27 22
def opwPfmt (w : W128) : Bool := bitOf w 28
def opwAscale (w : W128) : Bool := bitOf w 29
def opwCount (w : W128) : Nat := fld w 47 32
def opwTblk (w : W128) : Nat := fld w 51 48
def opwScale (w : W128) : W32 := w32 (fld w 95 64)
def opwZp (w : W128) : Nat := fld w 103 96

/-- Bytes of one activation or query element. -/
def opwEsz (w : W128) : Nat := if opwAfmt w = 2 then 2 else 1

/-- R134: the word breaks a rule, so its job is refused. BF16 vectors of more than 256 elements break none of them (log 73). -/
def opwBad (w : W128) : Bool :=
  let op := opwOp w
  let rsv := decide (op ≥ 4) || fld w 31 30 != 0 || fld w 63 52 != 0 || fld w 127 104 != 0
  if op = 0 then rsv
  else rsv || decide (opwWfmt w ≥ 11) || opwAfmt w == 3
    || (decide (op ≥ 2) && opwWfmt w != 6 && opwWfmt w != 7)
    || (if op = 1 then decide (opwNvec w < 1) || decide (opwNvec w > 4)
        else !([1, 2, 4, 8].contains (opwNvec w)))
    || opwKlen w == 0 || decide (opwKlen w > 16)
    || decide (opwNvec w * opwKlen w * 32 * opwEsz w > 2048)
    || (decide (opwWfmt w ≥ 8) && opwKlen w % 4 != 0)
    || (op == 3 && (opwTblk w == 0 || decide (opwTblk w > 8) || decide (opwNvec w * opwTblk w * 32 > 512)))
    || !(dec32 (opwScale w)).isFin

/-! ### Stream geometry (R136, R141, R298–R300) -/

/-- Data columns of one block, for the formats with E8M0 scales or none. -/
def blockCols (w : W128) : Nat := if opwWfmt w = 0 then 8 else if opwWfmt w ≤ 2 then 12 else 16

/-- R136: the columns of a GEMV tile. -/
def tileCols (w : W128) : Nat :=
  let k := opwKlen w
  if opwWfmt w ≤ 5 then blockCols w * k + (k + 1) / 2
  else if opwWfmt w ≤ 7 then 16 * k
  else k / 4 * (1 + 8 * opwPlanes w)

/-- R141: tokens per block, blocks, and columns of one block area. -/
def blkTokens (w : W128) : Nat := opwTblk w * 32
def attnBlocks (w : W128) : Nat := (opwCount w + blkTokens w - 1) / blkTokens w
def keyCols (w : W128) : Nat := blkTokens w * opwKlen w
def areaCols (w : W128) : Nat := keyCols w + opwKlen w * 32 * opwTblk w

/-- Positions of the whole stream. -/
def streamCols (w : W128) : Nat :=
  match opwOp w with
  | 1 => opwCount w * tileCols w
  | 2 => opwCount w * opwKlen w
  | 3 => attnBlocks w * areaCols w
  | _ => 0

/-- R142: valid tokens of block b. -/
def validTokens (w : W128) (b : Nat) : Nat := min (blkTokens w) (opwCount w - b * blkTokens w)

/-- R142: the first position from p on whose column is read; a column of excluded tokens alone is not. -/
def nextRead (w : W128) (p : Nat) : Nat :=
  if opwOp w = 3 ∧ p < streamCols w then
    let b := p / areaCols w
    let r := p % areaCols w
    let v := validTokens w b
    if r < keyCols w then (if r < v * opwKlen w then p else b * areaCols w + keyCols w)
    else
      let i := (r - keyCols w) % opwTblk w
      if 32 * i < v then p else p + (opwTblk w - i)
  else p

/-- R140: dimensions per drain group, drain groups per block, tokens per score group. -/
def dimsPerGroup (w : W128) : Nat := 64 / opwNvec w
def groupsPerBlock (w : W128) : Nat := (opwKlen w * 32 * opwNvec w + 63) / 64

/-- R140, R147: the units of a whole stream. -/
def streamUnits (w : W128) : Nat :=
  match opwOp w with
  | 1 => 8 * opwCount w
  | 2 => 8 * ((opwCount w + dimsPerGroup w - 1) / dimsPerGroup w) + 2
  | 3 => max (attnBlocks w) 1 * (2 + 8 * groupsPerBlock w)
  | _ => 0

/-! ### Values -/

def negInf32 : W32 := 0xFF800000

/-- An FP8 or BF16 activation, query or weight byte. -/
def dec8 (e5m2 : Bool) (b : Nat) : FV := if e5m2 then decE5M2 b else decE4M3 b

/-- Element k of latched vector v (R132); BF16 subnormals are zero (R144). -/
def latchElem (q : Quern) (v k : Nat) : FV :=
  let w := q.word
  let a := (v * opwKlen w * 32 + k) * opwEsz w
  if opwAfmt w = 2 then decBf16Flush (leNat (mread q.latch a 2)) else dec8 (opwAfmt w == 1) (mget q.latch a).toNat

/-- Bits of a packed string (R293). -/
def packed (bs : List Byte) (width i : Nat) : Nat := leNat bs / 2 ^ (i * width) % 2 ^ width

/-- Element i of one weight row of a block. -/
def weightElem (wfmt : Nat) (row : List Byte) (i : Nat) : FV :=
  match wfmt with
  | 0 => decE2M1 (packed row 4 i)
  | 1 => decE2M3 (packed row 6 i)
  | 2 => decE3M2 (packed row 6 i)
  | 3 => decE4M3 (packed row 8 i)
  | 4 => decE5M2 (packed row 8 i)
  | 5 => decMxInt8 (packed row 8 i)
  | 6 => decE4M3 (packed row 8 i)
  | _ => decE5M2 (packed row 8 i)

/-- The exact sum of a list of products, in order; a sum of negative zeros alone is +0 (log 83). -/
def sumFV (l : List FV) : FV := l.foldl FV.add .zero

/-- R144: the partial of one weight row of a block against one vector. -/
def rowPartial (q : Quern) (row : List Byte) (v k0 : Nat) : FV :=
  sumFV ((List.range 32).map (fun i => (weightElem (opwWfmt q.word) row i).mul (latchElem q v (k0 + i))))

/-! ### Effects on a quern -/

/-- A quern with the drain groups and headers that held a NaN, or left poisoned, in this step (R150). -/
structure QStep where
  q : Quern
  nan : Nat := 0
  poi : Nat := 0

def setFlag (q : Quern) (b : Bool) (i : Nat) : Quern :=
  if b then { q with flags := setFld q.flags i i 1 } else q

/-- R144: a partial is rounded once, then added into entry n, with subnormal results flushed. -/
def addAcc (q : Quern) (n : Nat) (p : FV) : Quern :=
  let r := round32 true p
  let a := add32 true (tget 0 q.acc n) r.1
  setFlag { q with acc := tset 0 n a.1 q.acc } (r.2 || a.2) 1

def isNan32 (w : W32) : Bool := (dec32 w).isNan

/-- R138, R140: values leave as 32 B units with one poison flag. -/
def sendVals (st : QStep) (vals : List W32) (poison : Bool) : QStep :=
  let units := (chunks 8 vals).map (fun vs => ({ vals := vs, poison := poison } : TUnit))
  let nan := vals.any isNan32
  let q := setFlag (setFlag { st.q with drain := st.q.drain ++ units, sent := st.q.sent + units.length } nan 0) poison 3
  { q := q, nan := st.nan + b2n nan, poi := st.poi + b2n poison }

/-- R144: SCALE, or the product SCALE × ASCALE[v] rounded. -/
def outScale (q : Quern) (v : Nat) : W32 × Bool :=
  if opwAscale q.word then mul32 true (opwScale q.word) (tget 0x3F800000 q.ascale v) else (opwScale q.word, false)

/-- R138, R140: the drain copy of a GEMV tile. -/
def gemvDrain (q : Quern) : QStep :=
  let w := q.word
  let outs := (List.range 64).map (fun n =>
    let v := n / 16
    if v < opwNvec w then
      let sc := outScale q v
      let r := mul32 true (tget 0 q.acc n) sc.1
      (r.1, r.2 || sc.2)
    else ((0 : W32), false))
  let q := setFlag { q with acc := [] } (outs.any (·.2)) 1
  let st := sendVals { q := q } (outs.map (·.1)) (q.tilePoison || q.streamPoison)
  { st with q := { st.q with tilePoison := false } }

/-- R136, R298, R299: one column of a GEMV tile, at position p within the tile. An unsigned plane weight is its integer minus
ZP before it is multiplied (log 73). -/
def gemvColumn (q : Quern) (p : Nat) (bytes : List Byte) : Quern :=
  let w := q.word
  let f := opwWfmt w
  let vs := List.range (opwNvec w)
  if f ≤ 5 then
    let dc := blockCols w
    let u := p / (1 + 2 * dc)
    let r := p % (1 + 2 * dc)
    if r = 0 then { q with scaleCol := bytes, planes := [] }
    else
      let b := 2 * u + (r - 1) / dc
      let c := (r - 1) % dc
      let half := (r - 1) / dc * 16
      let scale := fun (row : Nat) => decE8M0 (leNat [q.scaleCol.getD (half + row) 0])
      let rows : List (Nat × List Byte) :=
        if f = 0 then [(2 * c, bytes.take 16), (2 * c + 1, bytes.drop 16)]
        else if f ≤ 2 then
          if c % 3 = 2 then
            (List.range 4).map (fun i => (4 * (c / 3) + i, ((q.planes ++ bytes).drop (24 * i)).take 24))
          else []
        else [(c, bytes)]
      let q := { q with planes := if f = 1 ∨ f = 2 then (if c % 3 = 2 then [] else q.planes ++ bytes) else [] }
      rows.foldl (fun q x => vs.foldl (fun q v =>
        addAcc q (v * 16 + x.1) ((rowPartial q x.2 v (32 * b)).mul (scale x.1))) q) q
  else if f ≤ 7 then
    let b := p / 16
    let row := p % 16
    vs.foldl (fun q v => addAcc q (v * 16 + row) (rowPartial q bytes v (32 * b))) q
  else
    let planes := opwPlanes w
    let g := p / (1 + 8 * planes)
    let r := p % (1 + 8 * planes)
    if r = 0 then { q with scaleCol := bytes, planes := [] }
    else if r < 8 * planes then { q with planes := q.planes ++ bytes }
    else
      let all := q.planes ++ bytes
      let plane := (List.range planes).map (fun pl => leNat ((all.drop (256 * pl)).take 256))
      let weight := fun (row i : Nat) =>
        let bits := plane.map (fun v => v.testBit (128 * row + i))
        if f = 10 then
          (if bits.getD 0 false then (if bits.getD 1 false then FV.ofInt (-1) else FV.ofInt 1) else FV.zero)
        else if f = 9 then FV.ofInt ((ofBitsQ bits : Nat) - (opwZp w : Nat))
        else if planes = 1 then (if bits.getD 0 false then FV.ofInt 1 else FV.ofInt (-1))
        else FV.ofInt (signed planes (ofBitsQ bits))
      let q := { q with planes := [] }
      (List.range 16).foldl (fun q row => vs.foldl (fun q v =>
        let part := sumFV ((List.range 128).map (fun i => (weight row i).mul (latchElem q v (128 * g + i))))
        addAcc q (v * 16 + row) (part.mul (decBf16 (leNat ((q.scaleCol.drop (2 * row)).take 2))))) q) q
where
  /-- The number whose bit j is the j-th flag. -/
  ofBitsQ (l : List Bool) : Nat := l.foldr (fun b a => b2n b + 2 * a) 0

/-- 2^x of the exponent unit (R143): its special values are fixed, and its relative error is free within 2^−12
(log 6); the result is an FP32 number, and ATTN rounds it again to PFMT (log 83). -/
def expUnit (x : W32) : W32 :=
  match dec32 x with
  | .nan => nan32
  | .inf n => if n then 0 else (round32 true (.inf false)).1
  | v => (round32 true (expWithin v (Config.expError x))).1

/-- R144: greater of two scores; NaN propagates. -/
def max32 (a b : W32) : W32 := (round32 true (FV.max (dec32 a) (dec32 b))).1

/-- R130: the online update of m and l of one query by one score. -/
def softmaxStep (q : Quern) (i : Nat) (s : W32) : Quern :=
  let m := tget negInf32 q.m i
  let l := tget 0 q.l i
  let mn := max32 m s
  let d1 := sub32 true m mn
  let d2 := sub32 true s mn
  let t1 : W32 × Bool := if m = negInf32 then (0, false) else mul32 true l (expUnit d1.1)
  let t2 : W32 := if s = negInf32 ∧ m = negInf32 then 0 else expUnit d2.1
  let sum := add32 true t1.1 t2
  setFlag { q with m := tset negInf32 i mn q.m, l := tset 0 i sum.1 q.l } (d1.2 || d2.2 || t1.2 || sum.2) 1

/-- The softmax header (R140). -/
def headerVals (q : Quern) : List W32 :=
  (List.range 8).map (fun i => if i < opwNvec q.word then tget negInf32 q.m i else negInf32)
    ++ (List.range 8).map (fun i => if i < opwNvec q.word then tget 0 q.l i else 0)

/-- R146 EMPTY: a stream or block with a query whose m is −∞. -/
def emptyHeader (q : Quern) : Bool := (List.range (opwNvec q.word)).any (fun i => tget negInf32 q.m i == negInf32)

/-- One key column (R300): the partials of every query; `t` is the place of the token's sums. -/
def keyColumn (q : Quern) (stride t kb : Nat) (bytes : List Byte) : Quern :=
  (List.range (opwNvec q.word)).foldl (fun q v => addAcc q (v * stride + t) (rowPartial q bytes v (32 * kb))) q

/-- The scaled score of a token whose last key column has been added (R144). -/
def finishScore (q : Quern) (v stride t : Nat) : Quern × W32 :=
  let r := mul32 true (tget 0 q.acc (v * stride + t)) (opwScale q.word)
  (setFlag { q with acc := tset 0 (v * stride + t) 0 q.acc } r.2 1, r.1)

/-- R130, R140: one column of a SCORE stream at position p. -/
def scoreColumn (q : Quern) (p : Nat) (bytes : List Byte) : QStep :=
  let w := q.word
  let g := dimsPerGroup w
  let t := p / opwKlen w
  let kb := p % opwKlen w
  let q := keyColumn q g (t % g) kb bytes
  if kb + 1 < opwKlen w then { q := q }
  else
    let q := (List.range (opwNvec w)).foldl (fun q v =>
      let r := finishScore q v g (t % g)
      softmaxStep { r.1 with scores := tset negInf32 (v * g + t % g) r.2 r.1.scores } v r.2) q
    if t % g = g - 1 ∨ t + 1 = opwCount w then
      let st := sendVals { q := q } ((List.range 64).map (tget negInf32 q.scores)) (q.tilePoison || q.streamPoison)
      let st := { st with q := { st.q with scores := [], tilePoison := false } }
      if t + 1 = opwCount w then
        sendVals { st with q := setFlag st.q (emptyHeader st.q) 2 } (headerVals st.q) (st.q.blockPoison || st.q.streamPoison)
      else st
    else { q := q }

/-- R141: the key step of an ATTN block: its score is kept, and m follows. -/
def attnKey (q : Quern) (r : Nat) (bytes : List Byte) : Quern :=
  let w := q.word
  let tb := blkTokens w
  let t := r / opwKlen w
  let kb := r % opwKlen w
  let q := keyColumn q tb t kb bytes
  if kb + 1 < opwKlen w then q
  else (List.range (opwNvec w)).foldl (fun q v =>
    let x := finishScore q v tb t
    { x.1 with
      scores := tset 0 (v * tb + t) x.2 x.1.scores
      m := tset negInf32 v (max32 (tget negInf32 x.1.m v) x.2) x.1.m }) q

/-- R143: p rounded to PFMT, as FP32; a BF16 subnormal is +0. -/
def roundP (bf16 : Bool) (e : W32) : W32 :=
  if bf16 then
    let b := (toBf16 false (dec32 e)).1
    (round32 true (decBf16Flush b)).1
  else (round32 true (decE4M3 (toE4M3 false (dec32 e)).1)).1

/-- R141, R143, R145: the exponent step of block b: p, l in token order, and the header. -/
def exponentStep (q : Quern) (b : Nat) : QStep :=
  let w := q.word
  let tb := blkTokens w
  let v := validTokens w b
  let q := (List.range (opwNvec w)).foldl (fun q i =>
    let m := tget negInf32 q.m i
    (List.range v).foldl (fun q t =>
      let d := sub32 true (tget 0 q.scores (i * tb + t)) m
      let p := if m = negInf32 then (0 : W32) else roundP (opwPfmt w) (expUnit d.1)
      let l := add32 true (tget 0 q.l i) p
      setFlag { q with scores := tset 0 (i * tb + t) p q.scores, l := tset 0 i l.1 q.l }
        ((decide (m ≠ negInf32) && d.2) || l.2) 1) q) q
  sendVals { q := setFlag q (emptyHeader q) 2 } (headerVals q) (q.blockPoison || q.streamPoison)

/-- R141, R300: one value column of an ATTN block, rv positions into the value area. R145: a query whose m is −∞ has o = +0,
whatever the values are. -/
def attnValue (q : Quern) (b rv : Nat) (bytes : List Byte) : QStep :=
  let w := q.word
  let tb := blkTokens w
  let v := validTokens w b
  let j := rv / opwTblk w
  let i := rv % opwTblk w
  let dg := dimsPerGroup w
  let q := (List.range (opwNvec w)).foldl (fun q x =>
    let part := if tget negInf32 q.m x = negInf32 then .zero else
      sumFV (((List.range 32).filter (fun n => decide (32 * i + n < v))).map (fun n =>
        (dec8 (opwWfmt w == 7) (bytes.getD n 0).toNat).mul (dec32 (tget 0 q.scores (x * tb + 32 * i + n)))))
    addAcc q (x * dg + j % dg) part) q
  let lastOfDim := decide (32 * (i + 1) ≥ v)
  if lastOfDim && (j % dg == dg - 1 || j + 1 == opwKlen w * 32) then
    let st := sendVals { q := q } ((List.range 64).map (tget 0 q.acc)) (q.blockPoison || q.streamPoison)
    let q := { st.q with acc := [] }
    { st with q := if j + 1 = opwKlen w * 32 then { q with m := [], l := [], scores := [], blockPoison := false } else q }
  else { q := q }

/-- Whether a drain copy falls due with the column at position p (R138, R139). -/
def drainDue (w : W128) (p : Nat) : Bool :=
  match opwOp w with
  | 1 => p % tileCols w == tileCols w - 1
  | 2 =>
    let t := p / opwKlen w
    p % opwKlen w == opwKlen w - 1 && (t % dimsPerGroup w == dimsPerGroup w - 1 || t + 1 == opwCount w)
  | 3 =>
    let r := p % areaCols w
    if r < keyCols w then false
    else
      let j := (r - keyCols w) / opwTblk w
      let i := (r - keyCols w) % opwTblk w
      decide (32 * (i + 1) ≥ validTokens w (p / areaCols w))
        && (j % dimsPerGroup w == dimsPerGroup w - 1 || j + 1 == opwKlen w * 32)
  | _ => false

/-- R135, R147: a column at position p, uncorrectable or poisoned or not. The state and the position are the caller's. -/
def quernColumn (q : Quern) (p : Nat) (bytes : List Byte) (bad : Bool) : QStep :=
  let w := q.word
  let q := { q with tilePoison := q.tilePoison || bad, blockPoison := q.blockPoison || bad }
  match opwOp w with
  | 1 =>
    let q := gemvColumn q (p % tileCols w) bytes
    if p % tileCols w = tileCols w - 1 then gemvDrain q else { q := q }
  | 2 => scoreColumn q p bytes
  | 3 =>
    let r := p % areaCols w
    if r < keyCols w then { q := attnKey q r bytes } else attnValue q (p / areaCols w) (r - keyCols w) bytes
  | _ => { q := q }

/-- The last key column of a block has been read: the exponent step follows (R141, R148). -/
def atExponent (w : W128) (p : Nat) : Bool :=
  opwOp w == 3 && (let r := p % areaCols w
    decide (r < keyCols w) && r + 1 == validTokens w (p / areaCols w) * opwKlen w)

/-- R147: what a stream with COUNT 0 sends. -/
def emptyStream (q : Quern) : QStep :=
  let q := setFlag q true 2
  match opwOp q.word with
  | 2 => sendVals { q := q } (headerVals q) q.streamPoison
  | 3 =>
    let st := sendVals { q := q } (headerVals q) q.streamPoison
    (List.range (groupsPerBlock q.word)).foldl (fun st _ => sendVals st (List.replicate 64 0) q.streamPoison) st
  | _ => { q := q }

/-- R157: an owed unit as the tree supplies it: +0 poisoned, or, in MERGE, an empty header unit poisoned. -/
def owedUnit (mergeMode : Bool) (w : W128) (i : Nat) : TUnit :=
  if mergeMode && i % (2 + 8 * groupsPerBlock w) == 0 then { vals := List.replicate 8 negInf32, poison := true }
  else { vals := List.replicate 8 0, poison := true }

end Sys2Proof.Machine
end

