-- ==== Sys2Proof/Machine/Tree.lean ====
section
/-! DEFINITION. What leaves a quern (R138–R140), the tailrace tree that takes it (R162–R164, R520), and the units that
the tree supplies in place of a quern (R157, R172). -/

namespace Sys2Proof.Machine

open Sys2Proof

/-- The banks of a BMASK, ascending (R154). -/
def maskBanks (m : W64) : List Nat := (List.range 64).filter (bitOf m)

/-- R163: a bank's rank in a BMASK. -/
def rankIn (m : W64) (w : Nat) : Nat := ((maskBanks m).takeWhile (· != w)).length

/-- The quern that serves working bank w. -/
def quernOf (s : State) (k c w : Nat) : Quern := quernAt s k c (quernBank s k c w)

def modQuernOf (s : State) (k c w : Nat) (f : Quern → Quern) : State := modQuern s k c (quernBank s k c w) f

/-- The trees of a channel, by number in order of their TREE commands. -/
def treeAt (s : State) (k c t : Nat) : Option TreeSt := (chanAt s k c).trees[t]?

def modTree (s : State) (k c t : Nat) (f : TreeSt → TreeSt) : State :=
  modChan s k c (fun ch => { ch with trees := ch.trees.modify t f })

/-- R163: the stream of a tree with a number. -/
def streamAt (t : TreeSt) (sid : Nat) : TStream := t.streams.getD sid { rank := 0, base := 0, units := 0 }

/-- R162: the input buffer of a contributor holds 16 units that no output has used. -/
def treeRoom (t : TreeSt) (rank : Nat) : Bool :=
  decide ((t.inputs.filter (fun x =>
    let st := streamAt t x.1
    st.rank == rank && decide (st.base + st.used ≤ x.2.1))).length < 16)

/-- R163: the trees that a new OPW on a bank may send to: the latest whose BMASK holds it. -/
def treeFor (ch : Chan) (w : Nat) : Option Nat :=
  (((List.range ch.trees.length).filter (fun i =>
    match ch.trees[i]? with | some t => bitOf t.mask w | none => false)).getLast?)

/-! ### Flags and counts of a quern -/

/-- R146: the job's flags are the OR of its querns' flags. -/
def jobFlags (s : State) (id : Option Nat) (f : BitVec 8) : State :=
  match id with
  | some id => modJob s id (fun j => { j with flags := j.flags ||| f })
  | none => s

/-- A quern after a step, with what the step counts (R150). -/
def applyStep (s : State) (k c w : Nat) (st : QStep) : State :=
  let s := modQuernOf s k c w (fun _ => st.q)
  let s := countBy (countBy s (oQrn k qNan) st.nan) (oQrn k qPoison) st.poi
  jobFlags s (chanAt s k c).job st.q.flags

/-- R154: a precharge of a working bank; an owed refresh stays owed. -/
def prechargeBank (s : State) (k c w : Nat) : State :=
  let b := quernBank s k c w
  setBank s k c b { bankAt s k c b with openRow := none, streak := 0 }

/-- R148: a quern whose last unit has left is IDLE; R150 counts its stream, R154 PRE precharges its bank. -/
def quernIdle (s : State) (k c w : Nat) : State :=
  let q := quernOf s k c w
  let whole := decide (streamCols q.word ≤ nextRead q.word q.col)
  let s := modQuernOf s k c w (fun _ => {})
  let s := noteStreamFlags (countIf s whole (oQrn k qStream)) k q
  if q.pre then prechargeBank s k c w else s

/-- R138, R162: units leave while the tree takes them. -/
def pumpN (k c w : Nat) : (fuel : Nat) → State → State
  | 0, s => s
  | f + 1, s =>
    let q := quernOf s k c w
    match q.drain with
    | [] => if q.st = .finish then quernIdle s k c w else s
    | u :: rest =>
      match treeAt s k c q.tree with
      | none => s
      | some t =>
        if treeRoom t q.rank then
          let n := q.base + (q.sent - q.drain.length)
          let s := modTree s k c q.tree (fun t => { t with inputs := t.inputs ++ [(q.sid, n, u)] })
          pumpN k c w f (modQuernOf s k c w (fun q => { q with drain := rest }))
        else s

def pump (s : State) (k c w : Nat) : State := pumpN k c w ((quernOf s k c w).drain.length + 1) s

/-- Every quern of the entry sends what the trees now take. -/
def pumpAll (s : State) (k c : Nat) : State :=
  (chanAt s k c).entryBanks.foldl (fun s w => pump s k c w) s

/-! ### Units supplied in place of a quern (R157, R172) -/

def isMerge (s : State) (k c t : Nat) : Bool :=
  match treeAt s k c t with | some t => t.mode == 1 | none => false

/-- R157: the tree supplies the units of a stream from `sent` on, poisoned; the job sets POISON. -/
def supplyUnits (s : State) (k c : Nat) (q : Quern) (sent : Nat) : State :=
  let merge := isMerge s k c q.tree
  let units := (List.range (streamUnits q.word - sent)).map (fun i =>
    (q.sid, q.base + sent + i, owedUnit merge q.word (sent + i)))
  jobFlag (modTree s k c q.tree (fun t => { t with inputs := t.inputs ++ units })) (chanAt s k c).job 3

/-- R157: a short quern goes to FINISH with the units that it still owes supplied poisoned. -/
def shorten (s : State) (k c w : Nat) : State :=
  let q := quernOf s k c w
  let merge := isMerge s k c q.tree
  let units := (List.range (streamUnits q.word - q.sent)).map (fun i => owedUnit merge q.word (q.sent + i))
  let s := modQuernOf s k c w (fun q => { q with
    st := .finish, drain := q.drain ++ units, sent := max q.sent (streamUnits q.word), feeds := [], stalled := false })
  let s := jobFlag s (chanAt s k c).job 3
  pump (modChan s k c (fun ch => { ch with short := true })) k c w

/-- R157: the quern has consumed every column fed and still needs columns; `force`: it is short in LOAD, STREAM or HELD
wherever it stands (R332, R520). -/
def isShort (q : Quern) (force : Bool) : Bool :=
  (match q.st with
    | .stream => true
    | .held => true
    | .load => force
    | _ => false) && (force || q.feeds.isEmpty)

def endShort (s : State) (k c : Nat) (banks : List Nat) (force : Bool) : State :=
  banks.foldl (fun s w => if isShort (quernOf s k c w) force then shorten s k c w else s) s

/-- A SYNC or END that waits ends a quern whose columns have run out (R154 SYNC, R157). -/
def settleSync (s : State) (k c w : Nat) : State :=
  let ch := chanAt s k c
  if (ch.seq = .syncWait ∨ ch.seq = .ending) ∧ bitOf ch.syncMask w then endShort s k c [w] false else s

/-- A working bank leaves its channel's streams (R168). -/
def dropStream (ch : Chan) (w : Nat) : Chan :=
  { ch with streaming := ch.streaming.filter (· != w), admission := ch.admission.filter (· != w) }

/-- R172, R114: a quern is isolated: its bank is released, and the tree supplies what it still owed. -/
def isolateQuern (s : State) (k c w : Nat) : State :=
  let q := quernOf s k c w
  let busy := match q.st with
    | .load => true | .stream => true | .held => true | .exp => true | .finish => true
    | _ => false
  let s := if busy then noteStreamFlags (supplyUnits s k c q (q.sent - q.drain.length)) k q else s
  let s := if (chanAt s k c).streaming.contains w then prechargeBank s k c w else s
  let s := modChan s k c (fun ch => dropStream ch w)
  modQuernOf s k c w (fun _ => { st := .isolated })

/-! ### Output units (R163, R164) -/

/-- R163: the DA of an output unit. -/
def unitDa (s : State) (k c : Nat) (t : TreeSt) (rank n : Nat) : Nat :=
  let areg := match (chanAt s k c).job.bind (jobAt s) with
    | some j => j.areg.getD t.areg 0
    | none => 0
  (areg + c * t.cstride + (if t.mode = 2 then rank * t.bstride else 0) + 32 * n) % 2 ^ 48

/-- An input of a stream, by unit number. -/
def inputOf (t : TreeSt) (sid n : Nat) : Option TUnit :=
  (t.inputs.find? (fun x => x.1 == sid && x.2.1 == n)).map (·.2.2)

/-- An output unit: its rank (PASS) and number, values, poison and overflow. -/
structure TOut where
  rank : Nat := 0
  n : Nat
  vals : List W32
  poison : Bool
  ovf : Bool := false

/-- R163: the streams that still owe a unit, by number. -/
def openStreams (t : TreeSt) : List Nat :=
  (List.range t.streams.length).filter (fun i => decide ((streamAt t i).used < (streamAt t i).units))

/-- R163: the number of the next output unit: the lowest that a stream still owes. -/
def nextUnit (t : TreeSt) : Nat :=
  let next := fun i => (streamAt t i).base + (streamAt t i).used
  (openStreams t).foldl (fun a i => min a (next i)) (next ((openStreams t).headD 0))

/-- The streams that owe unit n next (R163). -/
def owing (t : TreeSt) (n : Nat) : List Nat :=
  (openStreams t).filter (fun i => (streamAt t i).base + (streamAt t i).used == n)

/-- The contributors of the phase (R163). -/
def contributors (t : TreeSt) : List Nat := (t.streams.map (·.rank)).eraseDups

/-- SUM: the inputs of unit n in order of arrival, two at a time (R164); an IDLE contributor adds +0. -/
def sumUnit (t : TreeSt) : Option TOut :=
  let n := nextUnit t
  let need := owing t n
  let ins := t.inputs.filter (fun x => x.2.1 == n && need.contains x.1)
  if need.isEmpty || !need.all (fun i => (inputOf t i n).isSome) then none
  else
    let here := (need.map (fun i => (streamAt t i).rank)).eraseDups
    let zero : List W32 := if here.length < (contributors t).length then [0] else []
    let lanes := (List.range 8).map (fun i =>
      match ins.map (fun x => x.2.2.vals.getD i 0) ++ zero with
      | [] => ((0 : W32), false)
      | v :: vs => vs.foldl (fun a b => let r := add32 true a.1 b; (r.1, a.2 || r.2)) (v, false))
    some { n := n, vals := lanes.map (·.1), poison := ins.any (fun x => x.2.2.poison), ovf := lanes.any (·.2) }

/-- R130, R164: the combination of partials (m, l or o) against their greatest m; an empty one contributes nothing. -/
def combineParts (parts : List (W32 × W32)) : W32 × Bool :=
  match parts.filter (fun p => p.1 != negInf32) with
  | [] => (0, false)
  | [p] => (p.2, false)
  | ps =>
    let m := ps.foldl (fun a p => max32 a p.1) negInf32
    ps.foldl (fun (a : W32 × Bool × Bool) p =>
      let d := sub32 true p.1 m
      let t := mul32 true p.2 (expUnit d.1)
      if a.2.2 then (t.1, d.2 || t.2, false)
      else
        let r := add32 true a.1 t.1
        (r.1, a.2.1 || d.2 || t.2 || r.2, false)) ((0 : W32), false, true) |> fun a => (a.1, a.2.1)

/-- Units of one block under MERGE (R140). -/
def mergeBlock (t : TreeSt) : Nat := 2 + 8 * t.groups

/-- The first unit of the block that unit n belongs to. -/
def blockFirst (t : TreeSt) (n : Nat) : Nat := t.base + (n - t.base) / mergeBlock t * mergeBlock t

/-- MERGE: the unit in turn of block j (R163). -/
def mergeUnit (t : TreeSt) : Option TOut :=
  let n := nextUnit t
  let b0 := blockFirst t n
  let pos := n - b0
  let need := owing t n
  if need.isEmpty
      || !need.all (fun r => (inputOf t r b0).isSome && (inputOf t r (b0 + 1)).isSome && (inputOf t r n).isSome) then none
  else
    let val := fun (r u i : Nat) => ((inputOf t r u).map (fun x => x.vals.getD i 0)).getD 0
    let lanes := (List.range 8).map (fun i =>
      if pos = 0 then (need.foldl (fun a r => max32 a (val r b0 i)) negInf32, false)
      else
        let q := if pos = 1 then i else ((pos - 2) % 8 * 8 + i) / (64 / t.nvec)
        combineParts (need.map (fun r => (val r b0 q, val r n i))))
    some { n := n, vals := lanes.map (·.1), ovf := lanes.any (·.2)
           poison := t.inputs.any (fun x => need.contains x.1 && decide (b0 ≤ x.2.1)
             && (decide (x.2.1 ≤ n) || decide (x.2.1 ≤ b0 + 1)) && x.2.2.poison) }

/-- PASS: the unit that arrived first (R163). -/
def passUnit (t : TreeSt) : Option TOut :=
  match t.inputs with
  | [] => none
  | (i, n, u) :: _ => some { rank := (streamAt t i).rank, n := n, vals := u.vals, poison := u.poison }

def treeOut (t : TreeSt) : Option TOut :=
  if t.mode = 0 then sumUnit t else if t.mode = 1 then mergeUnit t else passUnit t

/-- The tree after an output unit: the streams that gave it have used it, and used inputs leave; MERGE keeps a block's
headers and poisoned units to its end. -/
def treeAfter (t : TreeSt) (o : TOut) : TreeSt :=
  let gave := if t.mode = 2 then (t.inputs.take 1).map (·.1) else owing t o.n
  let b0 := blockFirst t o.n
  let leaves : Nat × Nat × TUnit → Bool := fun x =>
    if t.mode ≠ 1 then x.2.1 == o.n
    else if o.n + 1 = b0 + mergeBlock t then decide (x.2.1 ≤ o.n)
    else x.2.1 == o.n && decide (b0 + 1 < o.n) && !x.2.2.poison
  { t with
    inputs := if t.mode = 2 then t.inputs.drop 1 else t.inputs.filter (fun x => !(gave.contains x.1 && leaves x))
    emitted := t.emitted + 1
    streams := t.streams.zipIdx.map (fun p => if gave.contains p.2 then { p.1 with used := p.1.used + 1 } else p.1) }

/-- R332, R333: one flag for each 32 B unit of DA space that 32 bytes at a DA touch. -/
def unitFlags (da : Nat) (p : Bool) : List Bool := if da % 32 = 0 then [p] else [p, p]

/-- R520: a tailrace unit whose destination the far path refuses. -/
def unitRefused (s : State) (auth : Option (Fin 4)) (da : Nat) : Bool :=
  rangeError s da 32 || rangeSealRefused s auth da 32 true

/-- TREE_OUTPUT_UNIT (R164, R162, R520): the unit leaves for its DA, as a request of the sequencer on port 3, or port 2 of
another stack; a refused one is lost. The tree's output is refused while the tailrace output queue is full. -/
def treeOutputUnit (stack : Fin 12) (chan : Fin 32) (tree : Nat) (s : State) : State :=
  let k := stack.val
  let c := chan.val
  match treeAt s k c tree with
  | none => s
  | some t =>
    match treeOut t with
    | none => s
    | some o =>
      let da := unitDa s k c t o.rank o.n
      let job := (chanAt s k c).job
      let auth := (job.bind (jobAt s)).bind (·.auth)
      if 16 ≤ unitsWaiting s k c ∨ windowWaits s da 32 true then s
      else
        let s := modTree s k c tree (fun t => treeAfter t o)
        let s := if o.ovf then jobFlag s (chanAt s k c).job 1 else s
        let s := if o.poison then jobFlag s (chanAt s k c).job 3 else s
        let s :=
          if rangeError s da 32 then modChan s k c (fun ch => { ch with tailErr := true })
          else if rangeSealRefused s auth da 32 true then
            modChan (sealedRefuse s 2 (chanUnit k c) da (chanTag s k c)) k c (fun ch => { ch with tailErr := true })
          else caused s (chanTag s k c) 0xFFF (fun s => unitWrite s k c (job.getD 0) da (o.vals.flatMap (fun v => leBytes 4 v.toNat)) (unitFlags da o.poison))
        pumpAll s k c

/-- TAILRACE_ADDR_ERROR (R520): the channel ends the entry as at END. -/
def tailraceAddrError (stack : Fin 12) (chan : Fin 32) (s : State) : State :=
  let ch := chanAt s stack chan
  if !ch.tailErr || ch.seq = .idle then s
  else
    let all := ch.entryBanks
    let s := modChan s stack chan (fun ch => { ch with
      seq := .ending, waiting := false, casting := false, syncMask := w64 (ofBits ((List.range 64).map all.contains)) })
    endShort s stack chan all true

end Sys2Proof.Machine
end

