-- ==== Sys2Proof/Machine/Spare.lean ====
section
/-! DEFINITION. The scheduler's grants (R58), self-refresh (R82–R88), repairs and patrol
scrubbing (R102–R106, R171), failed querns and the sparing of banks and layers (R107–R118, R123), stack loading and stack loss (R79, R119), and the flip mask (R126). -/

namespace Sys2Proof.Machine

open Sys2Proof

/-! ### Failed querns (R109, R114–R118) -/

/-- R115: a spare bank that is free and whose own quern works. -/
def spareFor (s : State) (k c : Nat) : Option Nat :=
  let ch := chanAt s k c
  (List.range 4).find? (fun sp => !ch.spares.any (fun p => p.1 == sp)
    && !(match ch.remapping with | some (x, _) => x == sp | none => false)
    && decide ((quernAt s k c (64 + sp)).st ≠ .isolated))

/-- A remap starts, or the channel is DEGRADED (R115, R116). -/
def remapOrDegrade (s : State) (k c w : Nat) : State :=
  match spareFor s k c with
  | some sp => startRemap s k c w sp
  | none => degradeChan s k c w

/-- R109, R114, R118: the quern of working bank w has failed. -/
def quernFailed (s : State) (k c w : Nat) : State :=
  if (quernOf s k c w).st = .isolated then s
  else if cc2Down s then holdErr s (.quern k c w)
  else
    let s := isolateQuern s k c w
    let ch := chanAt s k c
    match ch.spSt with
    | .clean => remapOrDegrade s k c w
    | .migrating =>
      if ch.spLayer = w / 4 then modChan s k c (fun ch => { ch with noGap := true })
      else modChan s k c (fun ch => { ch with failed := ch.failed ++ [(false, w)] })
    | .layerSpared => degradeChan s k c w
    | .remapping => modChan s k c (fun ch => { ch with failed := ch.failed ++ [(false, w)] })
    | .remapped => remapOrDegrade s k c w
    | .degraded => s

/-- R109: four of the times lie within 1 s. -/
def fourInSecond (l : List W64) : Bool :=
  l.any (fun t => decide (4 ≤ (l.filter (fun u => decide (u ≤ t) && decide ((t - u).toNat < 1000000000))).length))

/-- R109: the quern has reported four columns within 1 s that a row decode found clean. -/
def checkQuernUe (s : State) (k : Nat) (l : Loc) : State :=
  let q := l.chan * 64 + l.layer * 4 + l.bank
  if l.layer < 16 ∧ fourInSecond (tget [] (stackAt s k).quernUe q) then
    quernFailed (modStack s k (fun st => { st with quernUe := tdel q st.quernUe })) k l.chan (l.layer * 4 + l.bank)
  else s

/-- R109: every quern of the stack of which a decode has found reported columns clean. -/
def checkQuerns (s : State) (k : Nat) : State :=
  (stackAt s k).quernUe.foldl (fun s p =>
    checkQuernUe s k { chan := p.1 / 64, layer := p.1 % 64 / 4, bank := p.1 % 4, row := 0 }) s

/-! ### Grants (R58) -/

/-- R104: the request is a scrub of its row. -/
def isScrub (r : FarReq) : Bool :=
  r.scrub || (r.port == 4 && match r.op with | .read _ => true | .write _ _ => false)

/-- The request is performed; a scrub's row decode may be the fourth to find a quern's report clean (R104, R109). -/
def performChecked (s : State) (k : Nat) (r : FarReq) : State :=
  let s := performFar s k r
  if isScrub r then checkQuerns s k else s

/-- The granted request is performed. -/
def grant (s : State) (k : Nat) (r : FarReq) : State := performChecked (leaveList s k r) k r

/-- SCHEDULER_GRANT (R58): the chosen request is performed. -/
def schedulerGrant (stack : Fin 12) (s : State) : State :=
  let k := stack.val
  if (stackAt s k).st ≠ .ready then s
  else match schedPick s k with
    | none => s
    | some r => if engineFirst s k r then s else grant s k r

/-! ### Self-refresh (R82–R88) -/

/-- R86: every accepted request is performed, in the scheduler's order; no stream holds a bank. -/
def performAll (k : Nat) : (fuel : Nat) → State → State
  | 0, s => s
  | f + 1, s =>
    match pickOf s k ((stackAt s k).reqs.filter (fun r =>
      firstOfSource s k r && !(r.port == 4 && engineWaits s k r.engine))) with
    | none => s
    | some r => performAll k f (grant s k r)

def stackBusy (s : State) (k : Nat) : Bool := (List.range 32).any (fun c => decide ((chanAt s k c).seq ≠ .idle))

/-- R84, R83: the channels retained. -/
def retention (s : State) (k : Nat) (standby : Bool) : W32 :=
  if standby then regGet s (oStk k kPasr) ||| w32 (forcedMask s k) else 0xFFFFFFFF

/-- R86: owed refreshes are performed and the bank is precharged; its refresh pointer goes on from there (log 73). -/
def closeBank (b : BankSt) : BankSt := { refreshBank b b.owed with owed := 0 }

/-- R86, R87: the stack enters self-refresh with the retention set `toRetain`. The sequencers' prefetched tiles are lost;
queued repairs and deferred scrub rows stay (log 73), and the apertures' rows are lost (log 80). -/
def enterSelfRefresh (s : State) (k : Nat) : State :=
  let s := performAll k (stackAt s k).reqs.length s
  if (stackAt s k).st = .failed then s
  else
    let s := modStack s k (fun st => { st with
      st := .selfRefresh, banks := st.banks.foldl (fun t p => tset {} p.1 (closeBank p.2) t) [], reqs := []
      retained := st.toRetain, entering := false, forStandby := false })
    let s := (List.range 32).foldl (fun s c => modChan s k c (fun ch => { ch with slots := [], mill := none })) s
    let s := { s with querns := s.querns.filter (fun p => p.1 / (32 * 68) != k || p.2.st == QuernSt.isolated) }
    { s with pk1 := { s.pk1 with rows := s.pk1.rows.filter (fun p => p.1 / 2048 != k) } }

/-- The last running entry has ended on a stack that is to enter self-refresh. -/
def settleSelfRefresh (s : State) (k : Nat) : State :=
  if (stackAt s k).entering && decide ((stackAt s k).st = .ready) && !stackBusy s k then enterSelfRefresh s k else s

/-- R83, R85: a stack is asked to enter self-refresh, and its retention set is fixed; at the moment of a standby entry also
that of a stack that is in self-refresh already, in place of the set it had (DESIGN CHOICE, log 80). R173: the entry waits
for the running entries, and a stack that is CLEARING or LOADING (log 80) finishes first. -/
def askSelfRefresh (standby : Bool) (s : State) (k : Fin 12) : State :=
  let st := stackAt s k
  let ret := retention s k standby
  if st.st = .selfRefresh then if standby then modStack s k (fun st => { st with retained := ret }) else s
  else if st.st ≠ .ready ∧ st.st ≠ .clearing ∧ st.st ≠ .loading then s
  else if st.entering && st.forStandby then s
  else settleSelfRefresh (modStack s k (fun st => { st with
    entering := true, forStandby := standby, toRetain := ret })) k

/-- ENTRY_END_TIMEOUT (R173). -/
def entryEndTimeout (stack : Fin 12) (s : State) : State :=
  if (stackAt s stack).entering then settleSelfRefresh (abortStack s stack) stack else s

/-- The hottest valid DRAM sensor of a stack (R71): sensors 8k to 8k + 7. -/
def stackTemps (s : State) (k : Nat) : List Int :=
  ((List.range 8).map (fun i => sensorAt s (8 * k + i))).filterMap (fun x => if x.valid then some x.temp else none)

def maxInt (l : List Int) : Int := l.foldl max (l.headD 0)

/-- R88, R118: the channel is not retained while a migration runs. -/
def dropMigration (s : State) (k c : Nat) : State :=
  let ch := chanAt s k c
  if ch.spSt = .migrating then migrationFailure (migrationDone s k c) k c ch.failed else s

/-- R79, R87: the stack leaves self-refresh, with its delays reloaded. -/
def exitSelfRefresh (s : State) (k : Nat) : State :=
  if (stackAt s k).st ≠ .selfRefresh then
    modStack s k (fun st => { st with entering := false, forStandby := false })
  else
    let s := loadBand s k (stackAt s k).called true
    if (stackAt s k).st = .failed then s
    else if (stackAt s k).retained = 0xFFFFFFFF then modStack s k (fun st => { st with st := .ready })
    else modStack s k (fun st => { st with st := .clearing })

/-- CLEARING_COMPLETE (R79, R87, R88). -/
def clearingComplete (stack : Fin 12) (s : State) : State :=
  if (stackAt s stack).st ≠ .clearing then s
  else
    let s := (List.range 32).foldl (fun s c =>
      if bitOf (stackAt s stack).retained c then s else clearChan (dropMigration s stack c) stack c) s
    settleSelfRefresh (modStack s stack (fun st => { st with
      st := if st.st = .clearing then .ready else st.st })) stack

/-! ### Failed querns, repair (R109, R102, R103, R171) -/

/-- QUERN_ROW_BOUNDARY_TIMEOUT (R109): a quern at a row boundary does not answer. -/
def quernRowBoundaryTimeout (stack : Fin 12) (chan : Fin 32) (bank : Fin 64) (s : State) : State :=
  if (quernOf s stack chan bank).atBoundary then quernFailed s stack chan bank else s

/-- REPAIR (R102): the repair at the head of its bank is performed, unless a stream holds the bank (R168, R171). -/
def repair (stack : Fin 12) (chan : Fin 32) (bank : Fin 68) (s : State) : State :=
  match queuedRepair s stack chan bank with
  | some l =>
    if (stackAt s stack).st ≠ .ready ∨ bankStreams s stack chan bank then s
    else checkQuernUe (repairRow s stack l false) stack l
  | none => s

/-- R169: a release or hold is counted, and the quern's job sets HELD. -/
def noteHold (s : State) (k c : Nat) : State := count (jobFlag s (chanAt s k c).job 4) (oQrn k qHold)

/-- MID_ROW_REPAIR (R171): the stream is held after the column in flight and the repair is performed; the row is
reopened, so the bank keeps it. -/
def midRowRepair (stack : Fin 12) (chan : Fin 32) (bank : Fin 68) (s : State) : State :=
  match queuedRepair s stack chan bank with
  | some l =>
    if !bankStreams s stack chan bank then s
    else checkQuernUe (repairRow (noteHold s stack chan) stack l false) stack l
  | none => s

/-! ### Patrol scrub (R104, R105) -/

/-- The physical row at a scrub position: each row of each bank of a layer and channel in turn. -/
def scrubLoc (p : Nat) : Loc :=
  let b := p % 2176
  { chan := b / 68, layer := b % 68 / 4, bank := b % 68 % 4, row := p / 2176 }

/-- R104, R112: a physical layer is in service. -/
def inService (ch : Chan) (p : Nat) : Bool := !(ch.layerOut && p == ch.spLayer)

def scrubRows : Nat := 2176 * 16384

/-- PATROL_SCRUB_READ (R104–R106): the next row is read, or deferred while a stream holds its bank. The end of a pass
ends R108's count of corrected columns. A higher engine of port 4 goes first. -/
def patrolScrubRead (stack : Fin 12) (s : State) : State :=
  let k := stack.val
  let st := stackAt s k
  if st.st ≠ .ready ∨ engineBlocked s k 4 then s
  else
    let x := scrubLoc st.scrubPos
    let next := (st.scrubPos + 1) % scrubRows
    let s := modStack s k (fun st => { st with
      scrubPos := next, layerCe := if next = 0 then [] else st.layerCe })
    if !inService (chanAt s k x.chan) x.layer then s
    else if bankStreams s k x.chan (x.layer * 4 + x.bank) then
      modStack s k (fun st => { st with deferred := st.deferred ++ [x] })
    else checkQuerns (scrubRow s k x) k

/-- SCRUB_DEFER_TIMEOUT (R105): the oldest deferred row becomes a port 4 request. -/
def scrubDeferTimeout (stack : Fin 12) (s : State) : State :=
  let k := stack.val
  match (stackAt s k).deferred with
  | [] => s
  | x :: rest =>
    enqueueOne (modStack s k (fun st => { st with deferred := rest })) k
      { id := 0, port := 4, src := 4, loc := x, off := 0, op := .read 2048, arrival := 0, engine := 4, scrub := true }

/-! ### Layer migration (R110–R113) -/

/-- R110, R111: row PROGRESS of bank b of the failing layer is copied; with its last bank the boundary moves on. -/
def migrateBank (s : State) (k c b : Nat) : State :=
  let ch := chanAt s k c
  let s := copyRow s k { chan := c, layer := ch.spLayer, bank := b, row := ch.progress } (ch.spLayer, b) (16, b)
  modChan s k c (fun ch =>
    if ch.copied.length = 3 then { ch with progress := ch.progress + 1, copying := false, copied := [] }
    else { ch with copied := ch.copied ++ [b] })

/-- R169: the banks whose copy of the row under way no stream holds back. -/
def migrateFree (s : State) (k c : Nat) : State :=
  (List.range 4).foldl (fun s b =>
    let ch := chanAt s k c
    if !ch.copying || ch.copied.contains b || bankStreams s k c (ch.spLayer * 4 + b) then s else migrateBank s k c b) s

/-- MIGRATION_ROW_COPY (R110, R106, R169): the next row of each bank of the failing layer, those that a stream holds at
step 5 of their row boundary. A higher engine of port 4 goes first. -/
def migrationRowCopy (stack : Fin 12) (chan : Fin 32) (s : State) : State :=
  let k := stack.val
  let c := chan.val
  let ch := chanAt s k c
  if (stackAt s k).st ≠ .ready ∨ ch.spSt ≠ .migrating ∨ 16384 ≤ ch.progress ∨ engineBlocked s k 3 then s
  else migrateFree (modChan s k c (fun ch => { ch with copying := true })) k c

/-- R112: a bank of the failing layer whose rows are all copied: a stream that would start on it waits. -/
def switchWaits (ch : Chan) (w : Nat) : Bool :=
  decide (ch.spSt = .migrating) && ch.spLayer == w / 4 && decide (16384 ≤ ch.progress)

/-- R112: the quern of a working bank is in an operation: a stream of it has begun and has not ended (log 73). -/
def quernActive (s : State) (k c w : Nat) : Bool :=
  match (quernOf s k c w).st with
  | .idle => false
  | .isolated => false
  | _ => true

/-- R112: a row that an entry has open in a bank of the old layer is open in the new one. -/
def moveOpenRow (s : State) (k c layer b : Nat) : State :=
  let old := bankAt s k c (layer * 4 + b)
  let s := setBank s k c (64 + b) { bankAt s k c (64 + b) with openRow := old.openRow, streak := 0 }
  setBank s k c (layer * 4 + b) { old with openRow := none, streak := 0 }

/-- MIGRATION_SWITCHOVER (R112, R118): at an instant when no stream holds a bank of the failing layer. -/
def migrationSwitchover (stack : Fin 12) (chan : Fin 32) (s : State) : State :=
  let k := stack.val
  let c := chan.val
  let ch := chanAt s k c
  let held := (List.range 4).any (fun b => quernActive s k c (ch.spLayer * 4 + b))
  if ch.spSt ≠ .migrating ∨ ch.progress < 16384 ∨ held then s
  else
    let s := migrationDone s k c
    let s := (List.range 4).foldl (fun s b =>
      if ch.streaming.contains (ch.spLayer * 4 + b) then moveOpenRow s k c ch.spLayer b else s) s
    let s := event s 2 3 3 1 (chanUnit k c) ch.spLayer
    migrationFailure s k c ch.failed

/-! ### Bank remap (R115–R117) -/

/-- R115: the next row of the failed bank is copied to the spare bank. -/
def remapRow (s : State) (k c : Nat) : State :=
  let ch := chanAt s k c
  match ch.remapping with
  | some (sp, w) =>
    let l : Loc := { chan := c, layer := w / 4, bank := w % 4, row := ch.progress }
    modChan (copyRow s k l (homeAt ch l) (16, sp)) k c (fun ch => { ch with progress := ch.progress + 1 })
  | none => s

/-- BANK_REMAP_COPY (R115, R106, R169): the next row of the failed bank, when no stream holds it and no repair goes first; in a
bank that a stream holds it waits for step 5 of R168. -/
def bankRemapCopy (stack : Fin 12) (chan : Fin 32) (s : State) : State :=
  let k := stack.val
  let c := chan.val
  let ch := chanAt s k c
  match ch.remapping with
  | some (_, w) =>
    if (stackAt s k).st ≠ .ready ∨ 16384 ≤ ch.progress ∨ engineBlocked s k 2 ∨ bankStreams s k c (remapHome ch w) then s
    else remapRow s k c
  | none => s

/-- R118: a failure that waited for the remap to complete. -/
def nextFailure (s : State) (k c : Nat) : State :=
  if cc2Down s then s
  else match (chanAt s k c).failed with
  | [] => s
  | (isLayer, u) :: rest =>
    let s := modChan s k c (fun ch => { ch with failed := rest })
    if isLayer then degradeChan s k c (u * 4) else remapOrDegrade s k c u

/-- BANK_REMAP_COMPLETE (R115): the spare bank's quern serves under the failed tuple. The event's bytes are as at the start
(log 73). -/
def bankRemapComplete (stack : Fin 12) (chan : Fin 32) (s : State) : State :=
  let k := stack.val
  let c := chan.val
  let ch := chanAt s k c
  match ch.remapping with
  | some (sp, w) =>
    if ch.progress < 16384 then s
    else
      let s := modChan s k c (fun ch => { ch with
        spSt := .remapped, remapping := none, progress := 0
        spares := ch.spares.filter (fun p => p.2 != w) ++ [(sp, w)] })
      let s := recordSpare s { stack := k, chan := c, isLayer := false, unit := w, spare := sp, complete := true }
      nextFailure (event s 2 3 4 1 (chanUnit k c) (w + put (64 + sp) 8)) k c
  | none => s

/-! ### Spare requests (R123) -/

/-- R123: a request that changes nothing is logged with the KIND written. -/
def spareRefused (s : State) (k c kind : Nat) : State := event s 6 3 6 kind (chanUnit k c)

/-- SPARE_REQ_MIGRATE (R123, R107): all four spare banks must be free. -/
def spareReqMigrate (stack : Fin 12) (chan : Fin 32) (layer : Fin 16) (s : State) : State :=
  if (chanAt s stack chan).spSt = .clean then layerFailing s stack chan layer true else spareRefused s stack chan 1

/-- SPARE_REQ_REMAP (R123, R109). -/
def spareReqRemap (stack : Fin 12) (chan : Fin 32) (layer : Fin 16) (bank : Fin 4) (s : State) : State :=
  let st := (chanAt s stack chan).spSt
  if (st = .clean ∨ st = .remapped ∨ st = .remapping) ∧ (spareFor s stack chan).isSome then
    quernFailed s stack chan (layer.val * 4 + bank.val)
  else spareRefused s stack chan 2

/-- SPARE_REQ_RESERVED (R123). -/
def spareReqReserved (stack : Fin 12) (chan : Fin 32) (s : State) : State := spareRefused s stack chan 3

/-- SPARE_REQ_NO_ACTION (R123). -/
def spareReqNoAction (_ : Fin 12) (s : State) : State := s

/-- STK_SPARE_REQ (R123): a write of the register. -/
def spareReq (s : State) (stack : Fin 12) (v : W32) : State :=
  let c : Fin 32 := Fin.ofNat 32 (fld v 4 0)
  let l : Fin 16 := Fin.ofNat 16 (fld v 11 8)
  match fld v 17 16 with
  | 0 => spareReqNoAction stack s
  | 1 => spareReqMigrate stack c l s
  | 2 => spareReqRemap stack c l (Fin.ofNat 4 (fld v 13 12)) s
  | _ => spareReqReserved stack c s

/-- FLIP_ARM (R126): a write of STK_FLIP_CTL. -/
def flipArm (stack : Fin 12) (value : BitVec 32) (s : State) : State :=
  let o := oStk stack kFlipCtl
  let old := regGet s o
  let applied := bitOf old 16 && !bitOf value 16
  regSet s o (setFld (value &&& w32 0x3F7) 16 16 (b2n applied))

/-! ### Loading and stack loss (R75, R79, R117, R119) -/

/-- R117: a sparing record takes effect as if its copy were complete. -/
def applyRecord (ch : Chan) (r : SpareRec) : Chan :=
  if r.isLayer then { ch with spSt := if ch.spSt = .clean then .layerSpared else ch.spSt, spLayer := r.unit, layerOut := true }
  else { ch with spSt := if ch.spSt = .clean then .remapped else ch.spSt
                 spares := ch.spares.filter (fun p => p.2 != r.unit) ++ [(r.spare, r.unit)] }

/-- R148: the state of a quern; while its stack is LOADING one that is not isolated is in SELFTEST. -/
def quernState (s : State) (k c b : Nat) : QuernSt :=
  let st := (quernAt s k c b).st
  if (stackAt s k).st = .loading ∧ st ≠ .isolated then .selftest else st

/-- R148: the querns of a stack, numbered channel × 68 + bank, that are in SELFTEST and fail it. -/
def selfTestFails (s : State) (k : Nat) (failed : List Nat) : List Nat :=
  (failed.filter (fun q => decide (q < 2176) && decide (quernState s k (q / 68) (q % 68) = .selftest))).eraseDups

/-- R148, R150: the querns that failed their self-test are isolated and counted; the others are IDLE. -/
def selfTest (s : State) (k : Nat) (bad : List Nat) : State :=
  let s := regSet s (oQrn k qStResult) (w32 bad.length)
  bad.foldl (fun s q =>
    let c := q / 68
    let b := q % 68
    match workingOf s k c b with
    | some w => quernFailed s k c w
    | none => modQuern s k c b (fun _ => { st := .isolated })) s

/-- R70, R71, R73, R81: the temperature, the refresh rate and the lost sensors of a stack, from its valid sensors. -/
def stackHeat (s : State) (k : Nat) : State :=
  let st := stackAt s k
  let temps := stackTemps s k
  if temps.isEmpty then
    let s := if st.sensorsLost then s else event s 2 3 8 0 (stackUnit k)
    modStack s k (fun st => { st with sensorsLost := true, refresh2x := true, overMax := false, temp := 0 })
  else
    let t := maxInt temps
    modStack s k (fun st => { st with
      sensorsLost := false, temp := t, overMax := decide (95 < t)
      refresh2x := decide (85 < t) || (st.refresh2x && decide (83 ≤ t)) })

/-- STACK_LOADING_COMPLETE (R79, R70, R71, R75, R77, R117, R148). -/
def stackLoadingComplete (stack : Fin 12) (initOk : Bool) (failed : List Nat) (s : State) : State :=
  let k := stack.val
  if (stackAt s k).st ≠ .loading then s
  else if !initOk then failStack s k 4
  else
    let temps := stackTemps s k
    let bad := selfTestFails s k failed
    let s := loadBand (stackHeat s k) k (if temps.isEmpty then 3 else bandOf (maxInt temps)) true
    if (stackAt s k).st = .failed then s
    else
      let s := modStack s k (fun st => { st with st := .ready })
      let s := (s.flash.sparing.filter (fun r => r.stack == k)).foldl
        (fun s r => modChan s k r.chan (fun ch => applyRecord ch r)) s
      settleSelfRefresh (selfTest s k bad) k

/-- BASE_DIE_SELF_CHECK_FAULT (R119). -/
def baseDieSelfCheckFault (stack : Fin 12) (s : State) : State :=
  if cc2Down s then holdErr s (.stack stack 1) else failStack s stack 1

/-- STACK_CONTROLLER_TIMEOUT (R119). -/
def stackControllerTimeout (stack : Fin 12) (s : State) : State :=
  if cc2Down s then s else failStack s stack 2

/-- R38: control core 2 runs again and takes up what the error registers hold. -/
def takeHeld (s : State) : State :=
  let held := s.ctlHeld
  let s := held.foldl (fun s e => match e with
    | .layer k c l auto => layerFailing s k c l auto
    | .quern k c w => quernFailed s k c w
    | .stack k cause => failStack s k cause) { s with ctlHeld := [] }
  s.chans.foldl (fun s p => if p.2.spSt = .remapped ∧ !p.2.failed.isEmpty then nextFailure s (p.1 / 32) (p.1 % 32) else s) s

end Sys2Proof.Machine
end

