-- ==== Sys2Proof/Machine/Seq.lean ====
section
/-! DEFINITION. The channel sequencer: the check of an entry (R155, R318, R449), the start of a job (R153), the bank
commands (R154–R160), the prefetch of broadcast tiles and multicast (R324–R327), and the end of an entry (R158). -/

namespace Sys2Proof.Machine

open Sys2Proof

/-! ### The tables of a stack (R180) -/

def words4 (s : State) (o : Nat) : W128 :=
  BitVec.ofNat 128 ((List.range 4).foldl (fun a w => a + put (regGet s (o + 4 * w)).toNat (32 * w)) 0)

def seqWord (s : State) (k n : Nat) : W128 := words4 s (oSeqMem k (n % 1024))
def opwWord (s : State) (k i : Nat) : W128 := words4 s (oOpw k i)
def entryStart (s : State) (k e : Nat) : Nat := regFld s (oSeqEntry k e) 9 0
def entryLen (s : State) (k e : Nat) : Nat := regFld s (oSeqEntry k e) 20 10

/-- The commands of an entry. -/
def entryCmds (s : State) (k e : Nat) : List W128 :=
  (List.range (entryLen s k e)).map (fun i => seqWord s k (entryStart s k e + i))

/-! ### Fields of a bank command (R154) -/

def cOpc (w : W128) : Nat := fld w 3 0
def cMask (w : W128) : W64 := w64 (fld w 127 64)

/-- R155 Encoding, for one command. -/
def cmdBad (w : W128) : Bool :=
  match cOpc w with
  | 0 => fld w 63 20 != 0
  | 1 => fld w 63 18 != 0
  | 2 => fld w 63 11 != 0
  | 3 => fld w 63 50 != 0 || fld w 22 7 == 0 || fld w 49 26 % 64 != 0
  | 4 => fld w 63 45 != 0
  | 5 => fld w 63 56 != 0 || fld w 7 6 == 3 || fld w 31 8 % 32 != 0 || fld w 55 32 % 32 != 0
  | 6 => fld w 63 4 != 0
  | 7 => fld w 63 4 != 0
  | 8 => fld w 63 4 != 0
  | _ => true

/-- R155 Mask, Rows. A BMASK of 0 breaks none of the rules: the command acts on no bank (log 73). -/
def cmdShapeBad (w : W128) : Bool :=
  decide (16 < (maskBanks (cMask w)).length)
    || ([0, 3, 8].contains (cOpc w) && cMask w != 0)
    || (cOpc w == 4 && (decide (16384 < fld w 17 4 + fld w 32 18)
      || (fld w 32 18 == 1 && decide (fld w 44 39 < fld w 38 33))))

/-- What the check of an entry carries from command to command: the banks of the phase, the trees, any rule broken. -/
structure EntryScan where
  phase : List Nat := []
  trees : List (W64 × Nat) := []
  bad : Bool := false

/-- R155, R134: one command of an entry. -/
def scanCmd (s : State) (k : Nat) (a : EntryScan) (w : W128) : EntryScan :=
  let banks := maskBanks (cMask w)
  let a := { a with bad := a.bad || cmdBad w || cmdShapeBad w }
  match cOpc w with
  | 2 =>
    let op := opwWord s k (fld w 9 4)
    let phase := (a.phase ++ banks).eraseDups
    let modeOf := fun b => ((a.trees.filter (fun t => bitOf t.1 b)).getLast?).map (·.2)
    { a with
      phase := phase
      bad := a.bad || opwBad op || decide (16 < phase.length)
        || (bitOf w 10 && decide (63 < opwLsel op + (banks.length - 1)))
        || banks.any (fun b => (modeOf b).isNone || (modeOf b == some 1 && (opwOp op == 1 || opwOp op == 2))) }
  | 5 => { a with trees := a.trees ++ [(cMask w, fld w 7 6)] }
  | 6 => { a with phase := [], bad := a.bad || a.phase.any (fun b => !bitOf (cMask w) b) }
  | 8 => { a with phase := [] }
  | _ => a

/-- R444, R449: a channel of the job is sealed for a slot that is being unloaded, or whose authority, or whose locked entry,
the job lacks. -/
def sealBad (s : State) (j : Job) : Bool :=
  (List.range 32).any (fun c => bitOf j.mask c && (match sealedSlot s j.stack c with
    | some slot => decide ((pkgAt s slot.val).st = .unloading) || j.auth != some slot || !(pkgAt s slot.val).locked.contains (oSeqEntry j.stack j.entry)
    | none => false))

/-- R155: a rule of the check is broken. -/
def entryBad (s : State) (j : Job) : Bool :=
  let cmds := entryCmds s j.stack j.entry
  let start := entryStart s j.stack j.entry
  cmds.isEmpty || decide (1024 < start + cmds.length)
    || !(match cmds.getLast? with | some w => cOpc w == 8 | none => false)
    || (cmds.foldl (scanCmd s j.stack) {}).bad || sealBad s j

/-- R316: the stack's role permits an OP. -/
def rolePermits (role op : Nat) : Bool := op == 0 || (role == 1 && op == 1) || (role == 2 && (op == 2 || op == 3))

def stackRole (s : State) (k : Nat) : Nat := fld (effGet s oRoleStk) (2 * k + 1) (2 * k)

/-- R318: the role check. -/
def roleBad (s : State) (j : Job) : Bool :=
  decide ((stackAt s j.stack).st = .failed)
    || (entryCmds s j.stack j.entry).any (fun w => cOpc w == 2 && !rolePermits (stackRole s j.stack)
      (opwOp (opwWord s j.stack (fld w 9 4))))

/-! ### Job start (R153) -/

/-- The ring of a descriptor (R383). -/
def ringOf (s : State) (did : Nat) : Nat :=
  match s.admitted.find? (fun a => a.did == did) with | some a => a.ring | none => 0

/-- The first 16 bytes of a descriptor in hand (R502). -/
def headOf (s : State) (did : Nat) : Nat :=
  match s.admitted.find? (fun a => a.did == did) with | some a => a.head.toNat | none => 0

/-- R325: a refused job's prefetched tiles are discarded. -/
def dropSlots (s : State) (k c id : Nat) : State :=
  modChan s k c (fun ch => { ch with
    slots := ch.slots.filter (fun sl => sl.job != id), mill := ch.mill.filter (fun sl => sl.job != id) })

/-- A package load or unload that holds new jobs of the stack (R443 step 6). -/
def jobHeld (s : State) (k : Nat) : Bool :=
  (stackAt s k).entering || (match s.sec.work with
    | some w => w.holds.contains k
    | none => false)

/-- QUERN_JOB_START (R153, R155, R318): the oldest job that names the channel starts, or is refused there. -/
def quernJobStart (stack : Fin 12) (chan : Fin 32) (s : State) : State :=
  let k := stack.val
  let c := chan.val
  match s.jobs.find? (fun j => j.stack == k && bitOf j.left c) with
  | none => s
  | some j =>
    let st := (stackAt s k).st
    if (chanAt s k c).seq ≠ .idle ∨ (st ≠ .ready ∧ st ≠ .failed) ∨ jobHeld s k then s
    else
      let s := if j.left = j.mask ∧ j.outcomes = [] then trace s 6 (ringOf s j.did) j.jobtag (data := headOf s j.did) else s
      let s := modJob s j.id (fun j => { j with left := setFld j.left c c 0 })
      if entryBad s j then dropSlots (jobOutcome s (some j.id) c 3) k c j.id
      else if roleBad s j then dropSlots (jobOutcome s (some j.id) c 4) k c j.id
      else modChan s k c (fun ch => { ch with seq := .run, job := some j.id, cmd := 0 })

/-! ### Issue -/

/-- The command that the sequencer issues next, if its OPC is `opc`. -/
def issuing (s : State) (k c opc : Nat) : Option (Job × W128) :=
  let ch := chanAt s k c
  if ch.seq ≠ .run ∨ ch.waiting ∨ ch.casting then none
  else match ch.job.bind (jobAt s) with
    | none => none
    | some j =>
      let w := seqWord s k (entryStart s k j.entry + ch.cmd)
      if cOpc w = opc ∧ ch.cmd < entryLen s k j.entry then some (j, w) else none

def nextCmd (s : State) (k c : Nat) : State := modChan s k c (fun ch => { ch with cmd := ch.cmd + 1 })

/-- SEQ_NOP (R154): the command waits. -/
def seqNop (stack : Fin 12) (chan : Fin 32) (s : State) : State :=
  match issuing s stack chan 0 with
  | some (_, w) => if fld w 19 4 = 0 then nextCmd s stack chan else modChan s stack chan (fun ch => { ch with waiting := true })
  | none => s

/-- SEQ_NOP_WAIT_DONE (R154). -/
def seqNopWaitDone (stack : Fin 12) (chan : Fin 32) (s : State) : State :=
  if (chanAt s stack chan).waiting then
    nextCmd (modChan s stack chan (fun ch => { ch with waiting := false })) stack chan
  else s

/-! ### Admission (R165–R167, R169) -/

def allow (s : State) (k : Nat) : Nat :=
  let a := regFld s (oQrn k qAllow) 4 0
  if floorInForce s then min a 1 else a

/-- The next column of a quern's feeds (R154). -/
def nextFeed (q : Quern) : Option Nat := (q.feeds.head?).map (·.next)

/-- The row that a bank's stream is in, or that the entry wants open. -/
def streamRow (q : Quern) : Option Nat :=
  match nextFeed q with
  | some x => some (x / 64)
  | none => q.want

/-- R114, R118: the bank's quern is isolated, and a remap or migration that will replace it is under way. -/
def quernAwaited (s : State) (k c w : Nat) : Bool :=
  let ch := chanAt s k c
  decide ((quernOf s k c w).st = .isolated)
    && ((match ch.remapping with | some (_, x) => x == w | none => false)
      || (decide (ch.spSt = .remapping) && ch.failed.contains (false, w))
      || (decide (ch.spSt = .migrating) && ch.spLayer == w / 4))

/-- R166: the banks that wait for a place and can take one: not one whose quern a remap or migration replaces (R114). -/
def admissible (s : State) (k c : Nat) : List Nat := (chanAt s k c).admission.filter (fun w => !quernAwaited s k c w)

/-- The bank takes a place and opens the row that its stream was in, or that the entry wants (R169). -/
def admitBank (s : State) (k c w : Nat) : State :=
  let row := streamRow (quernOf s k c w)
  let b := quernBank s k c w
  let s := modChan s k c (fun ch => { dropStream ch w with streaming := w :: (dropStream ch w).streaming })
  let s := setBank s k c b { bankAt s k c b with openRow := row, streak := 0, gate := false }
  modQuernOf s k c w (fun q => { q with st := if q.st = .held then .stream else q.st, atBoundary := false })

/-- R166: the bank yields its place: it is precharged and held. It waits for readmission unless its stream has ended. -/
def yieldBank (s : State) (k c w : Nat) : State :=
  let again := (streamRow (quernOf s k c w)).isSome
  let s := prechargeBank (noteHold s k c) k c w
  let s := modChan s k c (fun ch => { dropStream ch w with
    admission := (dropStream ch w).admission ++ (if again then [w] else []) })
  modQuernOf s k c w (fun q => { q with
    st := if q.st = .stream then .held else q.st, atBoundary := false, flags := setFld q.flags 4 4 1 })

/-- R166: while a bank waits, a bank whose quern has stopped under R139 yields at once. -/
def yieldStalled (s : State) (k c : Nat) : State :=
  let ch := chanAt s k c
  if (admissible s k c).isEmpty then s
  else match ch.streaming.find? (fun w => (quernOf s k c w).stalled) with
    | some w => yieldBank s k c w
    | none => s

/-- BANK_ADMISSION (R166, R167): a place is free, or a stopped stream gives one up. -/
def bankAdmission (stack : Fin 12) (chan : Fin 32) (s : State) : State :=
  let k := stack.val
  let c := chan.val
  if (admissible s k c).isEmpty ∨ allow s k = 0 then s
  else
    let head := (admissible s k c).headD 0
    let s := if (chanAt s k c).streaming.length < allow s k then s else yieldStalled s k c
    if (chanAt s k c).streaming.length < allow s k then admitBank s k c head else s

/-- R165, R166, R168: an entry wants a row open in a bank; in a bank that is open already, the row change is a row
boundary. -/
def wantBank (s : State) (k c w row : Nat) : State :=
  let ch := chanAt s k c
  let s := modQuernOf s k c w (fun q => { q with want := some row })
  if ch.streaming.contains w then
    if (nextFeed (quernOf s k c w)).isSome || (bankAt s k c (quernBank s k c w)).openRow == some row then s
    else modQuernOf s k c w (fun q => { q with atBoundary := true })
  else if ch.admission.contains w then s
  else if (admissible s k c).isEmpty ∧ ch.streaming.length < allow s k ∧ !quernAwaited s k c w then admitBank s k c w
  else yieldStalled (modChan s k c (fun ch => { ch with admission := ch.admission ++ [w] })) k c

def joinBanks (l banks : List Nat) : List Nat := (l ++ banks).eraseDups

/-- ACT (R154). -/
def act (stack : Fin 12) (chan : Fin 32) (s : State) : State :=
  match issuing s stack chan 1 with
  | some (_, w) =>
    let banks := maskBanks (cMask w)
    let s := modChan s stack chan (fun ch => { ch with entryBanks := joinBanks ch.entryBanks banks })
    nextCmd (banks.foldl (fun s b => wantBank s stack chan b (fld w 17 4)) s) stack chan
  | none => s

/-! ### TREE and OPW -/

/-- TREE (R163). -/
def tree (stack : Fin 12) (chan : Fin 32) (s : State) : State :=
  match issuing s stack chan 5 with
  | some (_, w) =>
    let t : TreeSt := { mode := fld w 7 6, areg := fld w 5 4, cstride := fld w 31 8, bstride := fld w 55 32, mask := cMask w }
    nextCmd (modChan s stack chan (fun ch => { ch with trees := ch.trees ++ [t] })) stack chan
  | none => s

/-- R163: a stream of `units` units begins at tree t: its first unit number, its place in the tree's list, and the tree. In
SUM and MERGE the base stands until the next SYNC; in PASS a contributor's units run on across its streams. The tree takes NVEC and the groups per block of the latest operation
word (log 83). -/
def beginStream (t : TreeSt) (rank units : Nat) (w : W128) : Nat × Nat × TreeSt :=
  let t := if t.opened then t else { t with base := t.emitted, opened := true, streams := [] }
  let n := if t.mode = 2 then tget 0 t.passNext rank else t.base
  (n, t.streams.length, { t with
    streams := t.streams ++ [{ rank := rank, base := n, units := units }]
    passNext := if t.mode = 2 then tset 0 rank (n + units) t.passNext else t.passNext
    nvec := max 1 (opwNvec w), groups := groupsPerBlock w })

/-- R133, R147, R148: a quern receives its operation word. -/
def opwBank (s : State) (k c w : Nat) (op : W128) : State :=
  let q := quernOf s k c w
  if opwOp op = 0 then s
  else match treeFor (chanAt s k c) w with
    | none => s
    | some ti =>
      match treeAt s k c ti with
      | none => s
      | some t =>
        if q.st ≠ .idle ∧ q.st ≠ .isolated then s
        else
          let rank := rankIn t.mask w
          let x := beginStream t rank (streamUnits op) op
          let s := modTree s k c ti (fun _ => x.2.2)
          let nq : Quern := { st := .load, word := op, tree := ti, rank := rank, base := x.1, sid := x.2.1, want := q.want }
          if q.st = .isolated then supplyUnits s k c nq 0
          else if opwCount op = 0 then pump (applyStep s k c w (emptyStream { nq with st := .finish })) k c w
          else modQuernOf s k c w (fun _ => nq)

/-- OPW (R154, R133, R148). It waits for a quern that a remap or migration replaces, and for the switchover (R112). -/
def opw (stack : Fin 12) (chan : Fin 32) (s : State) : State :=
  let k := stack.val
  let c := chan.val
  match issuing s k c 2 with
  | some (_, w) =>
    let banks := maskBanks (cMask w)
    if banks.any (fun w => quernAwaited s k c w || switchWaits (chanAt s k c) w) then s
    else
      let op := opwWord s k (fld w 9 4)
      let s := modChan s k c (fun ch => { ch with
        entryBanks := joinBanks ch.entryBanks banks, phaseBanks := joinBanks ch.phaseBanks banks })
      let s := banks.zipIdx.foldl (fun s p =>
        opwBank s k c p.1 (if bitOf w 10 then setFld op 27 22 (opwLsel op + p.2) else op)) s
      nextCmd s k c
  | none => s

/-! ### Broadcast (R159–R161, R324, R325, R332) -/

def bcBytes (w : W128) : Nat := (if bitOf w 6 then 64 else 0) + (fld w 25 23 + 1) * fld w 22 7 * 64

def bcSource (j : Job) (c : Nat) (w : W128) : Nat := (j.areg.getD (fld w 5 4) 0 + c * fld w 49 26) % 2 ^ 48

def slotBytes : Nat := 32768

/-- R161: 32 beats of 64 B. -/
def millBytes : Nat := 2048

/-- R63, R161, R324: the sequencer requests part of a tile: DRAM in its own stack through port 3, in another through port 2;
anything else is read at once. An address error, or a sealed region that the job has no authority for (log 13), is held
with the tile (R325). -/
def tilePart (s : State) (j : Job) (c da len : Nat) (q : SeqReq) : State :=
  if rangeError s da len then tileGot s none q
  else if rangeSealRefused s j.auth da len false then
    tileGot (sealedRefuse s 2 (chanUnit j.stack c) da j.jobtag) none q
  else match daKind s da with
    | .dram =>
      let l := locate s da
      enqueueOne s l.stack { id := 0, port := if l.stack = j.stack then 3 else 2, src := chanKey j.stack c, loc := l.loc
                             off := l.off, op := .read len, arrival := 0, seq := some q }
    | _ =>
      let r := daRead s da len
      tileGot r.2.2 (some (r.1, r.2.1)) q

/-- R51: the pieces of bytes `lo` to `hi` of a tile. -/
def tilePieces (s : State) (j : Job) (c : Nat) (w : W128) (lo hi : Nat) : List (Nat × Nat) :=
  accessPieces s (bcSource j c w + lo) (hi - lo)

/-- Bytes `lo` to `hi` of a tile are requested; `q` is what waits for the part at an offset. -/
def readTile (s : State) (j : Job) (c : Nat) (w : W128) (lo hi : Nat) (q : Nat → SeqReq) : State :=
  ((tilePieces s j c w lo hi).foldl (fun a p => (tilePart a.1 j c p.1 p.2 (q a.2), a.2 + p.2)) (s, lo)).1

/-- The BCASTs due to issue on a channel, in order: job and command number (R324). One whose beats have begun to pass has
issued. -/
def dueBcasts (s : State) (k c : Nat) : List (Job × Nat × W128) :=
  let ch := chanAt s k c
  let running := match ch.job.bind (jobAt s) with
    | some j => [(j, if ch.casting || decide (0 < ch.sent) then ch.cmd + 1 else ch.cmd)]
    | none => []
  let queued := (s.jobs.filter (fun j => j.stack == k && bitOf j.left c)).map (fun j => (j, 0))
  (running ++ queued).flatMap (fun p =>
    (((entryCmds s k p.1.entry).zipIdx).filter (fun x => cOpc x.1 == 3 && decide (p.2 ≤ x.2))).map
      (fun x => (p.1, x.2, x.1)))

def slotOf (ch : Chan) (id cmd : Nat) : Option Slot := ch.slots.find? (fun sl => sl.job == id && sl.cmd == cmd)

def millOf (ch : Chan) (id cmd : Nat) : Option Slot := ch.mill.filter (fun sl => sl.job == id && sl.cmd == cmd)

/-- A slot holds the tile, or the millrace input queue its start. -/
def hasSlot (ch : Chan) (id cmd : Nat) : Bool :=
  (slotOf ch id cmd).isSome || (millOf ch id cmd).any (fun m => m.off == 0)

/-- R324: the head of a channel's prefetch queue: the first of the next four BCASTs that no slot holds. -/
def prefetchHead (s : State) (k c : Nat) : Option (Job × Nat × W128) :=
  let ch := chanAt s k c
  ((dueBcasts s k c).take 4).find? (fun x => (slotOf ch x.1.id x.2.1).isNone)

/-- The tile that a channel's free slot takes. -/
def nextPrefetch (s : State) (k c : Nat) : Option (Job × Nat × W128) :=
  if (chanAt s k c).slots.length ≥ 4 then none else prefetchHead s k c

def takesNow (s : State) (k c id cmd : Nat) : Bool :=
  match nextPrefetch s k c with
  | some x => x.1.id == id && x.2.1 == cmd
  | none => false

def tileId (x : Job × Nat × Nat × W128) : TileId := { stack := x.1.stack, chan := x.2.1, job := x.1.id, cmd := x.2.2.1 }

def sameTile (w1 w2 : W128) (j1 j2 : Job) (c1 c2 : Nat) : Bool :=
  bcSource j1 c1 w1 == bcSource j2 c2 w2 && bcBytes w1 == bcBytes w2

/-- R340, R357: a part of the tile lies in the exchange window and waits for a snoop that the link cannot carry. -/
def tileWaits (s : State) (j : Job) (c : Nat) (w : W128) (lo hi : Nat) : Bool :=
  (tilePieces s j c w lo hi).any (fun p => windowWaits s p.1 p.2)

/-- R324, R326: a tile is read once, from byte `lo` on, by the first of the channels (job, channel, command, word), into a slot
of each. -/
def startTile (s : State) (l : List (Job × Nat × Nat × W128)) (lo : Nat) : State :=
  match l with
  | [] => s
  | (j, c, _, w) :: _ =>
    let hi := min slotBytes (bcBytes w)
    if tileWaits s j c w lo hi then s
    else
      let n := (tilePieces s j c w lo hi).length
      let s := l.foldl (fun s x => modChan s x.1.stack x.2.1 (fun ch => { ch with
        slots := ch.slots ++ [{ job := x.1.id, cmd := x.2.2.1, off := lo, upto := hi, left := n }] })) s
      readTile s j c w lo hi (fun off => .tile off (l.map tileId))

/-- R326: the members of a group with the tile that each takes next (job, channel, command, word): its jobs, one for each
stack. -/
def groupMembers (s : State) (g : Nat) : List (Job × Nat × Nat × W128) :=
  let jobs := s.jobs.filter (fun j => j.mcast == g)
  (jobs.filter (fun j => (jobs.find? (fun x => x.stack == j.stack)).any (fun x => x.id == j.id))).flatMap (fun j =>
    ((List.range 32).filter (bitOf j.mask)).filterMap (fun c =>
      ((dueBcasts s j.stack c).find? (fun x => x.1.id == j.id && !hasSlot (chanAt s j.stack c) j.id x.2.1)).map
        (fun x => (j, c, x.2.1, x.2.2))))

/-- R326: the tile is a group's: another stack's member names the same source next. -/
def inGroup (s : State) (j : Job) (c cmd : Nat) (w : W128) : Bool :=
  let m := groupMembers s j.mcast
  j.mcast != 0 && m.any (fun x => x.1.id == j.id && x.2.1 == c && x.2.2.1 == cmd)
    && m.any (fun x => x.1.id != j.id && sameTile w x.2.2.2 j x.1 c x.2.1)

/-- R326: a member's tile is found at the head of its prefetch queue, which fixes the group's members. -/
def fixGroup (s : State) (g : Nat) : State :=
  { s with groups := if g = 0 ∨ s.groups.contains g then s.groups else s.groups ++ [g] }

/-- The channel of the job whose slot holds, or waits for, a tile that CSTRIDE 0 shares (R324). -/
def sharedSlot (s : State) (j : Job) (cmd : Nat) (w : W128) : Option Slot :=
  if fld w 49 26 ≠ 0 then none
  else ((List.range 32).filter (bitOf j.mask)).findSome? (fun c =>
    (slotOf (chanAt s j.stack c) j.id cmd).filter (fun sl => sl.off == 0))

/-- R324: a tile that no group reads: read once, with CSTRIDE 0 for every channel of the job that takes it, or copied from
a channel's slot that holds it. What the millrace input queue has of its start stays there (R161). -/
def prefetchTile (s : State) (j : Job) (c cmd : Nat) (w : W128) : State :=
  match millOf (chanAt s j.stack c) j.id cmd, sharedSlot s j cmd w with
  | some m, _ => startTile s [(j, c, cmd, w)] m.upto
  | none, some sl => if sl.left = 0 then modChan s j.stack c (fun ch => { ch with slots := ch.slots ++ [sl] }) else s
  | none, none =>
    let others := if fld w 49 26 ≠ 0 then []
      else (List.range 32).filter (fun x => x != c && bitOf j.mask x && takesNow s j.stack x j.id cmd
        && (millOf (chanAt s j.stack x) j.id cmd).isNone)
    startTile s ((c :: others).map (fun x => (j, x, cmd, w))) 0

/-- What the slot and the millrace input queue hold, or wait for, of a tile, in the order of its bytes. -/
def tileSlots (ch : Chan) (id cmd : Nat) : List Slot :=
  match slotOf ch id cmd, millOf ch id cmd with
  | some a, some m => if m.off < a.off then [m, a] else [a, m]
  | a, m => a.toList ++ m.toList

/-- The bytes of a tile that have passed, are held or are waited for, from its start. -/
def tileUpto (ch : Chan) (id cmd : Nat) : Nat :=
  match (tileSlots ch id cmd).getLast? with
  | some sl => sl.upto
  | none => if some id = ch.job ∧ cmd = ch.cmd then ch.sent else 0

/-- R161: the millrace input queue, when it is empty, takes a tile's next 32 beats. -/
def millNext (s : State) (j : Job) (c cmd : Nat) (w : W128) : State :=
  let k := j.stack
  let lo := tileUpto (chanAt s k c) j.id cmd
  let hi := min (lo + millBytes) (bcBytes w)
  if (chanAt s k c).mill.isSome ∨ tileWaits s j c w lo hi then s
  else
    let n := (tilePieces s j c w lo hi).length
    let s := modChan s k c (fun ch => { ch with
      mill := some { job := j.id, cmd := cmd, off := lo, upto := hi, left := n } })
    readTile s j c w lo hi (fun off => .mill off { stack := k, chan := c, job := j.id, cmd := cmd })

/-- R324, R161: the running entry's first tile that the slots do not hold whole goes on into the millrace input queue; the start
of a group's tile does not. -/
def millAhead (s : State) (k c : Nat) : State :=
  let ch := chanAt s k c
  match (dueBcasts s k c).find? (fun x => some x.1.id == ch.job && decide (tileUpto ch x.1.id x.2.1 < bcBytes x.2.2)) with
  | some (j, cmd, w) => if !hasSlot ch j.id cmd && inGroup s j c cmd w then s else millNext s j c cmd w
  | none => s

/-- R324, R326: a tile at the head of its prefetch queue, which fixes its group, is read into a free slot; a group's comes by
multicast. -/
def prefetchNext (s : State) (j : Job) (c cmd : Nat) (w : W128) : State :=
  let s := fixGroup s j.mcast
  if inGroup s j c cmd w ∨ 4 ≤ (chanAt s j.stack c).slots.length then s else prefetchTile s j c cmd w

/-- BROADCAST_PREFETCH (R324): the tile at the head of the channel's prefetch queue is read into a free slot; a group's tile
comes by multicast (R326). With no tile due, the millrace input queue is filled. -/
def broadcastPrefetch (stack : Fin 12) (chan : Fin 32) (s : State) : State :=
  let k := stack.val
  let c := chan.val
  match prefetchHead s k c with
  | none => millAhead s k c
  | some (j, cmd, w) => prefetchNext s j c cmd w

/-- A group's tile is read once and delivered to the members with a free slot; the rest are detached (R326, R327). -/
def deliverGroup (s : State) (g : Nat) (detach : Bool) : State :=
  let all := groupMembers s g
  let free := fun (x : Job × Nat × Nat × W128) => takesNow s x.1.stack x.2.1 x.1.id x.2.2.1
  match all.find? free with
  | none => s
  | some (j, c, _, w) =>
    let same := all.filter (fun x => sameTile w x.2.2.2 j x.1 c x.2.1)
    if (!detach && !same.all free) || tileWaits s j c w 0 (min slotBytes (bcBytes w)) then s
    else
      let gone := ((same.filter (fun x => !free x)).map (fun x => x.1.id)).eraseDups
      let s := countBy (startTile (fixGroup s g) (same.filter free) 0) oMcastDetachCnt gone.length
      { s with jobs := s.jobs.map (fun x => if gone.contains x.id then { x with mcast := 0 } else x) }

/-- MULTICAST_DELIVERY (R326, R327): every member has a free slot. -/
def multicastDelivery (group : Nat) (s : State) : State := if group = 0 then s else deliverGroup s group false

/-- MULTICAST_WAIT_TIMEOUT (R327). -/
def multicastWaitTimeout (group : Nat) (s : State) : State := if group = 0 then s else deliverGroup s group true

/-- R332: two runs of flags, one per 32 B unit; when `shared`, they meet within a unit. -/
def joinFlags (shared : Bool) (a b : List Bool) : List Bool :=
  if shared && !a.isEmpty && !b.isEmpty then a.dropLast ++ [a.getLastD false || b.headD false] ++ b.tail else a ++ b

/-- The parts of a tile in order, with a poison flag per 32 B unit of the source. -/
def joinParts (da : Nat) (parts : Table (List Byte × List Bool)) : List Byte × List Bool :=
  parts.foldl (fun a p => (a.1 ++ p.2.1, joinFlags ((da + p.1) % 32 != 0) a.2 p.2.2)) ([], [])

/-- What a BCAST has of its tile: the parts, whether one is to come, and whether one could not be read. -/
def tileHeld (ch : Chan) (id cmd : Nat) : Table (List Byte × List Bool) × Bool × Bool :=
  let l := tileSlots ch id cmd
  (l.flatMap (·.parts), l.any (fun sl => sl.left != 0), l.any (·.addrErr))

/-- The tile leaves its slot and the millrace input queue. -/
def freeTile (s : State) (k c id cmd : Nat) : State :=
  modChan s k c (fun ch => { ch with
    slots := ch.slots.filter (fun sl => !(sl.job == id && sl.cmd == cmd))
    mill := ch.mill.filter (fun sl => !(sl.job == id && sl.cmd == cmd)) })

/-- The part of [lo, lo + len) that lies within [a, b): its first byte and its length. -/
def cutRange (lo len a b : Nat) : Nat × Nat := (max lo a, min (lo + len) b - max lo a)

/-- R133, R159, R160: what a quern in LOAD takes of the bytes of a tile that pass, from byte `at'` of the tile on: its part of
its window of each vector, its vector scales, and their poison. -/
def latchTake (q : Quern) (scl : Bool) (nv vlen da at' : Nat) (data : List Byte) (poison : List Bool) : Quern :=
  let w := q.word
  let win := opwKlen w * 32 * opwEsz w
  let off := opwLsel w * win
  let base := if scl then 64 else 0
  let u0 := (da + at') / 32
  let bad := fun (lo len : Nat) => len != 0 &&
    (List.range ((da + lo + len - 1) / 32 + 1 - (da + lo) / 32)).any (fun i => poison.getD ((da + lo) / 32 - u0 + i) false)
  let q := if scl && at' == 0 then { q with
      ascale := (List.range 4).foldl (fun t v => tset 0x3F800000 v (w32 (sliceNat data (4 * v) 4)) t) []
      streamPoison := q.streamPoison || (opwAscale w && opwOp w == 1 && bad 0 (4 * opwNvec w)) } else q
  (List.range (min nv (opwNvec w))).foldl (fun q v =>
    let first := base + v * vlen + off
    let x := cutRange first (min win (vlen - off)) at' (at' + data.length)
    { q with latch := mwrite q.latch (v * win + (x.1 - first)) ((data.drop (x.1 - at')).take x.2)
             streamPoison := q.streamPoison || bad x.1 x.2 }) q

/-- R332: the channel ends the entry as at END; every quern in LOAD, STREAM or HELD is short. -/
def castFailed (s : State) (k c : Nat) : State :=
  let all := (chanAt s k c).entryBanks
  let s := modChan s k c (fun ch => { ch with
    castErr := true, seq := .ending, syncMask := w64 (ofBits ((List.range 64).map all.contains)) })
  endShort s k c all true

/-- R160, R161: the beats that are there, from the first not yet sent up to byte `hi`, pass every quern of the entry that is in
LOAD; with the tile's last, BCAST_DONE is due. -/
def castBeats (s : State) (k c : Nat) (w : W128) (da hi : Nat) (x : List Byte × List Bool) : State :=
  let at' := (chanAt s k c).sent
  let s := (chanAt s k c).entryBanks.foldl (fun s b =>
    if (quernOf s k c b).st = .load then
      modQuernOf s k c b (fun q => latchTake q (bitOf w 6) (fld w 25 23 + 1) (fld w 22 7 * 64) da at' x.1 x.2)
    else s) s
  modChan s k c (fun ch => if hi = bcBytes w then { ch with casting := true, sent := 0 } else { ch with sent := hi })

/-- BCAST (R160, R161, R324): the beats of the tile that its slot and the millrace input queue hold pass, once all that was
asked for has come, and the queue takes the next 32. A tile that has no slot yet is prefetched now. An address error ends the
entry (R332). -/
def bcast (stack : Fin 12) (chan : Fin 32) (s : State) : State :=
  let k := stack.val
  let c := chan.val
  match issuing s k c 3 with
  | none => s
  | some (j, w) =>
    let cmd := (chanAt s k c).cmd
    let s := if (chanAt s k c).sent = 0 ∧ (slotOf (chanAt s k c) j.id cmd).isNone then prefetchNext s j c cmd w else s
    let x := tileHeld (chanAt s k c) j.id cmd
    let hi := tileUpto (chanAt s k c) j.id cmd
    if x.2.1 then s
    else if x.2.2 then castFailed (freeTile s k c j.id cmd) k c
    else
      let first := (chanAt s k c).sent
      let s := if first < hi then
          castBeats (freeTile s k c j.id cmd) k c w (bcSource j c w) hi (joinParts (bcSource j c w) x.1)
        else s
      if (chanAt s k c).casting ∨ (chanAt s k c).sent = 0 then s else millNext s j c cmd w

/-- BCAST_DONE (R160, R148): the last beat has passed. -/
def bcastDone (stack : Fin 12) (chan : Fin 32) (s : State) : State :=
  let k := stack.val
  let c := chan.val
  if (chanAt s k c).casting then
    let s := (chanAt s k c).entryBanks.foldl (fun s b =>
      modQuernOf s k c b (fun q => { q with st := if q.st = .load then .stream else q.st })) s
    nextCmd (modChan s k c (fun ch => { ch with casting := false })) k c
  else s

/-! ### STRM, PRE, SYNC, END -/

/-- A run of `n` columns leaves the front of the feeds. -/
def eatFeeds : (n : Nat) → List Feed → List Feed
  | _, [] => []
  | n, f :: r => if n < f.last + 1 - f.next then { f with next := f.next + n } :: r else eatFeeds (n - (f.last + 1 - f.next)) r

def fedCols (l : List Feed) : Nat := (l.map (fun f => f.last + 1 - f.next)).sum

/-- R142: columns of excluded tokens alone are passed over. -/
def skipExcluded (q : Quern) : Quern :=
  let n := min (nextRead q.word q.col - q.col) (fedCols q.feeds)
  { q with col := q.col + n, feeds := eatFeeds n q.feeds }

/-- STRM (R154, R156). -/
def strm (stack : Fin 12) (chan : Fin 32) (s : State) : State :=
  let k := stack.val
  let c := chan.val
  match issuing s k c 4 with
  | none => s
  | some (_, w) =>
    let n := fld w 32 18
    let f : Feed := { next := fld w 17 4 * 64 + fld w 38 33, last := (fld w 17 4 + n - 1) * 64 + fld w 44 39 }
    let banks := if n = 0 then [] else
      (maskBanks (cMask w)).filter (fun b => decide ((quernOf s k c b).st = .stream ∨ (quernOf s k c b).st = .held))
    let s := modChan s k c (fun ch => { ch with entryBanks := joinBanks ch.entryBanks banks })
    nextCmd (banks.foldl (fun s b =>
      let fresh := (quernOf s k c b).feeds.isEmpty
      let q := skipExcluded { quernOf s k c b with feeds := (quernOf s k c b).feeds ++ [f] }
      match nextFeed q with
      | none => modQuernOf s k c b (fun _ => q)
      | some x =>
        let s := if fresh then wantBank s k c b (x / 64) else s
        modQuernOf s k c b (fun old => { old with feeds := q.feeds, col := q.col })) s) k c

/-- PRE (R154): each bank precharges when its stream ends; one without a stream at once. -/
def pre (stack : Fin 12) (chan : Fin 32) (s : State) : State :=
  let k := stack.val
  let c := chan.val
  match issuing s k c 7 with
  | none => s
  | some (_, w) =>
    nextCmd ((maskBanks (cMask w)).foldl (fun s b =>
      if (quernOf s k c b).st = .idle ∨ (quernOf s k c b).st = .isolated then
        prechargeBank (modQuernOf s k c b (fun q => { q with want := none })) k c b
      else modQuernOf s k c b (fun q => { q with pre := true })) s) k c

/-- SYNC (R154, R157). -/
def sync (stack : Fin 12) (chan : Fin 32) (s : State) : State :=
  match issuing s stack chan 6 with
  | none => s
  | some (_, w) =>
    let s := modChan s stack chan (fun ch => { ch with seq := .syncWait, syncMask := cMask w })
    endShort s stack chan (maskBanks (cMask w)) false

/-- END (R158): waits as a SYNC over every bank of the entry. -/
def endCmd (stack : Fin 12) (chan : Fin 32) (s : State) : State :=
  match issuing s stack chan 8 with
  | none => s
  | some _ =>
    let all := (chanAt s stack chan).entryBanks
    let s := modChan s stack chan (fun ch => { ch with
      seq := .ending, syncMask := w64 (ofBits ((List.range 64).map all.contains)) })
    endShort s stack chan all false

/-- R154 SYNC: every quern of the mask is IDLE (or isolated), and no tree holds a unit of a named bank. -/
def syncReady (s : State) (k c : Nat) : Bool :=
  let ch := chanAt s k c
  (maskBanks ch.syncMask).all (fun w =>
    (match (quernOf s k c w).st with | .idle => true | .isolated => true | _ => false)
      && ch.trees.all (fun t => !bitOf t.mask w || !t.inputs.any (fun x => (streamAt t x.1).rank == rankIn t.mask w)))

/-- SYNC_MET (R154): a new phase begins (R163). -/
def syncMet (stack : Fin 12) (chan : Fin 32) (s : State) : State :=
  if (chanAt s stack chan).seq = .syncWait ∧ syncReady s stack chan then
    modChan s stack chan (fun ch => { ch with
      seq := .run, syncMask := 0, cmd := ch.cmd + 1, phaseBanks := []
      trees := ch.trees.map (fun t => { t with opened := false }) })
  else s

/-- ENTRY_END (R158, R519): the entry's banks are precharged and released. -/
def entryEnd (stack : Fin 12) (chan : Fin 32) (s : State) : State :=
  let k := stack.val
  let c := chan.val
  let ch := chanAt s k c
  if ch.seq = .ending ∧ syncReady s k c ∧ ch.trees.all (fun t => t.inputs.isEmpty) then
    let s := ch.entryBanks.foldl (fun s w => if ch.streaming.contains w then prechargeBank s k c w else s) s
    let code := if ch.tailErr ∨ ch.castErr then 0xC else if ch.short then 0xA else 0
    let s := jobOutcome s ch.job c code
    settleSelfRefresh (modChan s k c idleChan) stack
  else s

end Sys2Proof.Machine
end

