-- ==== Sys2Proof/Machine/Stream.lean ====
section
/-! DEFINITION. A running stream: columns (R135, R147), row boundaries (R168), drain stalls (R139) and the exponent step
(R141). -/

namespace Sys2Proof.Machine

open Sys2Proof

/-! ### Row boundaries (R168) -/

/-- The requests that wait for a bank and may be served at its boundary, in order of arrival; `below`: those alone that go
before a migration copy (R106). -/
def bankReqs (s : State) (k c b : Nat) (below : Bool) : List FarReq :=
  (stackAt s k).reqs.filter (fun r => r.loc.chan == c && reqBank s k r == b && firstOfSource s k r && !enginesAbove s k r
    && !(below && r.port == 4 && decide (3 < r.engine)))

/-- R168 step 5: the requests that wait for a bank are served in the order of R58. -/
def serveBankN (k c b : Nat) (below : Bool) : (fuel : Nat) → State → State
  | 0, s => s
  | f + 1, s =>
    match pickOf s k (bankReqs s k c b below) with
    | none => s
    | some r =>
      let s := setBank s k c b (bankAfter s k r (stackAt s k).reqs)
      let s := modStack s k (fun st => { st with reqs := st.reqs.filter (fun q => q.id != r.id) })
      serveBankN k c b below f (performChecked s k r)

/-- R169: a migration copy of the working bank's row waits for it. -/
def copyWaits (s : State) (k c w : Nat) : Bool :=
  let ch := chanAt s k c
  decide (ch.spSt = .migrating) && ch.copying && ch.spLayer == w / 4 && !ch.copied.contains (w % 4)

/-- R115, R169: the remap copy of the working bank waits for it. -/
def remapWaits (s : State) (k c w : Nat) : Bool :=
  let ch := chanAt s k c
  decide (ch.progress < 16384) && (match ch.remapping with | some (_, x) => x == w | none => false)

/-- R168 step 5: the remap copy, requests and the migration copy of the bank, in the order of R106. -/
def serveBank (s : State) (k c w b : Nat) : State :=
  let s := if remapWaits s k c w then remapRow s k c else s
  let n := (stackAt s k).reqs.length
  let s := if copyWaits s k c w then migrateBank (serveBankN k c b true n s) k c (w % 4) else s
  serveBankN k c b false n s

/-- R168 step 3: every repair queued for the bank. -/
def repairBankN (k c b : Nat) : (fuel : Nat) → State → State
  | 0, s => s
  | f + 1, s =>
    match queuedRepair s k c b with
    | none => s
    | some l => repairBankN k c b f (checkQuernUe (repairRow s k l false) k l)

/-- R168 step 4: every owed refresh is repaid. -/
def repayBank (s : State) (k c b : Nat) : State :=
  let x := bankAt s k c b
  setBank s k c b { refreshBank x x.owed with owed := 0 }

/-- R166, R167: the bank must yield at a boundary: it is among the newest above the allowance, or a bank waits for a place. -/
def mustYield (s : State) (k c w : Nat) : Bool :=
  let ch := chanAt s k c
  (ch.streaming.take (ch.streaming.length - allow s k)).contains w || !(admissible s k c).isEmpty

/-- R165, R168: the bank is at a row boundary: its stream is, or no stream of it is under way (log 73). -/
def atRowBoundary (q : Quern) : Bool :=
  q.atBoundary || (match q.st with
    | .stream => false
    | .held => false
    | .exp => false
    | _ => true)

/-- ROW_BOUNDARY (R168): steps 2–5, then the stream's next row. Without fed columns the bank stays at the boundary, with the
row of its stream open. Accesses of the module that wait for the bank can be served until the next column (R62). -/
def rowBoundary (stack : Fin 12) (chan : Fin 32) (bank : Fin 64) (s : State) : State :=
  let k := stack.val
  let c := chan.val
  let w := bank.val
  let b := quernBank s k c w
  if !atRowBoundary (quernOf s k c w) ∨ !(chanAt s k c).streaming.contains w then s
  else
    let yields := mustYield s k c w
    let repairs := (queuedRepair s k c b).isSome
    let waits := !(bankReqs s k c b false).isEmpty || copyWaits s k c w || remapWaits s k c w
    let s := if yields then yieldBank s k c w else if repairs || waits then noteHold s k c else s
    let s := repairBankN k c b (stackAt s k).repairs.length s
    let s := if yields || repairs || waits then repayBank s k c b else s
    let s := serveBank s k c w b
    if yields then s
    else
      let q := quernOf s k c w
      let s := setBank s k c b { bankAt s k c b with openRow := streamRow q, streak := 0, gate := true }
      modQuernOf s k c w (fun q => { q with atBoundary := q.atBoundary && q.feeds.isEmpty })

/-! ### Columns -/

/-- R93, R100, R101, R124, R125, R147: what the quern's column code counts, and the repair request of the row's first bad
column (`ask`); R109: a column that it reports uncorrectable waits for the row's decode. -/
def noteQuernCol (s : State) (k c w row col : Nat) (cls : ColCls) (ask : Bool) : State :=
  let b := quernBank s k c w
  let l : Loc := { chan := c, layer := w / 4, bank := w % 4, row := row }
  match cls with
  | .dataBit _ => noteCe (count s (oStk k kQce)) k c (b / 4) l.layer
  | .checkBit => noteCe (count s (oStk k kQce)) k c (b / 4) l.layer
  | .clean => s
  | other =>
    let s := count s (oStk k kQue)
    let s := if other = .bad then noteUe s k c (b / 4) (b % 4) row col 2 else s
    let s := if ask then requestRepair s k l else s
    modStack s k (fun st => { st with
      asked := if other = .bad ∧ st.repairs.contains l then st.asked ++ [(l, col, s.time)] else st.asked })

/-- A column that the quern's code finds uncorrectable or poisoned. -/
def colBad (cls : ColCls) : Bool := decide (cls = .bad) || decide (cls = .poisoned)

/-- The stream after column x of its feeds, at position p: FINISH at its last, EXP at a block's last key (R148), a boundary
at the row's end. -/
def afterColumn (q : Quern) (p x : Nat) : Quern :=
  let w := q.word
  let q := skipExcluded { q with col := p + 1, feeds := eatFeeds 1 q.feeds, want := some (x / 64) }
  if streamCols w ≤ nextRead w (p + 1) then { q with st := .finish, feeds := [], want := none }
  else
    let q := if atExponent w p then { q with st := .exp } else q
    match nextFeed q with
    | some y => { q with atBoundary := y / 64 != x / 64 }
    | none => { q with atBoundary := x % 64 == 63 }

/-- R139: a drain copy that falls due cannot be made at once. -/
def copyStalls (s : State) (k c : Nat) (q : Quern) : Bool :=
  drainDue q.word q.col && (!q.drain.isEmpty || (match treeAt s k c q.tree with
    | some t => !treeRoom t q.rank
    | none => false))

/-- COLUMN_DELIVERED (R135): the next column of an open row enters the quern. -/
def columnDelivered (stack : Fin 12) (chan : Fin 32) (bank : Fin 64) (s : State) : State :=
  let k := stack.val
  let c := chan.val
  let w := bank.val
  let q := quernOf s k c w
  match nextFeed q with
  | none => s
  | some x =>
    let row := x / 64
    let open' := (bankAt s k c (quernBank s k c w)).openRow == some row
    if q.st ≠ .stream ∨ q.stalled ∨ q.atBoundary ∨ !open' ∨ clockHeld s (.stack stack) ∨ !(chanAt s k c).streaming.contains w then s
    else
      let key := quernRowKey s k c w row
      let cls := (colState s key (x % 64)).cls
      let due := copyStalls s k c q
      let st := quernColumn q q.col (readCol s key (x % 64) none).1 (colBad cls)
      let nq := afterColumn st.q q.col x
      let nq := if due then { nq with stalled := true, flags := setFld nq.flags 5 5 1 } else nq
      let nq := if colBad cls then { nq with askedRow := some row } else nq
      let b := quernBank s k c w
      let s := if (bankAt s k c b).gate then setBank s k c b { bankAt s k c b with gate := false } else s
      let s := applyStep s k c w { st with q := nq }
      let s := countIf s due (oQrn k qStall)
      let s := caused s (chanTag s k c) 0xFFF (fun s => noteQuernCol s k c w row (x % 64) cls (q.askedRow != some row))
      let s := pump s k c w
      let s := if due then yieldStalled s k c else s
      settleSync s k c w

/-- DRAIN_STALL_RELEASE (R139): the buffer has emptied and the tailrace has taken a unit of the copy that waited, so the copy
is made and the quern resumes. -/
def drainStallRelease (stack : Fin 12) (chan : Fin 32) (bank : Fin 64) (s : State) : State :=
  let s := pump s stack chan bank
  if (quernOf s stack chan bank).stalled ∧ (quernOf s stack chan bank).drain.length < 8 then
    settleSync (modQuernOf s stack chan bank (fun q => { q with stalled := false })) stack chan bank
  else s

/-- EXPONENT_STEP_DONE (R141): p, l and the header of the block; the values stream next. -/
def exponentStepDone (stack : Fin 12) (chan : Fin 32) (bank : Fin 64) (s : State) : State :=
  let k := stack.val
  let c := chan.val
  let w := bank.val
  let q := quernOf s k c w
  if q.st ≠ .exp ∨ clockHeld s (.stack stack) then s
  else
    let st := exponentStep q ((q.col - 1) / areaCols q.word)
    let held := !(chanAt s k c).streaming.contains w
    let s := applyStep s k c w { st with q := { st.q with st := if held then .held else .stream } }
    settleSync (pump s k c w) k c w

end Sys2Proof.Machine
end

