-- ==== Sys2Proof/Machine/Jobs.lean ====
section
/-! DEFINITION. The completion of a quern job with its arrival (R153, R323, R519), writes of the sequence tables (R180),
and the PK1 command aperture (R175–R178, R181). -/

namespace Sys2Proof.Machine

open Sys2Proof

/-! ### Completion (R153, R519, R384) -/

/-- R519: the job's status is the first of these that any channel produced. -/
def jobStatus (j : Job) : Nat :=
  (([3, 4, 0xC, 9, 0xA].find? (fun code => j.outcomes.any (fun o => o.2 == code)))).getD 0

/-- R519, R384: INFO0 is the lowest channel of that status when the table gives one or the outcomes differ (log 16). -/
def jobInfo (j : Job) : Nat :=
  let code := jobStatus j
  let mixed := j.outcomes.any (fun o => o.2 != code)
  if mixed || [3, 4, 0xC].contains code then
    (((List.range 32).find? (fun c => j.outcomes.any (fun o => o.1 == c && o.2 == code)))).getD 0
  else 0

/-- An arrival enters Q12 of a core when it has a place (R278, R323). -/
def pushQ12 (s : State) (n : Nat) (e : W64) : Option State :=
  if qFree (coreAt s n) 12 1 then some (modCore s n (fun c => qPush c 12 e)) else none

/-- R323: the arrival of a quern job. -/
def jobArrival (j : Job) : W64 := mkValue j.jobtag (bitOf j.flags 3) 0xFFF

/-- A completed job is gone; R326: with a group's last job its number is free again. -/
def dropJob (s : State) (id : Nat) : State :=
  let jobs := s.jobs.filter (fun j => j.id != id)
  { s with jobs := jobs, groups := s.groups.filter (fun g => jobs.any (fun j => j.mcast == g)) }

/-- R323: the arrival is pushed, or the job waits with it. -/
def arriveJob (s : State) (j : Job) : State :=
  match j.arr with
  | none => dropJob s j.id
  | some n =>
    match pushQ12 s n (jobArrival j) with
    | some s => dropJob s j.id
    | none => modJob s j.id (fun j => { j with arrWait := true })

/-- QUERN_JOB_COMPLETE (R153): every channel has ended or refused and every tailrace unit is written; the completion is
written, then the arrival. -/
def quernJobComplete (job : Nat) (s : State) : State :=
  match jobAt s job with
  | none => s
  | some j =>
    if j.left ≠ 0 ∨ j.arrWait ∨ unitsLeft s j.id ∨ !((List.range 32).all (fun c => !bitOf j.mask c || j.outcomes.any (fun o => o.1 == c))) then s
    else
      let s := trace s 7 (ringOf s j.did) j.jobtag (data := headOf s j.did)
      let s := complete s j.did { status := jobStatus j, info0 := jobInfo j, qflags := j.flags.toNat }
      arriveJob s j

/-- QUERN_ARRIVAL_RELEASE (R323). -/
def quernArrivalRelease (job : Nat) (s : State) : State :=
  match jobAt s job with
  | none => s
  | some j => if j.arrWait then arriveJob s j else s

/-! ### Sequence tables (R180) -/

/-- The stack whose tables hold the word at a BAR0 offset. -/
def tableStack (off : Nat) : Option Nat :=
  if off % 4 ≠ 0 then none
  else if 0x502000 ≤ off ∧ off < 0x502C00 then some ((off - 0x502000) / 0x100)
  else if 0x504000 ≤ off ∧ off < 0x507000 then some ((off - 0x504000) / 0x400)
  else if 0x508000 ≤ off ∧ off < 0x538000 then some ((off - 0x508000) / 0x4000)
  else none

/-- QRN_SEQ_STATUS.RUNNING. -/
def seqRunning (s : State) (k : Nat) : Nat := ((List.range 32).filter (fun c => decide ((chanAt s k c).seq ≠ .idle))).length

/-- R444: a position that a package has locked. -/
def seqLocked (s : State) (off : Nat) : Bool := (List.range 4).any (fun p => (pkgAt s p).locked.contains off)

/-- SEQ_TABLE_WRITE (R180, R449): the word is written, or the write is ignored with WR_IGNORED. -/
def seqTableWrite (off : Nat) (value : BitVec 32) (s : State) : State :=
  match tableStack off with
  | none => s
  | some k =>
    if seqRunning s k ≠ 0 ∨ seqLocked s off then regSetBit s (oQrn k qSeqStatus) 0
    else regSet s off (value &&& w32 (regDef off).rw)

/-! ### The PK1 aperture -/

def pk1Lines : Nat := 0x3F00000
def pk1Data : Nat := 0x3F80000
def pk1Results : Nat := 0x3FC0000

def pk1Done (s : State) : Nat := regFld s oPk1Status 15 0
def pk1Key (k c b : Nat) : Nat := (k * 32 + c) * 64 + b

/-- The open PACT row of a bank with its latch slot. -/
def pk1Row (s : State) (k c b : Nat) : Option (Nat × Option Nat) :=
  (s.pk1.rows.find? (fun p => p.1 == pk1Key k c b)).map (·.2)

/-- PK1_ENABLE (R181). -/
def pk1Enable (s : State) : State := regSetFld s oPk1Ctl 0 0 1

/-- PK1_DISABLE (R181): the current line has ended. -/
def pk1Disable (s : State) : State := regSetFld s oPk1Ctl 0 0 0

/-- PK1_DOORBELL (R177). -/
def pk1Doorbell (last : BitVec 16) (s : State) : State := { s with pk1 := { s.pk1 with last := last } }

/-! #### Commands (R176) -/

/-- PNOP. -/
def pnop (_ : Fin 12) (_ : Fin 32) (s : State) : State := s

/-- R114, R165–R167, R176: a command whose stream cannot run now: with ALLOW 0 no row is admitted, and a quern that a remap or
migration replaces is waited for. The aperture uses a channel only while its sequencer is idle, so ALLOW 1 is room. -/
def pcmdWaits (s : State) (k c : Nat) (w : W64) : Bool :=
  match fld w 3 0 with
  | 1 => decide (allow s k = 0)
  | 4 => decide (allow s k = 0) || quernAwaited s k c (fld w 9 4)
  | _ => false

/-- R447: the aperture has no authority, so a bank of a sealed channel is refused. -/
def apertureSealed (s : State) (k c : Nat) : Bool := (sealedSlot s k c).isSome

def apertureRefuse (s : State) (k c : Nat) : State := sealedRefuse s 2 (chanUnit k c) 0 s.cause.1

/-- PACT: the bank is assigned to the aperture with its row open, once a row is admitted; a later PLOAD names its slot. -/
def pact (stack : Fin 12) (chan : Fin 32) (bank : Fin 64) (row : Nat) (s : State) : State :=
  let k := stack.val
  if apertureSealed s k chan then apertureRefuse s k chan
  else if allow s k = 0 then s
  else
    let b := quernBank s k chan bank
    let s := setBank s k chan b { bankAt s k chan b with openRow := some (row % 16384), streak := 0 }
    let key := pk1Key k chan bank
    { s with pk1 := { s.pk1 with rows := tins key (row % 16384, none) (tdel key s.pk1.rows) } }

/-- PPRE: the bank is precharged and released. -/
def ppre (stack : Fin 12) (chan : Fin 32) (bank : Fin 64) (s : State) : State :=
  let s := prechargeBank s stack chan bank
  { s with pk1 := { s.pk1 with rows := tdel (pk1Key stack chan bank) s.pk1.rows } }

/-- PLOAD: the bank's latch slot. -/
def pload (stack : Fin 12) (chan : Fin 32) (bank : Fin 64) (slot : Fin 128) (s : State) : State :=
  let key := pk1Key stack chan bank
  { s with pk1 := { s.pk1 with rows := s.pk1.rows.map (fun (p : Nat × Nat × Option Nat) =>
      if p.1 = key then (p.1, p.2.1, some slot.val) else p) } }

/-- Fields of a PMAC. -/
def pmCol0 (w : W64) : Nat := fld w 15 10
def pmNvec (w : W64) : Nat := fld w 19 18 + 1
def pmKlen (w : W64) : Nat := fld w 22 20

/-- The operation word that a PMAC expands to: OP 1, WFMT, AFMT, NVEC, KLEN, LSEL 0, COUNT 1, SCALE 1.0. -/
def pmWord (w : W64) : W128 :=
  BitVec.ofNat 128 (1 + put (6 + fld w 16 16) 4 + put (fld w 17 17) 8 + put (pmNvec w) 10 + put (pmKlen w) 17
    + put 1 32 + put 0x3F800000 64)

/-- One column of the bank's open row. -/
def pmColumn (k c b row : Nat) (a : Quern × State) (col : Nat) : Quern × State :=
  let key := quernRowKey a.2 k c b row
  let cls := (colState a.2 key col).cls
  let st := quernColumn a.1 a.1.col (readCol a.2 key col none).1 (colBad cls)
  let s := countBy (countBy a.2 (oQrn k qNan) st.nan) (oQrn k qPoison) st.poi
  ({ st.q with col := a.1.col + 1, askedRow := if colBad cls then some row else a.1.askedRow },
    noteQuernCol s k c b row col cls (a.1.askedRow != some row))

/-- PMAC: a one-bank GEMV of the PACT row, reopened where the far path has closed it (R177), against the latch slot; its
256 B go to the result slot. -/
def pmac (stack : Fin 12) (chan : Fin 32) (word : BitVec 64) (s : State) : State :=
  let k := stack.val
  let c := chan.val
  let bank := fld word 9 4
  match pk1Row s k c bank with
  | some (row, some slot) =>
    if apertureSealed s k c then apertureRefuse s k c
    else if (chanAt s k c).seq ≠ .idle ∨ 64 < pmCol0 word + 16 * pmKlen word ∨ pcmdWaits s k c word
        ∨ (coherent s ∧ !linkCarries s) then s
    else
      let b := quernBank s k c bank
      let s := setBank s k c b { bankAt s k c b with openRow := some row, streak := 0 }
      let d := windowRead s (pk1Data + 2048 * slot) (pmNvec word * pmKlen word * 32)
      let q : Quern := { st := .stream, word := pmWord word, latch := mwrite [] 0 d.1 }
      let r := ((List.range (16 * pmKlen word)).map (· + pmCol0 word)).foldl (pmColumn k c bank row) (q, d.2)
      let isolated := decide ((quernOf s k c bank).st = .isolated)
      let units := if isolated then List.replicate 64 (0 : W32) else r.1.drain.flatMap (fun u => u.vals)
      let s := if isolated then d.2
        else countIf (count r.2 (oQrn k qStream)) (bitOf r.1.flags 1) (oQrn k qOvf)
      windowWrite s (pk1Results + 256 * fld word 32 23) (units.flatMap (fun v => leBytes 4 v.toNat))
  | _ => s

/-! #### Lines (R176–R178) -/

def lineWords (s : State) (l : Nat) : List W64 :=
  let bs := mread s.window (pk1Lines + 64 * (l % 8192)) 64
  (List.range 8).map (fun i => w64 (sliceNat bs (8 * i) 8))

/-- R178 cause 1, for one command. -/
def pcmdBad (w : W64) : Bool :=
  match fld w 3 0 with
  | 0 => fld w 63 4 != 0
  | 1 => fld w 63 24 != 0
  | 2 => fld w 63 10 != 0
  | 3 => fld w 63 17 != 0
  | 4 => fld w 63 33 != 0 || pmKlen w == 0 || decide (4 < pmKlen w)
  | _ => true

/-- R178 cause 4: PACT rows and latch slots as the line's commands leave them; true when a PMAC lacks one. -/
def pmacsBad : List W64 → List (Nat × Bool) → Bool
  | [], _ => false
  | w :: r, rows =>
    let b := fld w 9 4
    let rest := rows.filter (fun p => p.1 != b)
    match fld w 3 0 with
    | 1 => pmacsBad r ((b, false) :: rest)
    | 2 => pmacsBad r rest
    | 3 => pmacsBad r (if rows.any (fun p => p.1 == b) then (b, true) :: rest else rows)
    | 4 => !rows.contains (b, true) || decide (64 < pmCol0 w + 16 * pmKlen w) || pmacsBad r rows
    | _ => pmacsBad r rows

/-- R178: the CAUSE of a rejection, the lowest that applies (log 73); 0 for none. -/
def lineCause (s : State) (ws : List W64) : Nat :=
  let h := ws.headD 0
  let k := fld h 19 16
  let c := fld h 24 20
  let cmds := (ws.drop 1).take (fld h 27 25)
  let rows := (List.range 64).filterMap (fun b => (pk1Row s k c b).map (fun r => (b, r.2.isSome)))
  let isMac := cmds.any (fun w => fld w 3 0 == 4)
  if fld h 31 28 ≠ 0 ∨ 12 ≤ k ∨ cmds.any pcmdBad then 1
  else if (stackAt s k).st ≠ .ready then 2
  else if (forcedMask s k).testBit c then 3
  else if pmacsBad cmds rows then 4
  else if 8192 < (s.pk1.last.toNat + 65536 - pk1Done s) % 65536 then 5
  else if isMac ∧ stackRole s k ≠ 1 then 6
  else 0

/-- One command of a line. -/
def pcmd (k : Fin 12) (c : Fin 32) (s : State) (w : W64) : State :=
  let b : Fin 64 := ⟨fld w 9 4 % 64, Nat.mod_lt _ (by decide)⟩
  match fld w 3 0 with
  | 1 => pact k c b (fld w 23 10) s
  | 2 => ppre k c b s
  | 3 => pload k c b ⟨fld w 16 10 % 128, Nat.mod_lt _ (by decide)⟩ s
  | 4 => pmac k c w s
  | _ => pnop k c s

/-- R177: the aperture runs and a line is eligible. Before the first doorbell none is (log 73). -/
def pk1Eligible (s : State) : Bool :=
  regBit s oPk1Ctl 0 && !regBit s oPk1Status 16 && decide (pk1Done s ≠ s.pk1.last.toNat)

/-- PK1_LINE (R177, R178): the next line is executed wholly, or rejected without side effect. A line of a channel whose
sequencer runs an entry waits; in the coherent modes it waits for the link that brings its snoops (R340, log 74). -/
def pk1Line (s : State) : State :=
  if !pk1Eligible s then s
  else
    let l := (pk1Done s + 1) % 65536
    if coherent s ∧ !linkCarries s then s else
    let s := windowSnoop false s ((pk1Lines + 64 * (l % 8192)) / 64)
    let ws := lineWords s l
    let cause := lineCause s ws
    if cause ≠ 0 then regSetFld (regSetFld s oPk1Status 19 17 cause) oPk1Status 16 16 1
    else
      let h := ws.headD 0
      let k : Fin 12 := ⟨fld h 19 16 % 12, Nat.mod_lt _ (by decide)⟩
      let c : Fin 32 := ⟨fld h 24 20 % 32, Nat.mod_lt _ (by decide)⟩
      if (chanAt s k c).seq ≠ .idle || ((ws.drop 1).take (fld h 27 25)).any (pcmdWaits s k c) then s
      else
        let s := caused s (w32 (fld h 63 32)) 0xFFF (fun s => ((ws.drop 1).take (fld h 27 25)).foldl (pcmd k c) s)
        regSetFld s oPk1Status 15 0 l

/-- PK1_SKIP (R178): the rejected line is skipped. -/
def pk1Skip (s : State) : State :=
  if regBit s oPk1Status 16 then
    let l := (pk1Done s + 1) % 65536
    regSetFld (regSetFld (regSetFld s oPk1Status 16 16 0) oPk1Status 19 17 0) oPk1Status 15 0 l
  else s

end Sys2Proof.Machine
end

