-- ==== Sys2Proof/Machine/MemOps.lean ====
section
/-! DEFINITION. The MEM class (R205–R207): transfers between the scratchpad and device addresses. A transfer's bytes move
when it completes (log 5). -/

namespace Sys2Proof.Machine

open Sys2Proof

/-- R205: the address of an LD or ST. -/
def memDa (f : Fetch) : Nat :=
  (fld f.w 111 64 + (if bitOf f.w 118 then put (pGet f.c (fld f.w 117 112)).toNat (fld f.w 122 119) else 0)) % 2 ^ 48

/-- R206, R191: what is wrong with an LD or ST at its issue: each CAUSE, and its queue; a misaligned device address is no
entry's fault (log 17). -/
def memFaults (f : Fetch) (e : W64) : List (Nat × Nat) :=
  (handleFaults e).map (fun c => (c, iSrc f.w 0)) ++ (if memDa f % 32 ≠ 0 then [(4, 0)] else [])

/-- The issue of an LD or ST. -/
def memIssue (s : State) (core op : Nat) : State :=
  issue s core 3 op waitOf (fun s f =>
    let e := (srcEntry f.c f.w 0).getD 0
    match memFaults f e with
    | x :: r => trapLowest s f (x :: r)
    | [] =>
      if eLen e = 0 then
        let out := retag (if op = 0 then setFld e 43 43 0 else e) (iTag f.w)
        retire s f (fun c => if iUseDst f.w 0 then qPush (popSources c f.w) (iDst f.w 0) out else popSources c f.w)
      else
        let id := s.nextId
        let s := { s with nextId := id + 1 }
        retire s f (fun c =>
          let r := reserveDst (popSources c f.w) f.w 0
          { r.2 with xfers := r.2.xfers ++ [{ id := id, task := f.t, pc := f.task.pc, tag := iTag f.w, isStore := op = 1
                                              entry := e, da := memDa f, dst := r.1, trapp := bitOf f.w 123 }] }))

/-- LD (R206). -/
def ld (core : Fin 1200) (s : State) : State := memIssue s core 0

/-- ST (R206). -/
def st (core : Fin 1200) (s : State) : State := memIssue s core 1

/-- FENCE (R205): waitOf holds it until the task's transfers have completed. -/
def fence (core : Fin 1200) (s : State) : State := issue s core 3 2 waitOf (fun s f => advanceCore s f.n f.t)

/-- The stacks that a DA range touches. -/
def rangeStacks (s : State) (da len : Nat) : List Nat :=
  ((accessPieces s da len).filterMap (fun p =>
    match daKind s p.1 with | .dram => some (locate s p.1).stack | _ => none)).eraseDups

/-- R207: an earlier transfer of core n to a common stack is outstanding; R471: or the die's clock is held. -/
def xferHeld (s : State) (n : Nat) (x : Xfer) : Bool :=
  let mine := rangeStacks s x.da (eLen x.entry)
  coreHeld s n || ((coreAt s n).xfers.takeWhile (fun y => y.id != x.id)).any (fun y =>
    (rangeStacks s y.da (eLen y.entry)).any mine.contains)

/-- Why one request of a transfer fails: ADDR or SEALED. -/
def pieceFault (s : State) (auth : Option (Fin 4)) (isWrite : Bool) (p : Nat × Nat) : Option Nat :=
  if rangeError s p.1 p.2 then some 3
  else if rangeSealRefused s auth p.1 p.2 isWrite then some 8
  else none

/-- The bytes before the first request that fails, and that request's fault. -/
def goodPrefix (s : State) (auth : Option (Fin 4)) (isWrite : Bool) : List (Nat × Nat) → Nat × Option Nat
  | [] => (0, none)
  | p :: r =>
    match pieceFault s auth isWrite p with
    | some cause => (0, some cause)
    | none => let x := goodPrefix s auth isWrite r; (p.2 + x.1, x.2)

/-- R55, R266: the port by which a core's request enters a stack. -/
def corePort (n st : Nat) : Nat := if st = n / 100 then 0 else 2

/-- R188: data and poison bits of whole lines enter a scratchpad. -/
def scratchFill (s : State) (n off : Nat) (bs : List Byte) (poison : List Bool) : State :=
  let s := scratchWrite s n off bs
  (List.range (bs.length / 32)).foldl (fun s i => setLinePoison s n (off / 32 + i) (poison.getD i false)) s

/-- The poison bits of a region's lines. -/
def regionPoison (s : State) (n off len : Nat) : List Bool :=
  (List.range (len / 32)).map (fun i => linePoison s n (off / 32 + i))

/-- The transfer leaves its slot; a trap of a completing transfer is recorded with its instruction. -/
def endXfer (s : State) (n : Nat) (x : Xfer) : State :=
  modCore (dropTickets s false x.id) n (fun c => { c with xfers := c.xfers.filter (fun y => y.id != x.id) })

def xferTrap (s : State) (n : Nat) (x : Xfer) (cause : Nat) (more : Bool := false) : State :=
  let c := coreAt s n
  let s := if cause = 8 then sealedRefuse s 1 n x.da c.jobtag x.tag else s
  settleCore (trapCore s n cause x.task x.pc x.tag (iSrc (tget 0 c.imem x.pc) 0) 0 more) n

def xferAt (s : State) (n id : Nat) (isStore : Bool) : Option Xfer :=
  (coreAt s n).xfers.find? (fun x => x.id == id && x.isStore == isStore)

/-- LD_COMPLETE (R205, R206, R188): the data enters the region; with its last byte the handle follows, also where poison then
traps. After an address error or a refusal its slot takes no entry. -/
def ldComplete (core : Fin 1200) (xfer : Nat) (s : State) : State :=
  let n := core.val
  match xferAt s n xfer false with
  | none => s
  | some x =>
    let c := coreAt s n
    let len := eLen x.entry
    if xferHeld s n x then s
    else if rangeWaits s x.da len then askAccess s false n x.id (corePort n) x.da len
    else
      let good := goodPrefix s c.sealedBy false (accessPieces s x.da len)
      let r := readAs s c.jobtag x.tag x.da good.1
      let s := scratchFill (endXfer r.2.2 n x) n (eOff x.entry) r.1 r.2.1
      let poison := anyPoison (regionPoison s n (eOff x.entry) (min len good.1))
      let out := retag (setFld x.entry 43 43 (b2n poison)) x.tag
      let s := modCore s n (fun c => if good.2.isSome then qUnreserve c x.dst else qFill c x.dst out)
      if poison && x.trapp then
        xferTrap (if good.2 = some 8 then sealedRefuse s 1 n x.da c.jobtag x.tag else s) n x 2 good.2.isSome
      else match good.2 with
        | some cause => xferTrap s n x cause
        | none => settleCore s n

/-- ST_PERFORMED (R206, R207): the region is written, poison bits as poison flags, and its handle follows. -/
def stPerformed (core : Fin 1200) (xfer : Nat) (s : State) : State :=
  let n := core.val
  match xferAt s n xfer true with
  | none => s
  | some x =>
    let c := coreAt s n
    let len := eLen x.entry
    if xferHeld s n x then s
    else if rangeWaits s x.da len true then askAccess s false n x.id (corePort n) x.da len true
    else
      let good := goodPrefix s c.sealedBy true (accessPieces s x.da len)
      let bs := scratchRead s n (eOff x.entry) good.1
      let s := caused s c.jobtag x.tag (fun s =>
        daWrite (endXfer s n x) (corePort n) x.da bs (regionPoison s n (eOff x.entry) good.1))
      match good.2 with
      | some cause => xferTrap (modCore s n (fun c => qUnreserve c x.dst)) n x cause
      | none => settleCore (modCore s n (fun c => qFill c x.dst (retag x.entry x.tag))) n

end Sys2Proof.Machine
end

