-- ==== Sys2Proof/Machine/Dma.lean ====
section
/-! DEFINITION. The DMA channels (R265–R287, R300–R307). A block's reads and writes happen at its issue, or for a host
source when its data arrives (log 5). -/

namespace Sys2Proof.Machine

open Sys2Proof

/-! ### Descriptor fields (R268) -/

def dCls (d : Desc) : Nat := fld d.w0 7 0
def dBar (d : Desc) : Bool := bitOf d.w0 8
def dLink (d : Desc) : Bool := bitOf d.w0 9
def dWb (d : Desc) : Bool := bitOf d.w0 10
def dArr (d : Desc) : Bool := bitOf d.w0 11
def dArrg (d : Desc) : Bool := bitOf d.w0 12
def dArrk (d : Desc) : Bool := bitOf d.w0 13
def dIdxs (d : Desc) : Bool := bitOf d.w0 14
def dIdxd (d : Desc) : Bool := bitOf d.w0 15
def dTch (d : Desc) : Nat := fld d.w0 21 16
def dSas (d : Desc) : Bool := bitOf d.w0 22
def dDas (d : Desc) : Bool := bitOf d.w0 23
def dSwid (d : Desc) : Nat := fld d.w0 26 24
def dDwid (d : Desc) : Nat := fld d.w0 29 27
def dSgn (d : Desc) : Bool := bitOf d.w0 30
def dNsat (d : Desc) : Bool := bitOf d.w0 31
def dJobtag (d : Desc) : W32 := w32 (fld d.w0 63 32)
def dBlklen (d : Desc) : Nat := fld d.w3 23 0
def dNblk (d : Desc) : Nat := fld d.w3 39 24
def dChainlen (d : Desc) : Nat := fld d.w3 52 40
def dIsh (d : Desc) : Nat := fld d.w3 57 53
def dSstride (d : Desc) : Int := signed 32 (fld d.w4 31 0)
def dDstride (d : Desc) : Int := signed 32 (fld d.w4 63 32)
def dNext (d : Desc) : Nat := fld d.w5 47 0
def dAfmt (d : Desc) : Nat := fld d.w5 51 48
def dAcore (d : Desc) : Nat := fld d.w5 62 52
def dItab (d : Desc) : Nat := fld d.w6 47 0
def dPsrc (d : Desc) : Nat := fld d.w6 49 48
def dPq (d : Desc) : Nat := fld d.w6 53 50
def dLow (d : Desc) : Nat := fld d.w6 58 54
def dHigh (d : Desc) : Nat := fld d.w6 63 59
def dIlimit (d : Desc) : Nat := fld d.w7 31 0

/-- Element width in bits (R273); 8 stands for a byte copy. -/
def widBits (code : Nat) : Nat := if code = 0 then 8 else 2 ^ (code - 1)

/-- L_d: destination bytes of a block. -/
def blockOut (d : Desc) : Nat := dBlklen d * widBits (dDwid d) / widBits (dSwid d)

/-- Blocks that a descriptor moves (R272). -/
def blocksOf (d : Desc) : Nat := if dBlklen d = 0 then 0 else dNblk d

/-! ### The check (R269) -/

/-- Every condition of R269 but the absent core. -/
def dmaRuleBad (g : Nat) (d : Desc) (isHead : Bool) : Bool :=
  let sw := widBits (dSwid d)
  let dw := widBits (dDwid d)
  let conv := dSwid d != 0 && dDwid d != 0
  let elems := dBlklen d * 8 / sw
  let needCore := dArr d || dPsrc d == 1
  dCls d != 4 || fld d.w3 63 58 != 0 || bitOf d.w5 63 || dSwid d == 7 || dDwid d == 7 || dPsrc d == 3
    || (dSwid d == 0) != (dDwid d == 0)
    || (conv && (dBlklen d * 8 % sw != 0 || elems * dw % 8 != 0))
    || (decide (16 ≤ g) && (dSas d || dDas d)) || (dSas d && dDas d)
    || (!dSas d && fld d.w1 63 48 != 0) || (!dDas d && fld d.w2 63 48 != 0)
    || (dIdxs d && dIdxd d) || ((dIdxs d || dIdxd d) && dPsrc d == 2)
    || dItab d % 4 != 0
    || (needCore && decide (1200 ≤ dAcore d))
    || (dArr d && !dArrk d && (dDas d || blockOut d % 32 != 0 || decide (14 ≤ dAfmt d)))
    || (dPsrc d != 0 && decide (dHigh d ≤ dLow d))
    || (dPsrc d == 1 && (dPq d == 15 || decide (qDepth (dPq d) < dHigh d)))
    || (dLink d && dNext d % 64 != 0) || (isHead && decide (4096 < dChainlen d))

def dmaAbsent (s : State) (d : Desc) : Bool := (dArr d || dPsrc d == 1) && !corePresent s (dAcore d)

def dmaBad (s : State) (g : Nat) (d : Desc) (isHead : Bool) : Bool := dmaRuleBad g d isHead || dmaAbsent s d

/-! ### The end of a chain -/

/-- R384: the status of a halt cause. -/
def causeStatus (cause : Nat) : Nat :=
  match cause with
  | 1 => 0xC | 2 => 0xB | 3 => 0xD | 4 => 0xE | 5 => 0xF | 6 => 0x10 | _ => 0x11

/-- R497: the class of a halt or a transfer fault. -/
def haltClass (cause : Nat) : Nat := if cause = 2 ∨ cause = 3 then 3 else if cause = 5 then 5 else 6

/-- R384: INFO0 of a chain that ended with a status. -/
def dmaInfo (g status cause : Nat) : Nat :=
  if status = 3 ∨ status = 0x12 then g
  else if status = 0 ∨ status = 9 then 0
  else g + put cause 8

/-- R209: the completion value of a DMAP. -/
def dmapValue (status dflags done tag : Nat) : W64 := mkValue (w32 (status + put dflags 8 + put done 16)) false tag

/-- R14: the tag of the instruction that started the chain. -/
def chainTag (ch : DmaCh) : Nat :=
  match ch.start.map (fun (p : Start) => p.origin) with
  | some (.core _ tag _) => tag
  | _ => 0xFFF

/-- R14: an event of channel g, with the tags of its chain. -/
def dmaEvent (s : State) (g cls kind sub : Nat) (payload : Nat := 0) : State :=
  event s cls 4 kind sub g payload (dmaAt s g).tag (chainTag (dmaAt s g))

/-- The chain has ended: its start hears of it, and the channel is idle. -/
def endChain (s : State) (g status dflags done : Nat) : State :=
  let ch := dmaAt s g
  let s := setDma s g { ch with
    st := .idle, start := none, cur := none, fetching := none, ahead := none, got := none, links := 0, chainLen := 0
    arrivals := [], halting := none, ending := none, aborting := false, lastStatus := status, tag := 0 }
  match ch.start.map (fun (p : Start) => p.origin) with
  | some (.ring did) =>
    complete s did { status := status, info0 := dmaInfo g status ch.cause, dflags := dflags, done := done }
  | some (.core n tag (some dst)) =>
    settleCore (modCore s n (fun c =>
      { qFill c (some dst) (dmapValue status dflags done tag) with dmaps := c.dmaps - 1 })) n
  | _ => s

/-- R266, R55: the port by which channel g enters a stack. -/
def dmaPort (g st : Nat) : Nat := if 16 ≤ g ∧ (g - 16) / 12 = st / 3 ∧ (g - 16) % 12 / 4 = st % 3 then 1 else 2

/-- R283: why the status cannot be written back. -/
def wbFault (s : State) (cur : DmaCur) : Option Nat :=
  match cur.da with
  | some da =>
    if !dWb cur.d then none
    else if rangeError s (da + 60) 4 then some 1
    else if rangeSealRefused s cur.auth (da + 60) 4 true then some 5
    else none
  | none => none

/-- R266, R80: a write of channel g; of a chain that a reset ends it still waits at a stack that is not READY or a bank that a
stream holds. -/
def quietWrite (s : State) (g da : Nat) (bs : List Byte) : State :=
  match daKind s da with
  | .dram =>
    let l := locate s da
    if daWaits s da true then
      enqueueOne s l.stack { id := 0, port := dmaPort g l.stack, src := accessSrc true g (dmaPort g l.stack), loc := l.loc, off := l.off
                             op := .write bs [], arrival := 0, seq := some .quiet, jobtag := (dmaAt s g).tag }
    else caused s (dmaAt s g).tag (chainTag (dmaAt s g)) (fun s => daWrite s (dmaPort g) da bs [])
  | _ => daWrite s (dmaPort g) da bs []

/-- R268, R275: the status word is written back to the descriptor's DA, where it can be. -/
def writeBack (s : State) (g : Nat) (cur : DmaCur) (status : Nat) : State :=
  match cur.da with
  | some da =>
    if dWb cur.d && (wbFault s cur).isNone then
      quietWrite s g ((da + 60) % 2 ^ 48) (leBytes 4 (status + put cur.dflags.toNat 8 + put cur.done 16))
    else s
  | none => s

/-- R281: what one more descriptor of the chain comes to; the chain's limit. -/
def chainLimit (ch : DmaCh) : Nat := if ch.chainLen = 0 then 4096 else min ch.chainLen 4096

/-- R282: the DAs of descriptors that a channel owns. -/
def ownedBy (ch : DmaCh) : List Nat :=
  (ch.pending.filter (fun p => p.head.isNone)).map (·.da)
    ++ ch.fetching.toList ++ ch.ahead.toList
    ++ (match ch.cur.bind (·.da) with | some da => [da] | none => [])

/-- The channel that owns a descriptor. -/
def ownerOf (s : State) (da : Nat) : Option Nat := (List.range 64).find? (fun g => (ownedBy (dmaAt s g)).contains da)

/-- DMA_CH_JOBTAG (R291). -/
def chanJobtag (s : State) (g : Nat) : W32 := match (dmaAt s g).cur with | some c => dJobtag c.d | none => 0

/-- R282: an ignored re-arm is flagged, counted and logged. -/
def noteRearm (s : State) (g da owner : Nat) : State :=
  event (count (regSetBit s (oDma g dStatus) 16) (oDma g dRearmCnt)) 6 4 3 0 g da (chanJobtag s owner)
    (chainTag (dmaAt s g))

/-- A halt cause arises; of two the lowest is kept (R283). -/
def haltDma (s : State) (g cause : Nat) : State :=
  modDma s g (fun ch => { ch with halting := some (match ch.halting with | some c => min c cause | none => cause) })

/-- The end of a descriptor: its status is written back, and traced. -/
def endDesc (s : State) (g : Nat) (cur : DmaCur) (status : Nat) : State :=
  trace (writeBack s g cur status) 9 g (dJobtag cur.d) (chainTag (dmaAt s g)) (data := descHead cur.d)

/-- The descriptor in hand is over with a status; the chain goes on at NEXT, or ends (R275, R281, R282, R285). -/
def finishNow (s : State) (g status : Nat) (follow : Bool) : State :=
  let ch := dmaAt s g
  match ch.cur with
  | none => endChain s g status 0 0
  | some cur =>
    let next := dNext cur.d
    if !(follow && dLink cur.d) then endChain (endDesc s g cur status) g status cur.dflags.toNat cur.done
    else if chainLimit ch ≤ ch.links then
      let s := endDesc s g cur status
      haltDma (setDma s g { dmaAt s g with
        st := .fetch, cur := none, fetching := none, ahead := none, got := none, ending := none }) g 4
    else match ownerOf (setDma s g { ch with cur := none, ahead := none }) next with
      | some o =>
        let cur := { cur with dflags := setFld cur.dflags 2 2 1 }
        endChain (noteRearm (endDesc s g cur 0x12) g next o) g 0x12 cur.dflags.toNat cur.done
      | none =>
        let s := endDesc s g cur status
        setDma s g { dmaAt s g with
          st := .fetch, cur := none, fetching := some next, ahead := none, links := ch.links + 1, ending := none }

/-- R55, R266: an access of channel g that waits enters its port. -/
def chanAsk (s : State) (g da len : Nat) (w : Bool := false) : State := askAccess s true g g (dmaPort g) da len w

/-- R62, R80: the write of the status word waits at its stack or bank. -/
def wbWaits (s : State) (cur : DmaCur) : Bool :=
  match cur.da with
  | some da => dWb cur.d && (wbFault s cur).isNone && daWaits s ((da + 60) % 2 ^ 48) true
  | none => false

/-- The descriptor in hand is over with a status, once its status word can be written: the channel's writes, its descriptors and
a barrier after them keep their order (R266, R275, R276), and the status word is one of the chain's writes (log 84). -/
def finishDesc (s : State) (g status : Nat) (follow : Bool) : State :=
  match (dmaAt s g).cur with
  | some cur =>
    if wbWaits s cur then
      let s := chanAsk s g ((cur.da.getD 0 + 60) % 2 ^ 48) 4 true
      modDma s g (fun ch => { ch with ending := some (status, follow) })
    else finishNow s g status follow
  | none => finishNow s g status follow

/-- R281, R282: the fetch of NEXT starts as the last block is issued. -/
def startAhead (s : State) (g : Nat) : State :=
  let ch := dmaAt s g
  match ch.cur with
  | none => s
  | some cur =>
    let last := decide (blocksOf cur.d ≤ cur.block) || (cur.reading.isSome && decide (blocksOf cur.d ≤ cur.block + 1))
    if dLink cur.d && last && decide (ch.links < chainLimit ch) && ch.ahead.isNone then
      setDma s g { ch with ahead := some (dNext cur.d) }
    else s

/-- R285, R291: an ABORT of a chain that is not halted takes effect once the block in flight and its arrival are done. -/
def settleAbort (s : State) (g : Nat) : State :=
  let ch := dmaAt s g
  let quiet := ch.arrivals.isEmpty && (match ch.cur with | some c => c.reading.isNone | none => true)
  if ch.aborting && quiet && ch.halting.isNone && ch.ending.isNone && ch.st != .idle && ch.st != .halted then finishDesc s g 9 false else s

/-! ### Starts and fetches -/

/-- R49, R463: no channel starts before the first COMMIT, and outside ACTIVE. -/
def dmaMayStart (s : State) : Bool :=
  decide (s.power.st = .active) && regGet s oCfgEpoch != 0

/-- DMA_START_TAKEN (R287). -/
def dmaStartTaken (g : Fin 64) (s : State) : State :=
  let ch := dmaAt s g
  match ch.pending with
  | [] => s
  | p :: rest =>
    if ch.st ≠ .idle ∨ !dmaMayStart s ∨ dmaHeld s g then s
    else setDma s g { ch with
      st := .fetch, pending := rest, start := some p, cur := none, links := 1, chainLen := 0
      fetching := if p.head.isSome then none else some p.da, ahead := none, got := none, aborting := false, halting := none
      tag := match p.head with | some d => dJobtag d | none => 0 }

/-- R265: the authority of the descriptor being taken (R446). -/
def fetchAuth (s : State) (ch : DmaCh) (da : Option Nat) : Option (Fin 4) :=
  let head := ch.start.bind (·.auth)
  match da with
  | none => head
  | some x => if ch.links ≤ 1 then head else if head.isSome && (units32 x 64).all (fun p => daSealed s p.1 == head) then head else none

/-- A descriptor has come: it runs, is refused, or halts the channel (R269, R283, R305). -/
def takeDesc (s : State) (g : Nat) (d : Desc) (da : Option Nat) : State :=
  let s := modDma s g (fun ch => { ch with tag := dJobtag d, got := none })
  let ch := dmaAt s g
  let isHead := decide (ch.links ≤ 1)
  if dmaBad s g d isHead then
    if isHead then
      let s := match ch.start.map (fun (p : Start) => p.origin) with
        | some (.ring _) => s
        | _ => dmaEvent (regSetBit s (oDma g dStatus) 19) g 6 2 0
      endChain s g 3 0 0
    else haltDma (setDma s g { ch with fetching := none }) g 6
  else
    let s := trace s 8 g (dJobtag d) (chainTag ch) (data := descHead d)
    setDma s g { ch with
      st := .run, fetching := none, chainLen := if isHead then dChainlen d else ch.chainLen
      cur := some { d := d, da := da, pattern := regGet s (oDma g dFill), auth := fetchAuth s ch da } }

/-- R284: a refused access of channel g. -/
def dmaSealed (s : State) (g da : Nat) : State := sealedRefuse s 2 g da (dmaAt s g).tag (chainTag (dmaAt s g))

/-- R14: a read by channel g. -/
def chanRead (s : State) (g da len : Nat) : List Byte × List Bool × State :=
  readAs (dropTickets s true g) (dmaAt s g).tag (chainTag (dmaAt s g)) da len

/-- R281, R283: the descriptor at a DA, or why it cannot be read. -/
def fetchDesc (s : State) (g da : Nat) : Fetched × State :=
  if rangeError s da 64 then (.fault 1, s)
  else if rangeSealRefused s ((dmaAt s g).start.bind (·.auth)) da 64 false then (.fault 5, dmaSealed s g da)
  else
    let r := chanRead s g da 64
    (if anyPoison r.2.1 then .fault 2 else .desc (bytesDesc r.1), r.2.2)

/-- What a fetch brought is taken, or halts the channel. -/
def takeFetched (s : State) (g da : Nat) (x : Fetched) : State :=
  match x with
  | .desc d => takeDesc s g d (some da)
  | .fault c => haltDma (modDma s g (fun ch => { ch with got := none })) g c

/-- DESCRIPTOR_FETCH_RESPONSE (R269, R281, R283): a head copied or fetched is taken; so is a link, whose fetch may have been
answered while its predecessor ran. -/
def descriptorFetchResponse (g : Fin 64) (s : State) : State :=
  let ch := dmaAt s g
  if ch.halting.isSome ∨ ch.aborting ∨ ch.ending.isSome then s
  else if ch.st = .fetch then
    match ch.fetching with
    | none =>
      match ch.start.bind (·.head) with
      | some d => takeDesc s g d none
      | none => s
    | some da =>
      match ch.got with
      | some x => takeFetched s g da x
      | none =>
        if !rangeError s da 64 && rangeWaits s da 64 then chanAsk s g da 64
        else let r := fetchDesc s g da; takeFetched r.2 g da r.1
  else match ch.ahead, ch.got with
    | some da, none =>
      if ch.st = .halted then s
      else if !rangeError s da 64 && rangeWaits s da 64 then chanAsk s g da 64
      else let r := fetchDesc s g da; modDma r.2 g (fun ch => { ch with got := some r.1 })
    | _, _ => s

/-! ### Blocks (R270–R274, R304–R307) -/

/-- An address in DA space or host space. -/
def wrapAddr (host : Bool) (a : Int) : Nat := (a % (2 ^ (if host then 64 else 48) : Nat)).toNat

/-- R271, R308: an index entry, or why it cannot be read. The table is read 32 B at a time. -/
def readIndex (s : State) (g : Nat) (cur : DmaCur) (b : Nat) : Except Nat Nat × DmaCur × State :=
  let da := (dItab cur.d + 4 * b) % 2 ^ 48
  let unit := da / 32 * 32
  match cur.itab with
  | some (u, bs) =>
    if u = unit then (.ok (sliceNat bs (da % 32) 4), cur, s) else fresh da unit
  | none => fresh da unit
where
  fresh (da unit : Nat) : Except Nat Nat × DmaCur × State :=
    if rangeError s unit 32 then (.error 1, cur, s)
    else if rangeSealRefused s cur.auth unit 32 false then (.error 5, cur, s)
    else
      let r := chanRead s g unit 32
      if anyPoison r.2.1 then (.error 2, cur, r.2.2)
      else (.ok (sliceNat r.1 (da % 32) 4), { cur with itab := some (unit, r.1) }, r.2.2)

/-- Where a block's bytes come from and go to. -/
structure BlockAddr where
  src : Nat
  dst : Nat
  oob : Bool

def blockAddr (d : Desc) (b idx : Nat) : BlockAddr :=
  let strided := fun (base stride : Int) => base + b * stride
  let indexed := fun (base : Nat) => ((base + idx * 2 ^ dIsh d : Nat) : Int)
  { src := wrapAddr (dSas d) (if dIdxs d then indexed d.w1.toNat else strided d.w1.toNat (dSstride d))
    dst := wrapAddr (dDas d) (if dIdxd d then indexed d.w2.toNat else strided d.w2.toNat (dDstride d))
    oob := (dIdxs d || dIdxd d) && decide (dIlimit d ≤ idx) }

/-- R274: one element narrowed or widened: its bits, and whether it saturated. -/
def convElem (d : Desc) (v : Nat) : Nat × Bool :=
  let sw := widBits (dSwid d)
  let dw := widBits (dDwid d)
  if sw ≤ dw then ((if dSgn d then unsignedOf dw (signed sw v) else v), false)
  else if !dNsat d then (v % 2 ^ dw, false)
  else if dSgn d then
    let x := signed sw v
    let lo : Int := -(2 ^ (dw - 1))
    let hi : Int := 2 ^ (dw - 1) - 1
    if x < lo then (unsignedOf dw lo, true) else if hi < x then (unsignedOf dw hi, true) else (unsignedOf dw x, false)
  else if 2 ^ dw ≤ v then (2 ^ dw - 1, true) else (v, false)

/-- R274: the destination bytes of `bs`, and SATD. -/
def convBytes (d : Desc) (bs : List Byte) : List Byte × Bool :=
  if dSwid d = dDwid d then (bs, false)
  else
    let sw := widBits (dSwid d)
    let dw := widBits (dDwid d)
    let m := mwrite [] 0 bs
    let r := (List.range (bs.length * 8 / sw)).foldl (fun (a : Memory × Bool) i =>
      let e := convElem d (elemAt m 0 sw i)
      (elemPut a.1 0 dw i e.1, a.2 || e.2)) ([], false)
    (mread r.1 0 (bs.length * 8 / sw * dw / 8), r.2)

/-- R277: a handle arrival's region, within ACORE's scratchpad. -/
def scratchOff (d : Desc) (dst : Nat) : Int := (dst : Int) - (scratchBase + dAcore d * scratchSize : Nat)

def arrivalBad (d : Desc) (dst len : Nat) : Bool :=
  dArr d && !dArrk d && len != 0
    && (decide (scratchOff d dst < 0) || decide ((scratchSize : Int) < scratchOff d dst + len)
      || decide (scratchOff d dst % 32 ≠ 0))

/-- R272: OFFSET of a handle of LEN 0. -/
def zeroOff (d : Desc) : Nat := (scratchOff d d.w2.toNat % (2 ^ 19 : Nat)).toNat / 32 * 32

/-- R277: an arrival entry. -/
def arrivalEntry (d : Desc) (dst len : Nat) : W64 :=
  if dArrk d then mkValue (dJobtag d) false 0xFFF
  else mkHandle (if len = 0 then zeroOff d else (scratchOff d dst).toNat) len (dAfmt d) false 0xFFF

/-- R447: a block's destination lies wholly in the region of slot k. -/
def dstWithin (s : State) (k : Fin 4) (dst len : Nat) (host : Bool) : Bool :=
  !host && (units32 dst len).all (fun p => daSealed s (p.1 % 2 ^ 48) == some k)

/-- The bytes of a source range before the first unit that fails, and the cause (R283, R447); `into k`: the destination lies
in the region of slot k. -/
def goodSource (s : State) (auth : Option (Fin 4)) (into : Fin 4 → Bool) : List (Nat × Nat) → Nat × Option Nat
  | [] => (0, none)
  | p :: r =>
    let out := match daSealed s p.1 with | some k => !into k | none => false
    if rangeError s p.1 p.2 then (0, some 1)
    else if rangeSealRefused s auth p.1 p.2 false || out then (0, some 5)
    else let x := goodSource s auth into r; (p.2 + x.1, x.2)

/-- Bytes before the first poisoned unit of a range that starts at `da`. -/
def cleanBytes (da : Nat) (poison : List Bool) (len : Nat) : Nat :=
  match poison.findIdx? id with
  | some i => min len (32 * i - da % 32)
  | none => len

/-- R291: destination bytes written. -/
def noteBytes (s : State) (g n : Nat) : State :=
  let total := (dmaAt s g).byteRem + n
  modDma (countBy s (oDma g dBytes) (total / 32)) g (fun ch => { ch with byteRem := total % 32 })

/-- A write of a block's bytes; the DA side stops before the first unit that fails (R283). -/
def blockWrite (s : State) (g : Nat) (cur : DmaCur) (dst : Nat) (bs : List Byte) : State × Nat × Option Nat :=
  if dDas cur.d then
    (noteBytes (hostWriteOut s dst bs (relaxedWrite s (!dBar cur.d))) g bs.length, bs.length, none)
  else
    let good := goodPrefix s cur.auth true (accessPieces s dst bs.length)
    let cause := match good.2 with | some 8 => some 5 | some _ => some 1 | none => none
    let s := caused s (dmaAt s g).tag (chainTag (dmaAt s g)) (fun s => daWrite (dropTickets s true g) (dmaPort g) dst (bs.take good.1) [])
    (noteBytes s g good.1, good.1, cause)

/-- The fault is taken: a refused access is logged, and the channel halts. -/
def blockFault (s : State) (g : Nat) (da cause : Nat) : State :=
  haltDma (if cause = 5 then dmaSealed s g da else s) g cause

/-- A block is done: counts, its arrival (R277, R278). -/
def blockDone (s : State) (g : Nat) (dst len : Nat) : State :=
  match (dmaAt s g).cur with
  | none => s
  | some cur =>
    let s := modDma s g (fun ch => { ch with
      cur := some { cur with
        block := cur.block + 1, done := cur.done + 1, bytes := cur.bytes + len, reading := none, passed := false } })
    let s := if dArr cur.d && dArrg cur.d then
        let e := arrivalEntry cur.d dst len
        match pushQ12 s (dAcore cur.d) e with
        | some s => s
        | none => modDma s g (fun ch => { ch with st := .arrWait, arrivals := [(dAcore cur.d, e)] })
      else s
    settleAbort s g

/-- A flag of the descriptor and of the status register (R271, R274). -/
def dmaFlag (s : State) (g bit : Nat) : State :=
  modDma (regSetBit s (oDma g dStatus) (16 + bit)) g (fun ch => { ch with
    cur := ch.cur.map (fun c => { c with dflags := setFld c.dflags (bit - 1) (bit - 1) 1 }) })

/-- Source bytes are in the channel: they are converted and written; `fault` is what ended the source early. -/
def blockData (s : State) (g : Nat) (cur : DmaCur) (dst : Nat) (src : Nat) (bs : List Byte) (fault : Option Nat) : State :=
  let r := convBytes cur.d bs
  let w := blockWrite s g cur dst r.1
  let s := if r.2 then dmaFlag w.1 g 2 else w.1
  match w.2.2, fault with
  | some c, _ => blockFault s g (dst + w.2.1) c
  | none, some c => blockFault s g (src + bs.length) c
  | none, none => blockDone s g dst w.2.1

/-- R307: the blocks whose destinations meet that of block b. -/
def overlapping (d : Desc) (b : Nat) : List Nat :=
  let dst := fun (i : Nat) => (d.w2.toNat : Int) + i * dDstride d
  (List.range (blocksOf d)).filter (fun i => i != b && decide ((dst i - dst b).natAbs < blockOut d))

/-- R307, R271: which of the blocks are in bounds, or why an index entry cannot be read. -/
def inBounds (s : State) (g : Nat) (cur : DmaCur) : List Nat → Except Nat (List Nat) × DmaCur × State
  | [] => (.ok [], cur, s)
  | i :: r =>
    let x := readIndex s g cur i
    match x.1 with
    | .error c => (.error c, x.2)
    | .ok v =>
      let y := inBounds x.2.2 g x.2.1 r
      (match y.1 with
        | .ok l => .ok (if v < dIlimit cur.d then i :: l else l)
        | .error c => .error c, y.2)

/-- The runs of consecutive numbers of a rising list: (first, length), the last one first. -/
def runsOf (l : List Nat) : List (Nat × Nat) :=
  l.foldl (fun a m => match a with
    | (b, n) :: r => if b + n = m then (b, n + 1) :: r else (m, 1) :: a
    | [] => [(m, 1)]) []

/-- R304, R305, R307: a fill block; bytes that an in-bounds block of the descriptor writes are left to it. -/
def fillBlock (s : State) (g : Nat) (cur : DmaCur) (b : Nat) (a : BlockAddr) : State :=
  let d := cur.d
  let len := blockOut d
  let near := overlapping d b
  if near.any (fun i => rangeWaits s ((dItab d + 4 * i) % 2 ^ 48) 4) then s
  else
    let r := inBounds s g cur near
    let s := dmaFlag (modDma r.2.2 g (fun ch => { ch with cur := some r.2.1 })) g 1
    match r.1 with
    | .error c => blockFault s g (dItab d) c
    | .ok inb =>
      let off := fun (i : Nat) => (i : Int) * dDstride d - (b : Int) * dDstride d
      let keep := fun (m : Nat) => inb.any (fun i => decide (off i ≤ (m : Int)) && decide ((m : Int) < off i + (len : Int)))
      let byte : Nat → Byte := fun m => BitVec.ofNat 8 (fld cur.pattern (8 * (m % 4) + 7) (8 * (m % 4)))
      let runs := (runsOf ((List.range len).filter (fun m => !keep m))).reverse
      let w := runs.foldl (fun (x : State × Option Nat) (p : Nat × Nat) =>
        if x.2.isSome then x
        else
          let w := blockWrite x.1 g cur (wrapAddr (dDas d) (a.dst + p.1)) ((List.range p.2).map (fun i => byte (p.1 + i)))
          (w.1, w.2.2)) (s, none)
      match w.2 with
      | some c => blockFault w.1 g a.dst c
      | none => blockDone w.1 g a.dst len

/-- A block whose addresses are known (R270, R277). -/
def issueBlock (s : State) (g : Nat) (cur : DmaCur) (b : Nat) (a : BlockAddr) : State :=
  let d := cur.d
  if a.oob && dIdxd d then blockDone (dmaFlag s g 1) g a.dst 0
  else if arrivalBad d a.dst (blockOut d) then haltDma s g 7
  else if (dDas d || dSas d) && !linkCarries s then s
  else if !dDas d && rangeWaits s a.dst (blockOut d) true then chanAsk s g a.dst (blockOut d) true
  else if a.oob then fillBlock s g cur b a
  else if dSas d then
    let tag := s.link.nextTag
    let s := askHost s a.src (dBlklen d) (.dma g)
    modDma s g (fun ch => { ch with cur := some { cur with reading := some tag, src := a.src, dst := a.dst } })
  else if rangeWaits s a.src (dBlklen d) then chanAsk s g a.src (dBlklen d)
  else
    let into := fun (k : Fin 4) => dstWithin s k a.dst (blockOut d) (dDas d)
    let good := goodSource s cur.auth into (accessPieces s a.src (dBlklen d))
    let r := chanRead s g a.src good.1
    let clean := cleanBytes a.src r.2.1 good.1
    let fault := if clean < good.1 then some 2 else good.2
    blockData r.2.2 g cur a.dst a.src (r.1.take clean) fault

/-- R279, R280: the fill count of a paced descriptor. -/
def fillOf (s : State) (g : Nat) (cur : DmaCur) : Except Nat Nat × State :=
  let d := cur.d
  if dPsrc d = 1 then
    (.ok ((visible (coreAt s (dAcore d)) (dPq d)).length
      + (if dPq d = 12 then ((dmaAt s g).arrivals.filter (fun a => a.1 == dAcore d)).length else 0)), s)
  else
    let da := dItab d
    if rangeError s da 4 then (.error 1, s)
    else if rangeSealRefused s cur.auth da 4 false then (.error 5, s)
    else
      let r := chanRead s g (da / 32 * 32) 32
      if anyPoison r.2.1 then (.error 2, r.2.2) else (.ok (sliceNat r.1 (da % 32) 4), r.2.2)

/-- The next block goes out, its index read first. -/
def nextBlock (s : State) (g : Nat) (cur : DmaCur) : State :=
  let d := cur.d
  let b := cur.block
  startAhead (if dIdxs d || dIdxd d then
    if rangeWaits s ((dItab d + 4 * b) % 2 ^ 48) 4 then chanAsk s g ((dItab d + 4 * b) % 2 ^ 48) 4
    else
      let r := readIndex s g cur b
      let s := modDma r.2.2 g (fun ch => { ch with cur := some r.2.1 })
      match r.1 with
      | .error c => blockFault s g (dItab d + 4 * b) c
      | .ok idx => issueBlock s g r.2.1 b (blockAddr d b idx)
  else issueBlock s g cur b (blockAddr d b 0)) g

/-- The fill count lets the next block pass (R279). -/
def passBlock (s : State) (g : Nat) (cur : DmaCur) : State :=
  let cur := { cur with passed := true }
  nextBlock (setDma s g { dmaAt s g with st := .run, cur := some cur }) g cur

/-- DMA_BLOCK_ISSUE (R270, R279): the next block of a running channel, unless its pacing makes it wait. -/
def dmaBlockIssue (g : Fin 64) (s : State) : State :=
  let ch := dmaAt s g
  match ch.cur with
  | none => s
  | some cur =>
    if ch.st ≠ .run ∨ dmaHeld s g ∨ ch.halting.isSome ∨ ch.ending.isSome ∨ ch.aborting ∨ cur.reading.isSome
        ∨ blocksOf cur.d ≤ cur.block then s
    else if dPsrc cur.d = 0 ∨ cur.passed then nextBlock s g cur
    else if dPsrc cur.d = 2 ∧ rangeWaits s (dItab cur.d) 4 then chanAsk s g (dItab cur.d) 4
    else
      let f := fillOf s g cur
      match f.1 with
      | .error c => blockFault f.2 g (dItab cur.d) c
      | .ok n =>
        if dHigh cur.d ≤ n then setDma f.2 g { dmaAt f.2 g with st := .paced }
        else passBlock f.2 g cur

/-- A paced channel looks at its fill; once it is down to LOW the block goes out (R279). -/
def pacedLook (s : State) (g : Nat) : State :=
  let ch := dmaAt s g
  match ch.cur with
  | none => s
  | some cur =>
    if ch.st ≠ .paced ∨ ch.halting.isSome ∨ ch.ending.isSome then s
    else
      let f := fillOf s g cur
      match f.1 with
      | .error c => blockFault f.2 g (dItab cur.d) c
      | .ok n => if n ≤ dLow cur.d then passBlock f.2 g cur else f.2

/-- FILL_WORD_REREAD (R279, R280). -/
def fillWordReread (g : Fin 64) (s : State) : State :=
  match (dmaAt s g).cur with
  | some cur => if dPsrc cur.d = 2 ∧ !rangeWaits s (dItab cur.d) 4 then pacedLook s g else s
  | none => s

/-- PACED_RELEASE (R279). -/
def pacedRelease (g : Fin 64) (s : State) : State :=
  match (dmaAt s g).cur with
  | some cur => if dPsrc cur.d = 1 then pacedLook s g else s
  | none => s

/-- ARR_WAIT_RELEASE (R278): Q12 takes the held arrival. -/
def arrWaitRelease (g : Fin 64) (s : State) : State :=
  let ch := dmaAt s g
  match ch.arrivals with
  | [] => s
  | (n, e) :: rest =>
    match pushQ12 s n e with
    | none => s
    | some s =>
      settleAbort (modDma s g (fun ch => { ch with
        arrivals := rest, st := if ch.st = .arrWait ∧ rest.isEmpty then .run else ch.st })) g

/-- R272, R277: the arrival of a whole descriptor. -/
def descArrival (cur : DmaCur) : Option W64 :=
  if dArr cur.d && !dArrg cur.d then some (arrivalEntry cur.d cur.d.w2.toNat cur.bytes) else none

/-- DMA_DESCRIPTOR_COMPLETE (R275, R277, R283): every block is written; the arrival is pushed, the status written back, or
the channel halts where it cannot be, and the channel links, idles or ends its chain. An end that waited for its status word
goes on. -/
def dmaDescriptorComplete (g : Fin 64) (s : State) : State :=
  let ch := dmaAt s g
  match ch.cur with
  | none => s
  | some cur =>
    match ch.ending with
    | some (status, follow) => if wbWaits s cur then s else finishNow s g status follow
    | none =>
      if ch.st ≠ .run ∨ ch.halting.isSome ∨ ch.aborting ∨ cur.reading.isSome ∨ cur.block < blocksOf cur.d then s
      else if wbWaits s cur then chanAsk s g ((cur.da.getD 0 + 60) % 2 ^ 48) 4 true else go s cur
where
  go (s : State) (cur : DmaCur) : State :=
    match descArrival cur with
    | some e =>
      if cur.arrived then close s cur
      else match pushQ12 s (dAcore cur.d) e with
        | some s => close s { cur with arrived := true }
        | none => modDma s g (fun ch => { ch with
            st := .arrWait, arrivals := [(dAcore cur.d, e)], cur := some { cur with arrived := true } })
    | none => close s cur
  close (s : State) (cur : DmaCur) : State :=
    let s := modDma s g (fun ch => { ch with cur := some cur })
    match wbFault s cur with
    | some c => blockFault s g (cur.da.getD 0) c
    | none => finishDesc s g 0 true

/-! ### Halts (R283–R285) -/

/-- The payload of a halt's event (R497): DMA_CH_STATUS, DMA_CH_CUR and DMA_CH_POS. -/
def haltPayload (s : State) (g cause : Nat) : Nat :=
  let ch := dmaAt s g
  let da := (ch.cur.bind (·.da)).getD 0
  let block := match ch.cur with | some c => c.block | none => 0
  (5 + put cause 4 + put ch.pending.length 8 + put (fld (regGet s (oDma g dStatus)) 20 16) 16)
    + put da 32 + put (block + put ch.links 16) 96

/-- DMA_HALT_SETTLED (R283, R285): the channel is HALTED, or with HOLD 0 ends at once as ABORT. -/
def dmaHaltSettled (g : Fin 64) (s : State) : State :=
  let ch := dmaAt s g
  match ch.halting with
  | none => s
  | some cause =>
    if (match ch.cur with | some c => c.reading.isSome | none => false) || !ch.arrivals.isEmpty then s
    else
      let s := setDma s g { ch with st := .halted, cause := cause, halting := none }
      let s := count s (oDma g dHaltCnt)
      let s := dmaEvent s g (haltClass cause) 1 cause (haltPayload s g cause)
      if regBit s (oDma g dCtl) 0 && !ch.aborting then s else finishDesc s g (causeStatus cause) false

/-- R284, R80: a range waits at a stack that is not READY, so the count of its request pauses. -/
def rangePaused (s : State) (da len : Nat) : Bool :=
  (units32 da len).any (fun p =>
    decide (daKind s (p.1 % 2 ^ 48) = .dram) && !daError s (p.1 % 2 ^ 48)
      && decide ((stackAt s (locate s (p.1 % 2 ^ 48)).stack).st ≠ .ready))

/-- R284: the request of the block in hand that has no response: its fill word, its index, its source, or its destination. -/
def blockRange (s : State) (ch : DmaCh) (cur : DmaCur) : Option (Nat × Nat) :=
  let d := cur.d
  let itab := (dItab d + 4 * cur.block) % 2 ^ 48
  let known := match cur.itab with | some (u, _) => u == itab / 32 * 32 | none => false
  let idx := match cur.itab with | some (_, bs) => sliceNat bs (itab % 32) 4 | none => 0
  let a := blockAddr d cur.block (if dIdxs d || dIdxd d then idx else 0)
  let src := (a.src, dBlklen d)
  let dst := (a.dst, blockOut d)
  if ch.st = .paced ∨ (dPsrc d = 2 ∧ !cur.passed) then (if dPsrc d = 2 then some (dItab d, 4) else none)
  else if (dIdxs d || dIdxd d) && !known then some (itab, 4)
  else if !dDas d && (dSas d || (rangeWaits s a.dst dst.2 true && !rangeWaits s a.src src.2)) then some dst
  else if dSas d then none else some src

/-- R284: the device address of the request that a channel has outstanding. -/
def openRange (s : State) (ch : DmaCh) : Option (Nat × Nat) :=
  match ch.cur with
  | none => ch.fetching.map (fun da => (da, 64))
  | some cur =>
    if ch.ending.isSome ∨ (blocksOf cur.d ≤ cur.block ∧ dWb cur.d ∧ wbWaits s cur) then cur.da.map (fun da => (da + 60, 4))
    else if blocksOf cur.d ≤ cur.block then
      (match ch.got, ch.ahead with
        | none, some da => some (da, 64)
        | _, _ => if dWb cur.d then cur.da.map (fun da => (da + 60, 4)) else none)
    else blockRange s ch cur

/-- R281: the fetch of NEXT, whose failure waits until the link is taken, is the request that has no response. -/
def aheadOpen (s : State) (ch : DmaCh) : Bool :=
  ch.ahead.isSome && ch.got.isNone && ch.ending.isNone
    && (match ch.cur with | some cur => decide (blocksOf cur.d ≤ cur.block) && !wbWaits s cur | none => false)

/-- DMA_RESPONSE_TIMEOUT (R284): a request of the channel has had no response for 50 µs. -/
def dmaResponseTimeout (g : Fin 64) (s : State) : State :=
  let ch := dmaAt s g
  let late := fun (s : State) => modDma s g (fun ch => { ch with late := ch.late + 1, ending := none })
  match ch.cur.bind (·.reading) with
  | some tag =>
    let s : State := { s with link := { s.link with reads := tdel tag s.link.reads } }
    haltDma (late (modDma s g (fun ch => { ch with cur := ch.cur.map (fun c => { c with reading := none }) }))) g 3
  | none =>
    let runs := ch.ending.isSome || (match ch.st with | .fetch => true | .run => true | .paced => true | _ => false)
    match openRange s ch with
    | none => s
    | some p =>
      if !runs ∨ ch.halting.isSome ∨ rangePaused s p.1 p.2 then s
      else if aheadOpen s ch then late (modDma s g (fun ch => { ch with got := some (.fault 3) }))
      else haltDma (late s) g 3

/-- LATE_RESPONSE (R284): a response after the halt is discarded and counted. -/
def lateResponse (g : Fin 64) (s : State) : State :=
  if (dmaAt s g).late = 0 then s
  else count (modDma s g (fun ch => { ch with late := ch.late - 1 })) (oDma g dLateCnt)

/-- The chain of a halted channel ends with the halt's status (R285). -/
def abortHalted (s : State) (g : Nat) : State := finishDesc s g (causeStatus (dmaAt s g).cause) false

/-- RESUME (R285): again from block 0, or the same fetch again. -/
def resume (g : Fin 64) (s : State) : State :=
  let ch := dmaAt s g
  if ch.st ≠ .halted ∨ ch.ending.isSome then s
  else match ch.cur with
    | some cur => setDma s g { ch with
        st := .run, cur := some { cur with
          block := 0, done := 0, bytes := 0, dflags := 0, arrived := false, passed := false, itab := none } }
    | none =>
      if ch.fetching.isSome ∧ ch.cause ≠ 4 ∧ ch.cause ≠ 6 then setDma s g { ch with st := .fetch } else abortHalted s g

/-- SKIP (R285): the descriptor completes with its halt status, and the chain goes on. -/
def skip (g : Fin 64) (s : State) : State :=
  let ch := dmaAt s g
  if ch.st ≠ .halted ∨ ch.ending.isSome then s else finishDesc s g (causeStatus ch.cause) true

/-- ABORT (R285, R291): a halted chain ends with its halt status, any other after the block in flight. -/
def abort (g : Fin 64) (s : State) : State :=
  let ch := dmaAt s g
  if ch.st = .idle then s
  else if ch.ending.isSome then modDma s g (fun ch => { ch with ending := ch.ending.map (fun e => (e.1, false)) })
  else if ch.st = .halted then abortHalted s g
  else settleAbort (modDma s g (fun ch => { ch with aborting := true })) g

/-- GO (R282, R286, R291): a register start. -/
def go (g : Fin 64) (value : BitVec 32) (s : State) : State :=
  let s := regSetFld s (oDma g dStartHi) 15 0 (fld value 15 0)
  if !bitOf value 31 then s
  else
    let lo := (regGet s (oDma g dStartLo)).toNat
    let da := lo + put (fld value 15 0) 32
    if lo % 64 ≠ 0 then event (regSetBit s (oDma g dStatus) 19) 6 4 2 0 g
    else if 8 ≤ (dmaAt s g).pending.length then regSetBit s (oDma g dStatus) 20
    else match ownerOf s da with
      | some o => noteRearm s g da o
      | none => modDma s g (fun ch => { ch with pending := ch.pending ++ [{ origin := .reg, head := none, da := da }] })

/-- R284, R343: the data of a host source arrives. -/
def dmaHostData (s : State) (g tag : Nat) (answer : HostAnswer) : State :=
  match (dmaAt s g).cur with
  | none => s
  | some cur =>
    if cur.reading ≠ some tag then s
    else
      let cur := { cur with reading := none }
      let s := modDma s g (fun ch => { ch with cur := some cur })
      if (dmaAt s g).halting.isSome then s
      else match answer with
        | .error => haltDma s g 1
        | .data _ true => haltDma s g 2
        | .data bs false => blockData s g cur cur.dst cur.src (bs.take (dBlklen cur.d)) none

end Sys2Proof.Machine
end

