-- ==== Sys2Proof/Machine/Rings.lean ====
section
/-! DEFINITION. Doorbells, the fetch of slots, the ring registers and interrupts (R363–R373, R387, R394–R396). -/

namespace Sys2Proof.Machine

open Sys2Proof

/-! ### Doorbells (R366–R368) -/

/-- R367: an ignored doorbell write. -/
def doorbellIgnored (s : State) (n sub value : Nat) : State :=
  event (regSetBit s (oRing n rStatus) 20) 6 6 1 sub n value

/-- SQ_TAIL (R367, R371, R493). -/
def sqTail (ring : Fin 1024) (value : BitVec 32) (s : State) : State :=
  let n := ring.val
  let r := ringAt s n
  let i := fld value 15 0
  if s.phase ≠ 5 ∨ (r.st ≠ .running ∧ r.st ≠ .stalled) ∨ sqSize s n ≤ i then doorbellIgnored s n 0 value.toNat
  else setRing s n { r with tail := i, st := .running, notVisible := if r.st = .stalled then none else r.notVisible }

/-- CQ_HEAD (R367, R368): only records already written are released. -/
def cqHead (ring : Fin 1024) (value : BitVec 32) (s : State) : State :=
  let n := ring.val
  let r := ringAt s n
  let h := fld value 15 0
  let size := cqSize s n
  if s.phase ≠ 5 ∨ r.st = .disabled ∨ size ≤ h
      ∨ (r.cqTail + size - r.hostHead) % size < (h + size - r.hostHead) % size then doorbellIgnored s n 1 value.toNat
  else setRing s n { r with hostHead := h }

/-! ### Fetching (R369–R371) -/

/-- R370. -/
def slotVisible (r : Ring) (d : Desc) : Bool := bitOf d.w0 7 == r.sqPhase && bitOf d.w5 63 == bitOf d.w0 7

/-- R387: what the front end keeps of a descriptor until its record. -/
def admOf (did n slot : Nat) (posted : Bool) (d : Desc) : Adm :=
  let cls := fld d.w0 6 0
  { did := did, ring := n, slot := slot, posted := posted, jobtag := dJobtag d
    supp := bitOf d.w3 61, cirq := bitOf d.w3 62, fen := bitOf d.w3 63
    deadline := if cls = 2 ∨ cls = 5 then d.w6 else 0, cls := cls, head := BitVec.ofNat 128 (descHead d) }

/-- R364, R365: the descriptor at the fetch position is copied. -/
def takeSlot (s : State) (n : Nat) (d : Desc) : State :=
  let r := ringAt s n
  let did := s.nextId
  let next := (r.fetchPos + 1) % sqSize s n
  let s : State := { s with nextId := did + 1, admitted := s.admitted ++ [admOf did n r.fetchPos false d] }
  setRing s n { r with
    fetchPos := next, sqPhase := if next = 0 then !r.sqPhase else r.sqPhase, notVisible := none
    queue := r.queue ++ [{ did := did, d := d, slot := r.fetchPos, posted := false }] }

/-- The visible slots of a request, in index order, as far as the ring admits them (R370, R387). -/
def takeSlots (n : Nat) : List Desc → State → State
  | [], s => s
  | d :: rest, s =>
    let r := ringAt s n
    if r.fetchPos = r.tail ∨ !ringAdmits s n then s
    else if slotVisible r d then takeSlots n rest (takeSlot s n d)
    else setRing s n { r with notVisible := some s.time }

/-- The front end may read the ring's next slot. -/
def ringFetches (s : State) (n : Nat) : Bool :=
  frontUp s && decide (s.power.st ≠ .standby) && linkCarries s && decide ((ringAt s n).st = .running) && regBit s (oRing n rCtl) 0
    && regBit s (oRing n rCtl) 1 && (ringAt s n).fetchPos != (ringAt s n).tail

def sqBase (s : State) (n : Nat) : Nat := (regGet s (oRing n rSqLo)).toNat + put (regGet s (oRing n rSqHi)).toNat 32

def slotLine (s : State) (n slot : Nat) : Nat := (sqBase s n + 64 * (slot % sqSize s n)) / 64

/-- R342: the slot as the host-line cache holds it, or as the read returns it. -/
def slotSeen (s : State) (n slot : Nat) (d : Desc) : Desc :=
  if coherent s then ((s.link.hostLines.find? (fun p => p.1 == slotLine s n slot)).map (·.2)).getD d else d

/-- R342, R369: in the coherent modes a slot's line is read into the host-line cache, when it is not there. -/
def cacheSlot (s : State) (n tag slot : Nat) (d : Desc) : State :=
  let line := slotLine s n slot
  if s.link.hostLines.any (fun p => p.1 == line) then s
  else
    let s := hostReadOut s (64 * line) 64 tag true
    { s with link := { s.link with hostLines := ((s.link.hostLines ++ [(line, d)]).reverse.take 16384).reverse } }

/-- R369: consecutive slots are read in one request, in two where the ring wraps. -/
def readSlots (s : State) (n pos : Nat) (got : List Desc) : State :=
  let tag := s.link.nextTag
  let s : State := { s with link := { s.link with nextTag := tag + 1 } }
  if coherent s then (got.zipIdx).foldl (fun s p => cacheSlot s n tag (pos + p.2) p.1) s
  else
    let a := min got.length (sqSize s n - pos)
    let s := hostReadOut s (sqBase s n + 64 * pos) (64 * a) tag true
    hostReadOut s (sqBase s n) (64 * (got.length - a)) tag true

def ringPrio (s : State) (n : Nat) : Nat := regFld s (oRing n rCfg) 17 16

/-- R369, R385, R387, R393: the front end can fetch from the ring now; a ring that a FENCE holds is not considered. -/
def ringMayFetch (s : State) (n : Nat) : Bool :=
  ringFetches s n && (ringAt s n).notVisible.isNone && (ringAt s n).fence.isNone && ringAdmits s n

/-- Pending slots from the fetch position on, at most 8 (R367, R369). -/
def pendingSlots (s : State) (n : Nat) : Nat :=
  min 8 (((ringAt s n).tail + sqSize s n - (ringAt s n).fetchPos) % sqSize s n)

/-- RING_SLOT_FETCH (R369, R370, R393): up to eight consecutive slots as the read returned them, from a ring of the highest
priority that can fetch. -/
def ringSlotFetch (ring : Fin 1024) (slots : List Desc) (s : State) : State :=
  let n := ring.val
  if ringMayFetch s n ∧ !s.rings.any (fun p => ringMayFetch s p.1 && decide (ringPrio s n < ringPrio s p.1)) then
    let pos := (ringAt s n).fetchPos
    let got := (slots.take (pendingSlots s n)).zipIdx.map (fun p => slotSeen s n (pos + p.2) p.1)
    takeSlots n got (readSlots s n pos got)
  else s

/-- SLOT_REREAD (R371): the slot that was not visible is read again; in the coherent modes a line in the cache stands until
the host's write snoops it out (R342). -/
def slotReread (ring : Fin 1024) (slot : Desc) (s : State) : State :=
  let n := ring.val
  let r := ringAt s n
  if ringFetches s n ∧ r.notVisible.isSome ∧ ringAdmits s n then
    let d := slotSeen s n r.fetchPos slot
    let s := readSlots s n r.fetchPos [d]
    if slotVisible r d then takeSlot s n d else s
  else s

/-- RING_STALL (R371): 2 µs have passed since the slot was first found not visible. -/
def ringStall (ring : Fin 1024) (s : State) : State :=
  let n := ring.val
  let r := ringAt s n
  if r.st = .running ∧ r.notVisible.isSome then
    let s := setRing s n { r with st := .stalled, notVisible := none }
    event (count (regSetBit s (oRing n rStatus) 19) (oRing n rDbEarly)) 6 6 2 0 n r.fetchPos
  else s

/-! ### Interrupts (R394, R395) -/

/-- IRQ_TIME_TRIGGER (R395): the oldest uncovered record is TIME µs old. -/
def irqTimeTrigger (ring : Fin 1024) (s : State) : State :=
  let irq := regGet s (oRing ring rIrq)
  if bitOf irq 11 ∧ fld irq 31 24 ≠ 0 ∧ (ringAt s ring).uncovered ≠ 0 then ringInterrupt s ring else s

/-- MSIX_UNMASK (R395): a pending message is sent. -/
def msixUnmask (vector : Fin 1025) (s : State) : State :=
  let e := msixAt s vector
  let s := setMsix s vector { e with masked := false }
  if e.pend then msixRaise s vector else s

/-- R396: a write of RING_IRQ; records that no interrupt has covered may fall due by it. -/
def ringIrqWrite (s : State) (n : Nat) (v : W32) : State :=
  let vec := fld v 10 0
  let cnt := fld v 23 16
  let new := (v &&& w32 (ringReg rIrq).rw).toNat
  let new := if 1023 < vec then new - vec else new
  let new := if cnt = 0 then new + put 1 16 else new
  let s := regSet s (oRing n rIrq) (w32 new)
  if (ringAt s n).uncovered ≠ 0 then ringTrigger s n false 0 else s

/-! ### Ring registers (R396) -/

/-- R365: a ring is enabled; uncovered records stay so. -/
def enableRing (s : State) (n : Nat) : State :=
  modRing s n (fun r => { st := .running, uncovered := r.uncovered, oldest := r.oldest })

/-- R396: a write of RING_CTL. -/
def ringCtlWrite (s : State) (n : Nat) (v : W32) : State :=
  let s := regSet s (oRing n rCtl) (v &&& 7)
  let st := (ringAt s n).st
  if bitOf v 0 then (if st = .disabled then enableRing s n else s)
  else if st = .running ∨ st = .stalled then settleRing (modRing s n (fun r => { r with st := .draining, notVisible := none })) n
  else s

/-- RING_ENABLE (R365, R396): a write of RING_CTL with EN 1. -/
def ringEnable (ring : Fin 1024) (value : BitVec 32) (s : State) : State := ringCtlWrite s ring value

/-- RING_DISABLE (R396): a write of RING_CTL with EN 0. -/
def ringDisable (ring : Fin 1024) (value : BitVec 32) (s : State) : State := ringCtlWrite s ring value

/-- R396: SQ_LOG2 and CQ_LOG2 outside 4–16 are stored as 4. -/
def ringLog2 (v : Nat) : Nat := if 4 ≤ v ∧ v ≤ 16 then v else 4

def ringCfgValue (v : W32) : W32 :=
  w32 (ringLog2 (fld v 4 0) + put (ringLog2 (fld v 12 8)) 8 + put (fld v 17 16) 16
    + put (if fld v 23 20 = 0 then 1 else fld v 23 20) 20)

/-- RING_CONFIG_WRITE (R396): a base register or RING_CFG. -/
def ringConfigWrite (ring : Fin 1024) (reg : Fin 5) (value : BitVec 32) (s : State) : State :=
  let n := ring.val
  let o := 4 * reg.val
  if (ringAt s n).st ≠ .disabled then regSetBit s (oRing n rStatus) 21
  else if o = rCfg then regSet s (oRing n rCfg) (ringCfgValue value)
  else regSet s (oRing n o) (value &&& w32 (ringReg o).rw)

end Sys2Proof.Machine
end

