-- ==== Sys2Proof/Machine/Vector.lean ====
section
/-! DEFINITION. The vector engine (R240–R262): VEC, CHAIN and PERM instructions. -/

namespace Sys2Proof.Machine

open Sys2Proof

/-- VOP, VQMX (R253), CHAIN (R255) and the permutations (R259): the issue. -/
def vop (core : Fin 1200) (s : State) : State := engIssue s core 6 0
def vqmx (core : Fin 1200) (s : State) : State := engIssue s core 6 1
def chain (core : Fin 1200) (s : State) : State := engIssue s core 7 0
def gather (core : Fin 1200) (s : State) : State := engIssue s core 8 0
def scatter (core : Fin 1200) (s : State) : State := engIssue s core 8 1
def compress (core : Fin 1200) (s : State) : State := engIssue s core 8 2
def expand (core : Fin 1200) (s : State) : State := engIssue s core 8 3

/-! ### Lanes and masks (R242, R244) -/

/-- The stream whose LEN gives VL, and its element width (R242, R259). -/
def lengthStream (e : EngInstr) : W64 :=
  if iClass e.word = 8 then
    match iOp e.word with
    | 0 => engSrc e 1
    | 1 => engSrc e 1
    | 2 => engSrc e 0
    | _ => engSrc e 2
  else engSrc e 0

def lengthBits (e : EngInstr) : Nat :=
  if iClass e.word = 8 ∧ 2 ≤ iOp e.word then fmtBits (eFmt (engSrc e 0)) else fmtBits (eFmt (lengthStream e))

def vecLen (e : EngInstr) : Nat :=
  if vNsel e.word then e.vl else 8 * eLen (lengthStream e) / lengthBits e

/-- Lane i is active, and whether a poisoned mask line made it so. -/
def laneMask (s : State) (n : Nat) (e : EngInstr) (i : Nat) : Bool × Bool :=
  if vMen e.word then
    let off := e.mask.toNat
    let p := elemPoison s n off 1 i
    (p || ((elemGet s n off 1 i != 0) != vMneg e.word), p)
  else (true, false)

/-- The active lanes below VL, each with the poison of its mask line. -/
def activeLanes (s : State) (n : Nat) (e : EngInstr) : List (Nat × Bool) :=
  (List.range (vecLen e)).filterMap (fun i =>
    let m := laneMask s n e i
    if m.1 then some (i, m.2) else none)

/-- The bytes of the mask. -/
def maskBytes (e : EngInstr) : Nat := (vecLen e + 7) / 8

/-- R244: an offset off a line, or a mask that runs past the scratchpad. -/
def maskBad (e : EngInstr) : Bool :=
  vMen e.word && (decide (e.mask.toNat % 32 ≠ 0) || decide (524288 < e.mask.toNat + maskBytes e))

/-- The output region `o` meets the mask. -/
def maskOverlap (e : EngInstr) (o : W64) : Bool :=
  vMen e.word && overlaps (eOff o) (eLen o) e.mask.toNat (maskBytes e)

/-! ### Stages (R246, R247) -/

def sSop (w : W32) : Nat := fld w 5 0
def sSelA (w : W32) : Nat := fld w 8 6
def sSelB (w : W32) : Nat := fld w 11 9
def sSelC (w : W32) : Nat := fld w 14 12
def sImm (w : W32) : W32 := w32 (fld w 31 16 * 65536)

def isReduction (w : W32) : Bool := decide (32 ≤ sSop w ∧ sSop w ≤ 36)

/-- The number of operands that an operation reads. -/
def sopArity (sop : Nat) : Nat :=
  if sop = 4 ∨ sop = 10 ∨ sop = 11 then 3
  else if (1 ≤ sop ∧ sop ≤ 3) ∨ sop = 5 ∨ sop = 6 ∨ (12 ≤ sop ∧ sop ≤ 15) then 2
  else 1

/-- The selects that a stage reads. -/
def stageReads (w : W32) : List Nat := [sSelA w, sSelB w, sSelC w].take (sopArity (sSop w))

def readsSel (w : W32) (sel : Nat) : Bool := (stageReads w).contains sel
def readsStream (w : W32) : Bool := (stageReads w).any (fun x => decide (1 ≤ x ∧ x ≤ 3 ∨ x = 6))

def sopReserved (sop : Nat) : Bool := decide (26 ≤ sop ∧ sop ≤ 31 ∨ 37 ≤ sop)

/-- The groups of R256. -/
structure Groups where
  pass1 : List W32 := []
  boundary : Option W32 := none
  scalars : List W32 := []
  pass2 : List W32

def chainGroups (ws : List W32) : Groups :=
  if ws.any (fun w => readsSel w 5) then
    let p1 := ws.takeWhile (fun w => !isReduction w)
    let rest := ws.drop (p1.length + 1)
    let sc := rest.takeWhile (fun w => !readsStream w && !isReduction w)
    { pass1 := p1, boundary := ws[p1.length]?, scalars := sc, pass2 := rest.drop sc.length }
  else { pass2 := ws }

def lastReduces (ws : List W32) : Bool := (ws.getLast?.map isReduction).getD false

/-- R257. -/
def stageBad (e : EngInstr) : Bool :=
  let ws := e.stages
  let outm := vOutm e.word
  let g := chainGroups ws
  let taps := (g.pass2.filter isReduction).length
  ws.any (fun w => sopReserved (sSop w) || bitOf w 15 || readsSel w 7
      || (readsSel w 2 && !engUses e 1) || (readsSel w 3 && (!engUses e 2 || outm == 1)))
    || (ws.any (fun w => readsSel w 5)
      && (g.boundary.isNone || (g.pass1 ++ g.boundary.toList).any (fun w => readsSel w 5)
        || (g.pass2.head?.map (fun w => readsSel w 0)).getD false))
    || decide (1 < taps)
    || (outm == 2 && !lastReduces ws)
    || (outm != 2 && lastReduces ws && ws.length != 1)

/-- A value with the CORE_VSTAT bits its computation raises. -/
structure Val where
  v : W32
  fl : Nat := 0

/-- A rounded result: NAN when no operand was NaN, OVF when a finite result left the range (R248). -/
def mkVal (nanIn : Bool) (x : FV) : Val :=
  let r := round32 false x
  { v := r.1, fl := (if x.isNan && !nanIn then vsNan else 0) + (if r.2 then vsOvf else 0) }

/-- A result given as bits (R248's bounded functions). -/
def bitsVal (a r : W32) : Val :=
  let nan := (dec32 r).isNan
  { v := if nan then nan32 else r
    fl := (if nan && !(dec32 a).isNan then vsNan else 0) + (if (dec32 r).isInf && (dec32 a).isFin then vsOvf else 0) }

def inf32 (neg : Bool) : W32 := w32 (sign neg 31 + 0x7F800000)
def zero32 (neg : Bool) : W32 := w32 (sign neg 31)
def one32 : W32 := 0x3F800000
def bool32 (b : Bool) : W32 := if b then one32 else 0

/-- R247, IEEE 754: NaN if either is NaN, and −0 below +0. -/
def vmax32 (a b : W32) : W32 :=
  let x := dec32 a
  let y := dec32 b
  if x.isNan || y.isNan then nan32 else if x.lt y || (x.isZero && y.isZero && x.isNeg) then b else a

def vmin32 (a b : W32) : W32 :=
  let x := dec32 a
  let y := dec32 b
  if x.isNan || y.isNan then nan32 else if y.lt x || (x.isZero && y.isZero && y.isNeg) then b else a

def abs32 (a : W32) : W32 := if (dec32 a).isNan then nan32 else setFld a 31 31 0
def neg32 (a : W32) : W32 := if (dec32 a).isNan then nan32 else a ^^^ 0x80000000

/-- R248: the functions of one operand, their special values by IEEE 754; other results are free within their bounds
(log 6). -/
def unaryFn (sop : Nat) (a : W32) : Val :=
  match sop, dec32 a with
  | _, .nan => { v := nan32 }
  | 16, .inf n => { v := zero32 n }
  | 16, .fin n 0 _ => { v := inf32 n, fl := vsDivz }
  | 16, _ => bitsVal a (bounded 1 false (nearRcp (dec32 a)) (Config.rcp a))
  | 17, .fin n 0 _ => { v := inf32 n, fl := vsDivz }
  | 17, .inf false => { v := 0 }
  | 17, .fin false _ _ => bitsVal a (bounded 1 false (nearRsqrt (dec32 a)) (Config.rsqrt a))
  | 17, _ => { v := nan32, fl := vsNan }
  | 18, x => mkVal false (sqrtFV x)
  | 19, .inf n => { v := if n then 0 else inf32 false }
  | 19, .fin _ 0 _ => { v := one32 }
  | 19, _ => bitsVal a (bounded 2 false (nearExp2 (dec32 a)) (Config.exp2 a))
  | 20, .inf n => { v := if n then 0 else inf32 false }
  | 20, .fin _ 0 _ => { v := one32 }
  | 20, _ => bitsVal a (bounded 2 false (nearExp (toFx (dec32 a))) (Config.exp a))
  | 21, .fin _ 0 _ => { v := inf32 true, fl := vsDivz }
  | 21, .inf false => { v := inf32 false }
  | 21, .fin false m x => if (FV.fin false m x).eq .one then { v := 0 } else bitsVal a (bounded 2 false (nearLog2 (dec32 a)) (Config.log2 a))
  | 21, _ => { v := nan32, fl := vsNan }
  | 22, .inf n => { v := if n then neg32 one32 else one32 }
  | 22, .fin n 0 _ => { v := zero32 n }
  | 22, _ => bitsVal a (bounded 4 true (nearTanh (dec32 a)) (Config.tanh a))
  | 23, .inf n => { v := if n then 0 else one32 }
  | 23, _ => bitsVal a (bounded 4 true (nearFx (sigmoidFx (toFx (dec32 a)))) (Config.sigmoid a))
  | 24, .inf false => { v := a }
  | 24, .fin n 0 _ => { v := zero32 n }
  | 24, .inf true => bitsVal a (Config.silu a)
  | 24, _ => bitsVal a (bounded 4 true (nearSilu (dec32 a)) (Config.silu a))
  | 25, .inf false => { v := a }
  | 25, .fin n 0 _ => { v := zero32 n }
  | _, .inf true => bitsVal a (Config.gelu a)
  | _, _ => bitsVal a (bounded 4 true (nearGelu (dec32 a)) (Config.gelu a))

/-- R247: one stage on its operands; a reduction passes a on. -/
def stageOp (sop : Nat) (a b c : W32) : Val :=
  let x := dec32 a
  let y := dec32 b
  let z := dec32 c
  let nan2 := x.isNan || y.isNan
  match sop with
  | 0 => { v := a }
  | 1 => mkVal nan2 (x.add y)
  | 2 => mkVal nan2 (x.sub y)
  | 3 => mkVal nan2 (x.mul y)
  | 4 => mkVal (nan2 || z.isNan) ((x.mul y).add z)
  | 5 => { v := vmax32 a b }
  | 6 => { v := vmin32 a b }
  | 7 => { v := abs32 a }
  | 8 => { v := neg32 a }
  | 9 => mkVal x.isNan (x.mul x)
  | 10 => { v := vmin32 (vmax32 a b) c }
  | 11 => { v := if x.isZero then c else b }
  | 12 => { v := bool32 (y.lt x) }
  | 13 => { v := bool32 (y.lt x || x.eq y) }
  | 14 => { v := bool32 (x.eq y) }
  | 15 => { v := bool32 (!x.eq y) }
  | _ => if 32 ≤ sop then { v := a } else unaryFn sop a

/-! ### Passes -/

/-- What a lane carries from stage to stage. -/
structure Lane where
  i : Nat
  str : Nat → W32
  strPoison : Nat → Bool
  prev : W32
  poison : Bool
  fl : Nat := 0

/-- The chain scalar S with its poison. -/
structure Scal where
  v : W32
  poison : Bool := false
  fl : Nat := 0

def idx32 (i : Nat) : W32 := (round32 false (FV.ofNat i)).1

/-- An operand of a stage (R246). -/
def operand (w : W32) (l : Lane) (sc : Scal) (sel : Nat) : W32 × Bool :=
  match sel with
  | 0 => (l.prev, false)
  | 1 => (l.str 0, l.strPoison 0)
  | 2 => (l.str 1, l.strPoison 1)
  | 3 => (l.str 2, l.strPoison 2)
  | 4 => (sImm w, false)
  | 5 => (sc.v, sc.poison)
  | _ => (idx32 l.i, false)

/-- One stage on one lane. -/
def stageLane (w : W32) (sc : Scal) (l : Lane) : Lane :=
  let a := operand w l sc (sSelA w)
  let b := operand w l sc (sSelB w)
  let c := operand w l sc (sSelC w)
  let r := stageOp (sSop w) a.1 b.1 c.1
  let p := ([a.2, b.2, c.2].take (sopArity (sSop w))).any id
  { l with prev := r.v, poison := l.poison || p, fl := l.fl ||| r.fl }

/-- R249: one partial takes one more value. -/
def redOp (sop : Nat) (a b : W32) : Val :=
  match sop with
  | 32 => stageOp 1 a b 0
  | 33 => { v := vmax32 a b }
  | 34 => { v := vmin32 a b }
  | _ => { v := vmax32 a (abs32 b) }

def redIdentity (sop : Nat) : W32 :=
  match sop with
  | 33 => inf32 true
  | 34 => inf32 false
  | 36 => 0xFFFFFFFF
  | _ => 0

/-- The partials after the lanes in ascending order. -/
def redPartials (sop : Nat) (ls : List Lane) : Table W32 × Nat :=
  ls.foldl (fun (r : Table W32 × Nat) l =>
    let v := redOp sop (tget (redIdentity sop) r.1 (l.i % 32)) l.prev
    (tset (redIdentity sop) (l.i % 32) v.v r.1, r.2 ||| v.fl)) ([], 0)

/-- h = 16, 8, 4, 2, 1 in turn. -/
def redCombine (sop : Nat) (r : Table W32 × Nat) : Table W32 × Nat :=
  [16, 8, 4, 2, 1].foldl (fun (r : Table W32 × Nat) h =>
    (List.range h).foldl (fun (r : Table W32 × Nat) j =>
      let d := redIdentity sop
      let v := redOp sop (tget d r.1 j) (tget d r.1 (j + h))
      (tset d j v.v r.1, r.2 ||| v.fl)) r) r

/-- R249: NaN above +∞. -/
def argBelow (a b : W32) : Bool :=
  let x := dec32 a
  let y := dec32 b
  !x.isNan && (y.isNan || x.lt y)

def redArgmax : List Lane → Option Lane
  | [] => none
  | l :: r =>
    match redArgmax r with
    | some b => if argBelow l.prev b.prev then some b else some l
    | none => some l

/-- R249: the result of a reduction stage over the active lanes. -/
def reduce (sop : Nat) (ls : List Lane) : Scal :=
  let poison := ls.any (fun (l : Lane) => l.poison)
  if sop = 36 then
    match redArgmax ls with
    | some l => { v := w32 l.i, poison := poison }
    | none => { v := redIdentity 36, fl := vsEmpty }
  else
    let r := redCombine sop (redPartials sop ls)
    { v := tget (redIdentity sop) r.1 0, poison := poison, fl := r.2 ||| (if ls.isEmpty then vsEmpty else 0) }

/-- The lanes after some stages, with the tap's result if one of them reduces. -/
def runStages (sc : Scal) : List W32 → List Lane → Option Scal → List Lane × Option Scal
  | [], ls, t => (ls, t)
  | w :: ws, ls, t =>
    let ls := ls.map (stageLane w sc)
    runStages sc ws ls (if isReduction w then some (reduce (sSop w) ls) else t)

/-- R256: each scalar stage replaces S. -/
def runScalars (ws : List W32) (sc : Scal) : Scal :=
  ws.foldl (fun sc w =>
    let l := stageLane w sc { i := 0, str := fun _ => 0, strPoison := fun _ => false, prev := sc.v, poison := sc.poison }
    { v := l.prev, poison := l.poison, fl := sc.fl ||| l.fl }) sc

/-- The active lanes as a pass begins: stage 0's PREV is STR0 (R255). -/
def startLanes (s : State) (n : Nat) (e : EngInstr) : List Lane :=
  let w := fun k => fmtBits (eFmt (engSrc e k))
  let str := fun i k =>
    (round32 false (fmtValue (eFmt (engSrc e k)) (elemGet s n (eOff (engSrc e k)) (w k) i))).1
  let raw := fun i k =>
    if eFmt (engSrc e k) = 1 then w32 (elemGet s n (eOff (engSrc e k)) 32 i) else str i k
  let pois := fun i k => elemPoison s n (eOff (engSrc e k)) (w k) i
  (activeLanes s n e).map (fun (a : Nat × Bool) =>
    { i := a.1, str := raw a.1, strPoison := pois a.1, prev := raw a.1 0, poison := a.2 })

/-- What a VOP or CHAIN computes: the lanes, the value for DST1 (or DST0 with OUTM 2), every flag and the poison. -/
structure Result where
  lanes : List Lane
  tap : Option Scal
  fl : Nat
  poison : Bool

/-- The first stage of a pass that reads PREV carries the poison of STR0. -/
def prevPoison (ws : List W32) (l : Lane) : Lane :=
  match ws with
  | w :: _ => if readsSel w 0 then { l with poison := l.poison || l.strPoison 0 } else l
  | [] => l

def runChain (s : State) (n : Nat) (e : EngInstr) : Result :=
  let g := chainGroups e.stages
  let ls := startLanes s n e
  match g.boundary with
  | none =>
    let r := runStages { v := 0 } g.pass2 (ls.map (prevPoison g.pass2)) none
    let t := r.2.getD { v := 0 }
    { lanes := r.1, tap := r.2, fl := r.1.foldl (fun a (l : Lane) => a ||| l.fl) t.fl
      poison := r.1.any (fun (l : Lane) => l.poison) || t.poison }
  | some b =>
    let p1 := (runStages { v := 0 } g.pass1 (ls.map (prevPoison (g.pass1 ++ [b]))) none).1.map (stageLane b { v := 0 })
    let sc := runScalars g.scalars (reduce (sSop b) p1)
    let r := if g.pass2.isEmpty
      then (ls.map (fun (l : Lane) => { l with prev := sc.v, poison := l.poison || sc.poison }), none)
      else runStages sc g.pass2 ls none
    let t := r.2.getD { v := 0 }
    let fl := p1.foldl (fun a (l : Lane) => a ||| l.fl) (sc.fl ||| t.fl)
    { lanes := r.1, tap := r.2, fl := r.1.foldl (fun a (l : Lane) => a ||| l.fl) fl
      poison := r.1.any (fun (l : Lane) => l.poison) || t.poison || sc.poison }

/-! ### Output (R243, R245) -/

/-- Bits of an output element; OFMT 0 is a bit array. -/
def outBits (ofmt : Nat) : Nat := if ofmt = 0 then 1 else fmtBits ofmt

/-- A saturating conversion to an integer format. -/
def toIntVal (lo hi : Int) (w : Nat) (x : FV) : Nat × Nat :=
  let r := toInt lo hi x
  (unsignedOf w r.1, (if r.2.1 then vsSat else 0) + (if r.2.2 then vsNan else 0))

/-- R245: FP32 to OFMT: the element's bits and its flags; a NaN made of a number sets NAN (R248). -/
def convert (ofmt : Nat) (sat : Bool) (v : W32) : Nat × Nat :=
  let x := dec32 v
  let far := fun (r : Nat × Bool) => (r.1, if r.2 && sat then vsSat else 0)
  let nanBit := fun (r : Nat × Nat) => (r.1, r.2 + (if (decE4M3 r.1).isNan && !x.isNan then vsNan else 0))
  match ofmt with
  | 0 => (b2n (!x.isZero), 0)
  | 1 => (v.toNat, 0)
  | 2 => far (toBf16 sat x)
  | 3 => nanBit (far (toE4M3 sat x))
  | 4 => far (toE5M2 sat x)
  | 5 => toIntVal (-(2 ^ 31)) (2 ^ 31 - 1) 32 x
  | 6 => toIntVal (-128) 127 8 x
  | _ => toIntVal 0 (2 ^ 32 - 1) 32 x

/-- The bytes of `k` elements of `w` bits, in whole lines. -/
def lineBytes (k w : Nat) : Nat := (k * w + 255) / 256 * 32

/-- R244: the elements that inactive lanes write when MZ is 1. -/
def zeroLanes (e : EngInstr) (active : List Nat) : List Elem :=
  if vMz e.word then ((List.range (vecLen e)).filter (fun i => !active.contains i)).map (fun i => { i := i, bits := 0 })
  else []

/-- A reserved slot takes its entry, or is given up. -/
def vecEntry (c : Core) (d : Option (Nat × Nat)) (x : Option W64) : Core :=
  match x with
  | some v => qFill c d v
  | none => qUnreserve c d

/-- What an instruction's end leaves of its core: its entries, and with FEN its flag (R240, R251). -/
def vecLeaves (c : Core) (e : EngInstr) (flag : Bool) (d0 d1 : Option W64) : Core :=
  let c := vecEntry (vecEntry c (engDst e 0) d0) (engDst e 1) d1
  if vFen e.word then modTask c e.task (fun t => fSet t (vFd e.word) flag) else c

/-- The end of an instruction: its flag, CORE_VSTAT, its counter and its entries (R240, R251). -/
def vecEnd (s : State) (n : Nat) (e : EngInstr) (fl active : Nat) (flag poison : Bool) (d0 d1 : Option W64) : State :=
  let s := countBy (orVstat s n (fl ||| (if poison then vsPoison else 0))) (oCore n cVecCnt) active
  settleCore (modCore s n (fun c => vecLeaves c e flag d0 d1)) n

/-- The output region of a VOP, CHAIN or COMPRESS. -/
def outHandle (e : EngInstr) : W64 := if vOutm e.word = 1 then engSrc e 2 else engSrc e 0

/-- What an instruction writes to its output, with its exception flags. -/
structure VecOut where
  es : List Elem
  fl : Nat

/-- R245: a VOP's or CHAIN's lanes, converted to OFMT, and what MZ writes. -/
def chainOut (e : EngInstr) (r : Result) : VecOut :=
  let out := r.lanes.map (fun (l : Lane) => (l, convert (vOfmt e.word) (vSat e.word) l.prev))
  { es := out.map (fun (p : Lane × Nat × Nat) => ({ i := p.1.i, bits := p.2.1, poison := p.1.poison } : Elem))
      ++ zeroLanes e (r.lanes.map (fun (l : Lane) => l.i))
    fl := out.foldl (fun a (p : Lane × Nat × Nat) => a ||| p.2.2) r.fl }

/-- R251: the flag of a VOP or CHAIN: EMPTY with a reduction stage, else NAN or OVF. -/
def chainFlag (e : EngInstr) (fl : Nat) : Bool := if e.stages.any isReduction then fl.testBit 0 else fl.testBit 2 || fl.testBit 3

/-- VOP and CHAIN (R253, R255, R256). -/
def chainRun (s : State) (n : Nat) (e : EngInstr) : State :=
  let r := runChain s n e
  let w := e.word
  let tapVal := r.tap.map (fun (t : Scal) => mkValue t.v r.poison (iTag w))
  if vOutm w = 2 then vecEnd s n e r.fl r.lanes.length (chainFlag e r.fl) r.poison tapVal none
  else
    let o := chainOut e r
    let off := eOff (outHandle e)
    let bits := outBits (vOfmt w)
    vecEnd (writeElems s n off bits o.es) n e o.fl r.lanes.length (chainFlag e o.fl) r.poison
      (some (mkHandle off (lineBytes (vecLen e) bits) (vOfmt w) r.poison (iTag w))) tapVal

/-- R242, R262: checks of VOP and CHAIN. -/
def chainFault (e : EngInstr) : Option Nat :=
  let vl := vecLen e
  let outm := vOutm e.word
  let ow := outBits (vOfmt e.word)
  let inputs := [0] ++ (if engUses e 1 then [1] else []) ++ (if engUses e 2 && outm != 1 then [2] else [])
  let o := outHandle e
  firstFault [
    (1, inputs.any (fun i => eFmt (engSrc e i) == 0 || decide (8 ≤ eFmt (engSrc e i)))),
    (2, inputs.any (fun i => decide (8 * eLen (engSrc e i) < vl * fmtBits (eFmt (engSrc e i))))
      || (outm != 2 && decide (8 * eLen o < vl * ow))),
    (3, outm != 2 && ((inputs.any (fun i => (outm == 1 || i != 0) && handleOverlap o (engSrc e i)))
      || maskOverlap e o || (outm == 0 && decide (fmtBits (eFmt (engSrc e 0)) < ow)))),
    (4, stageBad e),
    (6, maskBad e)]

/-! ### VQMX (R254) -/

def mxEmax (ofmt : Nat) : Int :=
  match ofmt with
  | 8 => 8 | 9 => 15 | 10 => 2 | 11 => 4 | 12 => 2
  | _ => 0

/-- One element scaled down, in the MX format; whether it saturated. -/
def mxElem (ofmt : Nat) (x : FV) : Nat × Bool :=
  match ofmt with
  | 8 => toE4M3 true x
  | 9 => toE5M2 true x
  | 10 => toFinite 2 3 1 x
  | 11 => toFinite 3 2 3 x
  | 12 => toFinite 2 1 1 x
  | _ => let r := toInt (-128) 127 (x.mul (.pow2 6)); (unsignedOf 8 r.1, r.2.1)

/-- A block: its scale byte, its elements' bits, and its flags. -/
def mxBlock (ofmt : Nat) (xs : List FV) : Nat × List Nat × Nat :=
  if xs.any (fun x => !x.isFin) then (0xFF, xs.map (fun _ => 0), vsNan)
  else
    let amax := xs.foldl (fun a x => FV.max a x.abs) .zero
    if amax.isZero then (0, xs.map (fun x => (mxElem ofmt x).1), 0)
    else
      let sc := max (-127) (min 127 (floorLog2 amax - mxEmax ofmt))
      let r := xs.map (fun x => mxElem ofmt (x.mul (.pow2 (-sc))))
      ((sc + 127).toNat, r.map (fun p => p.1), if r.any (fun p => p.2) then vsSat else 0)

def vqmxFault (e : EngInstr) : Option Nat :=
  let vl := vecLen e
  let x := engSrc e 0
  let o := engSrc e 2
  let ofmt := vOfmt e.word
  firstFault [
    (1, !(eFmt x == 1 || eFmt x == 2) || decide (ofmt < 8 ∨ 13 < ofmt)),
    (2, decide (8 * eLen x < vl * fmtBits (eFmt x)) || decide (eLen o < lineBytes vl (fmtBits ofmt) + (vl + 31) / 32)),
    (3, handleOverlap o x)]

/-- One block of a VQMX: its number and lanes, its scale, elements and flags, and its poison. -/
structure MxBlock where
  b : Nat
  lanes : List Nat
  out : Nat × List Nat × Nat
  poison : Bool

def vqmxBlock (s : State) (n : Nat) (e : EngInstr) (b : Nat) : MxBlock :=
  let x := engSrc e 0
  let wi := fmtBits (eFmt x)
  let lanes := (List.range (min 32 (vecLen e - 32 * b))).map (· + 32 * b)
  { b := b, lanes := lanes
    out := mxBlock (vOfmt e.word) (lanes.map (fun i => fmtValue (eFmt x) (elemGet s n (eOff x) wi i)))
    poison := lanes.any (fun i => elemPoison s n (eOff x) wi i) }

def vqmxBlocks (s : State) (n : Nat) (e : EngInstr) : List MxBlock :=
  (List.range ((vecLen e + 31) / 32)).map (vqmxBlock s n e)

/-- A block's elements, and its scale. -/
def MxBlock.elems (p : MxBlock) : List Elem :=
  (p.lanes.zip p.out.2.1).map (fun q => { i := q.1, bits := q.2, poison := p.poison })
def MxBlock.scale (p : MxBlock) : Elem := { i := p.b, bits := p.out.1, poison := p.poison }

/-- VQMX (R254). -/
def vqmxRun (s : State) (n : Nat) (e : EngInstr) : State :=
  let blocks := vqmxBlocks s n e
  let w := fmtBits (vOfmt e.word)
  let off := eOff (engSrc e 2)
  let fl := blocks.foldl (fun a p => a ||| p.out.2.2) 0
  let poison := blocks.any (·.poison)
  let soff := off + lineBytes (vecLen e) w
  let s := writeElems (writeElems s n off w (blocks.flatMap (·.elems))) n soff 8 (blocks.map (·.scale))
  vecEnd s n e fl (vecLen e) (fl.testBit 2) poison
    (some (mkHandle off (lineBytes (vecLen e) w) (vOfmt e.word) poison (iTag e.word)))
    (some (mkHandle soff (lineBytes blocks.length 8) 0 poison (iTag e.word)))

/-! ### Permutations (R259–R261) -/

def permBits (e : EngInstr) : Nat := fmtBits (eFmt (engSrc e 0))

/-- Elements that a region holds. -/
def regionCount (h : W64) (w : Nat) : Nat := 8 * eLen h / w

def permFault (e : EngInstr) : Option Nat :=
  let op := iOp e.word
  let vl := vecLen e
  let w := permBits e
  let f := eFmt (engSrc e 0)
  let idx := engSrc e 1
  let o := outHandle e
  let inPlace := decide (op = 2) && vOutm e.word == 0
  firstFault [
    (1, decide (10 ≤ f ∧ f ≤ 12) || (decide (op ≤ 1) && !(eFmt idx == 5 || eFmt idx == 7))),
    (2, (decide (op ≤ 1) && decide (eLen idx < 4 * vl))
      || (decide (op = 1 ∨ op = 2) && decide (8 * eLen (engSrc e 0) < vl * w))
      || decide (8 * eLen o < vl * w)),
    (3, (!inPlace && handleOverlap o (engSrc e 0)) || (decide (op ≤ 1) && handleOverlap o idx) || maskOverlap e o),
    (6, maskBad e)]

/-- R260: the index of a lane, or none when it is out of range for `count` elements. -/
def laneIndex (s : State) (n : Nat) (e : EngInstr) (count i : Nat) : Option Nat :=
  let x := elemGet s n (eOff (engSrc e 1)) 32 i
  if 2 ^ 31 ≤ x ∨ count ≤ x then none else some x

/-- The elements of a permutation, with RANGE. -/
structure Perm where
  es : List Elem
  range : Bool := false
  kept : Nat := 0

def permGather (s : State) (n : Nat) (e : EngInstr) (ls : List (Nat × Bool)) : Perm :=
  let w := permBits e
  let x := engSrc e 0
  let r := ls.map (fun (l : Nat × Bool) =>
    let p := l.2 || elemPoison s n (eOff (engSrc e 1)) 32 l.1
    match laneIndex s n e (regionCount x w) l.1 with
    | some k => (({ i := l.1, bits := elemGet s n (eOff x) w k, poison := p || elemPoison s n (eOff x) w k } : Elem), false)
    | none => (({ i := l.1, bits := e.fill.toNat % 2 ^ w, poison := p } : Elem), true))
  { es := r.map (fun p => p.1) ++ zeroLanes e (ls.map (fun l => l.1)), range := r.any (fun p => p.2) }

/-- The higher lane wins. -/
def permScatter (s : State) (n : Nat) (e : EngInstr) (ls : List (Nat × Bool)) : Perm :=
  let w := permBits e
  let x := engSrc e 0
  ls.foldl (fun (a : Perm) l =>
    let p := l.2 || elemPoison s n (eOff (engSrc e 1)) 32 l.1 || elemPoison s n (eOff x) w l.1
    match laneIndex s n e (regionCount (engSrc e 2) w) l.1 with
    | some k => { a with
        es := a.es.filter (fun (y : Elem) => y.i != k) ++ [{ i := k, bits := elemGet s n (eOff x) w l.1, poison := p }] }
    | none => { a with range := true }) { es := [] }

def permCompress (s : State) (n : Nat) (e : EngInstr) (ls : List (Nat × Bool)) : Perm :=
  let w := permBits e
  let x := engSrc e 0
  { es := (ls.zip (List.range ls.length)).map (fun p =>
      ({ i := p.2, bits := elemGet s n (eOff x) w p.1.1, poison := p.1.2 || elemPoison s n (eOff x) w p.1.1 } : Elem))
    kept := ls.length }

def permExpand (s : State) (n : Nat) (e : EngInstr) (ls : List (Nat × Bool)) : Perm :=
  let w := permBits e
  let x := engSrc e 0
  let have' := regionCount x w
  { es := (ls.zip (List.range ls.length)).map (fun p =>
      if p.2 < have' then
        ({ i := p.1.1, bits := elemGet s n (eOff x) w p.2, poison := p.1.2 || elemPoison s n (eOff x) w p.2 } : Elem)
      else { i := p.1.1, bits := e.fill.toNat % 2 ^ w, poison := p.1.2 }) ++ zeroLanes e (ls.map (fun l => l.1))
    range := decide (have' < ls.length) }

def permOf (s : State) (n : Nat) (e : EngInstr) (ls : List (Nat × Bool)) : Perm :=
  match iOp e.word with
  | 0 => permGather s n e ls
  | 1 => permScatter s n e ls
  | 2 => permCompress s n e ls
  | _ => permExpand s n e ls

def permRun (s : State) (n : Nat) (e : EngInstr) : State :=
  let ls := activeLanes s n e
  let r := permOf s n e ls
  let w := permBits e
  let o := outHandle e
  let poison := r.es.any (fun (x : Elem) => x.poison)
  let isC := decide (iOp e.word = 2)
  let count := if isC then r.kept else vecLen e
  let empty := isC && r.kept == 0
  let s := writeElems s n (eOff o) w r.es
  vecEnd s n e ((if r.range then vsRange else 0) + (if empty then vsEmpty else 0)) ls.length (if isC then empty else r.range)
    poison (some (mkHandle (eOff o) (lineBytes count w) (eFmt (engSrc e 0)) poison (iTag e.word)))
    (if isC then some (mkValue (w32 r.kept) poison (iTag e.word)) else none)

/-! ### Completion -/

def vecFault (e : EngInstr) : Option Nat :=
  if iClass e.word = 8 then permFault e
  else if iClass e.word = 6 ∧ iOp e.word = 1 then vqmxFault e
  else chainFault e

def vecRun (s : State) (n : Nat) (e : EngInstr) : State :=
  if iClass e.word = 8 then permRun s n e
  else if iClass e.word = 6 ∧ iOp e.word = 1 then vqmxRun s n e
  else chainRun s n e

/-- VECTOR_COMPLETE (R240): the head writes its result; its entries become visible and its flag is written. -/
def vectorComplete (core : Fin 1200) (s : State) : State :=
  let n := core.val
  match (coreAt s n).vecq with
  | [] => s
  | e :: r =>
    if coreHeld s n then s
    else
      let s := modCore s n (fun c => { c with vecq := r })
      match vecFault e with
      | some code => engTrap s n code e
      | none => vecRun s n e

end Sys2Proof.Machine
end

