-- ==== Sys2Proof/Machine/Verify.lean ====
section
/-! DEFINITION. Program images (R211) and the verifier (R224–R226, R263). -/

namespace Sys2Proof.Machine

open Sys2Proof

/-! ### The image (R211) -/

def imgNinstr (b : List Byte) : Nat := sliceNat b 6 2
def imgNtask (b : List Byte) : Nat := sliceNat b 8 1
def imgEntry (b : List Byte) (t : Nat) : Nat := sliceNat b (12 + 2 * t) 2
def imgLength (b : List Byte) : Nat := sliceNat b 20 4
def imgProgId (b : List Byte) : W32 := w32 (sliceNat b 24 4)
def imgParam (b : List Byte) (i : Nat) : W32 := w32 (sliceNat b (224 + 4 * i) 4)
def imgInstr (b : List Byte) (i : Nat) : W128 := BitVec.ofNat 128 (sliceNat b (480 + 16 * i) 16)

/-- Cores that a 160 B map names, ascending (R211, R376). -/
def mapCores (b : List Byte) : List Nat :=
  (List.range 1280).filter (fun n => (b.getD (n / 8) 0).toNat.testBit (n % 8))

def imgCores (b : List Byte) : List Nat := mapCores ((b.drop 64).take 160)

/-- CRC-32, IEEE 802.3. -/
def crcBits : Nat → Nat → Nat
  | 0, c => c
  | n + 1, c => crcBits n (if c % 2 = 1 then c / 2 ^^^ 0xEDB88320 else c / 2)

def crc32 (b : List Byte) : Nat := b.foldl (fun c x => crcBits 8 (c ^^^ x.toNat)) 0xFFFFFFFF ^^^ 0xFFFFFFFF

/-- R211: the CRC of the image's LENGTH bytes, its own field taken as 0; what follows them (the padding of a package's
section, R441) is no part of the image. -/
def imgCrc (b : List Byte) : Nat :=
  let image := b.take (imgLength b)
  crc32 (image.take 28 ++ zeros 4 ++ image.drop 32)

/-! ### Payload bits (R194–R208, R232, R241) -/

/-- Bits hi:lo as a mask. -/
def mbits (hi lo : Nat) : Nat := (2 ^ (hi + 1 - lo) - 1) * 2 ^ lo

def orMasks (l : List (Nat × Nat)) : Nat := l.foldl (fun a p => a ||| mbits p.1 p.2) 0

/-- The bits that an operation's payload names; every other bit of 127:64 is reserved. -/
def payloadMask (cls op : Nat) : Nat :=
  match cls with
  | 0 => match op with
    | 1 => orMasks [(81, 64), (127, 96)]
    | 2 => mbits 65 64
    | 3 => mbits 73 64
    | 6 => mbits 79 64
    | _ => 0
  | 1 => orMasks ([(75, 64), (127, 96)]
      ++ (if [2, 4, 5, 6, 7, 8, 12, 13, 14].contains op then [(81, 76)] else [])
      ++ (if op = 14 ∨ op = 15 then [(84, 82)] else [])
      ++ (if op = 14 ∨ op = 15 ∨ op = 19 then [(87, 85)] else []))
  | 2 => if op = 0 then mbits 120 64
    else orMasks ([(75, 64), (127, 96)] ++ (if op = 7 ∨ op = 8 then [(87, 85)] else []))
  | 3 => mbits 123 64
  | 4 => orMasks [(100, 64), (127, 112)]
  | 5 => if op = 2 then mbits 77 72 else mbits 77 64
  | 6 => if op = 0 then orMasks [(90, 64), (110, 96), (127, 112)] else orMasks [(90, 64), (127, 96)]
  | 7 => orMasks [(90, 64), (104, 96)]
  | _ => orMasks [(90, 64), (102, 96)]

def reservedBits (w : W128) : Bool :=
  fld w 63 57 != 0 || (w.toNat / 2 ^ 64 * 2 ^ 64) &&& payloadMask (iClass w) (iOp w) != w.toNat / 2 ^ 64 * 2 ^ 64

/-! ### Operand use (R198–R208, R231, R253, R255, R259) -/

/-- How an operation uses an operand. -/
inductive OpUse where
  | no | yes | opt
  deriving DecidableEq, Repr

open OpUse in
/-- The use of SRC0–SRC2, DST0 and DST1. -/
def opUse (w : W128) : List OpUse :=
  let outm := vOutm w
  let tapDst := if outm = 2 then no else opt
  let stage := iImm w
  match iClass w with
  | 2 => match iOp w with
    | 0 => [no, no, no, yes, no]
    | 1 => [no, no, no, yes, no]
    | 4 => [yes, no, no, yes, yes]
    | 5 => [yes, no, no, yes, no]
    | 6 => [yes, no, no, yes, yes]
    | _ => [yes, no, no, no, no]
  | 3 => if iOp w = 2 then [no, no, no, no, no] else [yes, no, no, opt, no]
  | 4 => match iOp w with
    | 0 => [yes, no, no, no, no]
    | 1 => [yes, no, no, opt, no]
    | 2 => [yes, no, no, opt, opt]
    | _ => [opt, no, no, no, no]
  | 5 => match iOp w with
    | 0 => [yes, yes, if mFin w then yes else no, no, no]
    | 1 => [opt, opt, no, no, no]
    | _ => [yes, no, no, no, no]
  | 6 => if iOp w = 1 then [yes, no, yes, yes, yes]
    else [yes, if readsSel stage 2 then yes else no, if outm = 1 ∨ readsSel stage 3 then yes else no, yes, tapDst]
  | 7 => [yes, opt, if outm = 1 then yes else opt, yes, tapDst]
  | 8 => match iOp w with
    | 2 => [yes, no, if outm = 1 then yes else no, yes, opt]
    | 3 => [yes, no, yes, yes, no]
    | _ => [yes, yes, yes, yes, no]
  | _ => [no, no, no, no, no]

def usesDst (w : W128) : List Nat := ([0, 1].filter (iUseDst w)).map (iDst w)
def usesSrc (w : W128) : List Nat := ([0, 1, 2].filter (iUseSrc w)).map (iSrc w)

/-- Rule OPERANDS. -/
def operandsBad (w : W128) : Bool :=
  let bits := [iUseSrc w 0, iUseSrc w 1, iUseSrc w 2, iUseDst w 0, iUseDst w 1]
  ((opUse w).zip bits).any (fun p => match p.1 with
      | .no => p.2
      | .yes => !p.2
      | .opt => false)
    || [0, 1, 2].any (fun i => iKeep w i && !iUseSrc w i)
    || [0, 1, 2].any (fun i => [0, 1, 2].any (fun j => i != j && iUseSrc w i && iUseSrc w j && iSrc w i == iSrc w j
        && (iKeep w i || iKeep w j)))

/-- QTEST and QCOUNT neither pop nor peek (R204). -/
def popsQueues (w : W128) : List Nat :=
  if iClass w = 2 ∧ (iOp w = 8 ∨ iOp w = 9) then [] else usesSrc w

/-! ### Paths (R224) -/

/-- A place on a path: the instruction and the BENDs of its loops, innermost first. -/
abbrev Place := Nat × List Nat

/-- What follows the completion of `pc` when no loop goes round again. -/
def pathAfter : List Nat → Nat → Place
  | [], pc => (pc + 1, [])
  | b :: r, pc => if b = pc then pathAfter r pc else (pc + 1, b :: r)

/-- Later places that an instruction leads to; going round a loop again leads to a place already met. -/
def pathNext (w : W128) (p : Place) : List Place :=
  let fall := pathAfter p.2 p.1
  let bend := fld w 73 64
  let other := if iPen w then [fall] else []
  if iClass w ≠ 0 then [fall]
  else match iOp w with
    | 1 => [(p.1 + 1, bend :: p.2), pathAfter p.2 bend]
    | 2 => match p.2[fld w 65 64]? with
      | some b => pathAfter (p.2.drop (fld w 65 64 + 1)) b :: other
      | none => other
    | 3 => (bend, p.2) :: other
    | 5 => other
    | _ => [fall]

/-- The places of one task's paths, instruction by instruction in ascending order. -/
def pathPlaces (ws : List W128) (entry : Nat) : List Place :=
  (ws.zipIdx.foldl (fun (a : List Place × List Place) p =>
    let here := (a.1.filter (fun (q : Place) => q.1 == p.2)).eraseDups
    let next := (here.flatMap (pathNext p.1)).filter (fun (q : Place) => decide (p.2 < q.1))
    (a.1.filter (fun (q : Place) => q.1 != p.2) ++ next, a.2 ++ here)) ([(entry, [])], [])).2

/-! ### The rules -/

/-- What the verifier knows of the module and of the load. -/
structure VerifyCtx where
  s : State
  auth : Option (Fin 4)
  srclen : Nat

/-- Header rules and their codes (R225). -/
def headerFault (x : VerifyCtx) (b : List Byte) : Option Nat :=
  let n := imgNinstr b
  let tasks := imgNtask b
  let used := (List.range 4).filter (fun t => decide (t < tasks))
  let cores := imgCores b
  let select := decide (x.s.fuses.grade = .select)
  firstFault [
    (1, sliceNat b 0 4 != 0x50334B50 || sliceNat b 4 2 != 1),
    (2, n == 0 || decide (1024 < n) || imgLength b != 480 + 16 * n || decide (x.srclen < imgLength b)
      || sliceNat b 10 2 != 0 || sliceNat b 32 32 != 0),
    (3, imgCrc b != sliceNat b 28 4),
    (4, tasks == 0 || decide (4 < tasks) || used.any (fun t => decide (n ≤ imgEntry b t))
      || used.any (fun t => used.any (fun u => t != u && imgEntry b t == imgEntry b u))
      || (List.range 4).any (fun t => decide (tasks ≤ t) && imgEntry b t != 0)),
    (5, decide (3 ≤ sliceNat b 9 1) || (sliceNat b 9 1 == 0 && select) || (sliceNat b 9 1 == 1 && !select)),
    (6, cores.isEmpty || cores.any (fun c => decide (1200 ≤ c) || !corePresent x.s c))]

/-- What the path rules need of the whole image. -/
structure VerifyProg where
  ws : List W128
  places : List (Nat × Place)

/-- The tasks on whose paths a queue is popped or peeked. -/
def popTasks (p : VerifyProg) (q : Nat) : List Nat :=
  ((p.places.filter (fun x => (popsQueues (p.ws.getD x.2.1 0)).contains q)).map (·.1)).eraseDups

def producedIn (p : VerifyProg) (q : Nat) : Bool := p.ws.any (fun w => (usesDst w).contains q)

/-- Rules ENGINE of R263, with OUTM 1 only on VQMX (R254). -/
def engineBad (w : W128) : Bool :=
  let kb := mKb w
  let ofmt := vOfmt w
  let outm := vOutm w
  let op := iOp w
  match iClass w with
  | 5 => (decide (op ≤ 1) && (kb == 0 || decide (128 < kb))) || (op == 1 && decide (32 < kb))
      || mOutfmt w == 3 || (op == 1 && !iUseSrc w 0 && !iUseSrc w 1)
  | 6 => outm == 3 || decide (14 ≤ ofmt) || (op == 0 && decide (8 ≤ ofmt))
      || (op == 0 && stageBad { task := 0, pc := 0, word := w, dsts := [], stages := [iImm w]
                                srcs := [0, 1, 2].map (fun i => if iUseSrc w i then some 0 else none) })
      || (op == 1 && (iImm w != 0 || vMen w || outm != 1))
  | 7 => outm == 3 || decide (8 ≤ ofmt) || decide (64 < vSpb w + vNst w)
  | 8 => outm == 3 || ofmt != 0 || (if op = 2 then outm == 2 else outm != 1)
  | _ => false

/-- A DA in the scratchpad range of an absent core. -/
def absentScratch (s : State) (da : Nat) : Bool :=
  decide (scratchBase ≤ da) && decide (da < scratchBase + 1200 * scratchSize)
    && !corePresent s ((da - scratchBase) / scratchSize)

/-- Whether one place breaks rules LOOP, BRANCH or BREAK. -/
def loopPlaceBad (w : W128) (p : Place) : Bool :=
  iClass w == 0 && iOp w == 1 && (decide (4 ≤ p.2.length) || (match p.2 with | b :: _ => decide (b < fld w 73 64) | [] => false))

def branchPlaceBad (w : W128) (p : Place) : Bool :=
  iClass w == 0 && iOp w == 3 && (match p.2 with | b :: _ => decide (b < fld w 73 64) | [] => false)

def breakPlaceBad (w : W128) (p : Place) : Bool :=
  (iClass w == 0 && iOp w == 2 && decide (p.2.length ≤ fld w 65 64))
    || (iClass w == 1 && iOp w == 16 && decide (p.2.length ≤ fld (iImm w) 1 0))

/-- A JUMP at `i` into the body of a loop that does not enclose it. -/
def jumpsInto (ws : List W128) (i target : Nat) : Bool :=
  ws.zipIdx.any (fun p => iClass p.1 == 0 && iOp p.1 == 1 && decide (p.2 < target) && decide (target ≤ fld p.1 73 64)
    && !(decide (p.2 < i) && decide (i ≤ fld p.1 73 64)))

/-- R448: a DA in a sealed region that is not the loading slot's own, DRAM or scratchpad. -/
def foreignSealed (x : VerifyCtx) (da : Nat) : Bool :=
  match daSealed x.s da with
  | some k => x.auth != some k
  | none => false

/-- LD or ST with a fixed DA (PAEN 0). -/
def fixedMem (w : W128) : Bool := iClass w == 3 && decide (iOp w ≤ 1) && !bitOf w 118

/-- Rule NAMED_CORE. -/
def namedCoreBad (s : State) (w : W128) : Bool :=
  (iClass w == 4 && iOp w == 0 && !bitOf w 76 && !corePresent s (fld w 87 77))
    || (fixedMem w && absentScratch s (fld w 111 64))

/-- The lowest of codes 8 to 22 that instruction `i` breaks. -/
def instrFault (x : VerifyCtx) (p : VerifyProg) (i : Nat) (w : W128) : Option Nat :=
  let cls := iClass w
  let op := iOp w
  let n := p.ws.length
  let here := (p.places.filter (fun y => y.2.1 == i)).map (·.2)
  let pops := if here.isEmpty then [] else popsQueues w
  let isMem := cls == 3
  let daimm := fld w 111 64
  let isLoop := cls == 0 && op == 1
  let isJump := cls == 0 && op == 3
  let tgt := fld w 73 64
  let isPushh := cls == 2 && op == 0
  let off := fld w 82 64
  let len := fld w 109 90
  firstFault [
    (8, decide (9 ≤ cls)),
    (9, decide (opCount cls ≤ op)),
    (10, reservedBits w),
    (11, iTag w == 0xFFF),
    (12, operandsBad w),
    (13, (usesDst w).any (fun q => decide (12 ≤ q ∧ q ≤ 14)) || (popsQueues w).contains 15),
    (14, pops.any (fun q => decide (1 < (popTasks p q).length))),
    (15, pops.any (fun q => decide (q ≤ 11) && !producedIn p q)),
    (16, (isLoop && (decide (tgt ≤ i) || decide (n ≤ tgt))) || here.any (loopPlaceBad w)),
    (17, (isJump && (decide (tgt ≤ i) || decide (n ≤ tgt) || jumpsInto p.ws i tgt)) || here.any (branchPlaceBad w)),
    (18, here.any (breakPlaceBad w)),
    (19, i + 1 == n && !(cls == 0 && op == 5)),
    (20, (isPushh && (off % 32 != 0 || len % 32 != 0 || decide (524288 < off) || decide (524288 < len)
        || (!bitOf w 89 && !bitOf w 116 && decide (524288 < off + len)) || decide (14 ≤ fld w 120 117)))
      || (cls == 2 && op == 6 && (iImm w).toNat % 32 != 0) || (isMem && daimm % 32 != 0)),
    (21, fixedMem w && foreignSealed x daimm),
    (22, engineBad w)]

/-- R226: the first rule broken: its CODE and the instruction's index, 0x7FF for a header or CORE_MAP rule. Codes 1 to 7
come first, NAMED_CORE with the index of the instruction that breaks it (log 75). -/
def verify (x : VerifyCtx) (b : List Byte) : Option (Nat × Nat) :=
  match headerFault x b with
  | some code => some (code, 0x7FF)
  | none =>
    let ws := (List.range (imgNinstr b)).map (imgInstr b)
    let places := (List.range (imgNtask b)).flatMap (fun t => (pathPlaces ws (imgEntry b t)).map (fun p => (t, p)))
    let p : VerifyProg := { ws := ws, places := places }
    match ws.zipIdx.find? (fun y => namedCoreBad x.s y.1) with
    | some y => some (7, y.2)
    | none => ws.zipIdx.findSome? (fun x' => (instrFault x p x'.2 x'.1).map (fun code => (code, x'.2)))

end Sys2Proof.Machine
end

