-- ==== Sys2Proof/Machine/Handover.lean ====
section
/-! DEFINITION. The hand-over of descriptors: the choice of a ring (R393), the checks of R381, and what LOAD, LAUNCH,
PATCH, DMA, QUERN, FENCE and EVENT descriptors start (R375–R380, R383, R385). -/

namespace Sys2Proof.Machine

open Sys2Proof

/-! ### Fields -/

def rCls (d : Desc) : Nat := fld d.w0 6 0
def nStop (d : Desc) : Bool := bitOf d.w0 8
def nSkipabs (d : Desc) : Bool := bitOf d.w0 9
def nMapen (d : Desc) : Bool := bitOf d.w0 10
def nFirst (d : Desc) : Nat := fld d.w1 10 0
def nCount (d : Desc) : Nat := fld d.w1 26 16
def nProg (d : Desc) : W32 := w32 (fld d.w1 63 32)
def nMap (d : Desc) : Nat := fld d.w2 47 0
def lSrc (d : Desc) : Nat := fld d.w1 47 0
def lSrclen (d : Desc) : Nat := fld d.w2 31 0
def qStack (d : Desc) : Nat := fld d.w0 11 8
def qArr (d : Desc) : Bool := bitOf d.w0 12
def qAcore (d : Desc) : Nat := fld d.w0 23 13
def qEntry (d : Desc) : Nat := fld d.w0 29 24
def qMask (d : Desc) : W32 := w32 (fld d.w1 31 0)
def qMcast (d : Desc) : Nat := fld d.w1 47 32
def gOp (d : Desc) : Nat := fld d.w0 9 8
def gExpect (d : Desc) : W32 := w32 (fld d.w1 31 0)
def tOp (d : Desc) : Nat := fld d.w0 11 8
def tTensor (d : Desc) : Nat := fld d.w1 31 0
def tBlock (d : Desc) : Nat := fld d.w1 63 32

/-- R373: the descriptor as its engine sees it, the ring fields cleared. -/
def engineDesc (d : Desc) : Desc :=
  { d with w0 := setFld d.w0 7 7 0, w3 := setFld d.w3 63 61 0, w5 := setFld d.w5 63 63 0 }

/-! ### The sluice's share of the DMA class (R288) -/

/-- A range wholly in the window, in one present scratchpad, or in register space. -/
def sluiceSide (s : State) (da len : Nat) : Bool :=
  match daKind s da, daKind s (da + len - 1) with
  | .window _, .window _ => true
  | .scratch n _, .scratch m _ => n == m
  | .reg _, .reg _ => true
  | _, _ => false

/-- R288: the start is carried out by the sluice. -/
def sluiceQualifies (s : State) (d : Desc) : Bool :=
  dNblk d == 1 && decide (1 ≤ dBlklen d) && decide (dBlklen d ≤ 256) && !dLink d && !dIdxs d && !dIdxd d
    && dPsrc d == 0 && dSwid d == 0 && dDwid d == 0 && dSas d != dDas d
    && sluiceSide s (if dSas d then d.w2.toNat else d.w1.toNat) (dBlklen d)

/-! ### Field rules (R373–R380, R269, R416) -/

/-- The bits that a class names, word by word, beside the ring fields. -/
def descMask (d : Desc) : List Nat :=
  let any := mbits 63 0
  let da := mbits 47 0
  let low := mbits 31 0
  match rCls d with
  | 1 => [0, da, low, 0, 0, 0, 0, 0]
  | 2 => [mbits 10 8, orMasks [(10, 0), (26, 16), (63, 32)], da, 0, 0, 0, any, 0]
  | 3 => [mbits 10 9, orMasks [(10, 0), (26, 16)], da, mbits 38 0, mbits 38 0, mbits 38 0, mbits 38 0, mbits 38 0]
  | 5 => [mbits 29 8, mbits 47 0, da, da, da, da, any, 0]
  | 6 => [0, 0, 0, 0, 0, 0, 0, 0]
  | 7 => [mbits 9 8, low, 0, 0, 0, 0, 0, 0]
  | 8 => [mbits 23 8, any, any, 0, 0, 0, 0, 0]
  | 9 => match tOp d with
    | 1 => [mbits 11 8, da, 0, 0, 0, 0, 0, 0]
    | 2 => [mbits 11 8, low, 0, 0, 0, 0, 0, 0]
    | 3 => [mbits 11 8, mbits 32 0, low, 0, 0, 0, 0, 0]
    | 4 => [mbits 11 8, any, any, low, low, 0, 0, 0]
    | 5 => [mbits 11 8, any, low, 0, 0, 0, 0, 0]
    | 6 => [mbits 11 8, any, mbits 23 0, 0, 0, 0, 0, 0]
    | 7 => [mbits 11 8, low, 0, 0, 0, 0, 0, 0]
    | 8 => [mbits 11 8, 0, 0, 0, 0, 0, 0, 0]
    | _ => [mbits 11 8, any, mbits 32 0, 0, 0, 0, 0, 0]
  | _ => [any, any, any, any, any, any, any, any]

/-- R374: a bit that no table names is set; JOBTAG and CLASS stand in every class. -/
def descReserved (d : Desc) : Bool :=
  let e := engineDesc d
  let ws := [setFld (setFld e.w0 6 0 0) 63 32 0, e.w1, e.w2, e.w3, e.w4, e.w5, e.w6, e.w7]
  (ws.zip (descMask d)).any (fun p => p.1.toNat &&& p.2 != p.1.toNat)

/-- R381 order 3: the field rules of a class other than LAUNCH and PATCH. -/
def fieldsBad (s : State) (d : Desc) : Bool :=
  descReserved d || (match rCls d with
    | 1 => lSrc d % 64 != 0
    | 4 => let e := engineDesc d
           dmaRuleBad (if sluiceQualifies s e then 0 else dTch e) e true
    | 5 => decide (12 ≤ qStack d) || (qArr d && decide (1200 ≤ qAcore d))
    | 7 => gOp d == 0
    | 9 => tOp d == 0 || decide (10 ≤ tOp d)
    | _ => false)

/-- R381 order 4: the absent core that a QUERN or a DMA names. -/
def namesAbsent (s : State) (d : Desc) : Option Nat :=
  if rCls d = 5 then (if qArr d && !corePresent s (qAcore d) then some (qAcore d) else none)
  else if rCls d = 4 then (if dmaAbsent s d then some (dAcore d) else none)
  else none

/-! ### Permission (R374, R450, R454) -/

/-- R374: classes that a core may POST. -/
def postable (cls : Nat) : Bool := !(cls == 1 || cls == 7 || cls == 9)

/-- R381 order 2, but for a PATCH of a sealed core. -/
def classDenied (s : State) (cls : Nat) (posted : Bool) : Bool :=
  (posted && !postable cls)
    || (match s.otp.state with
      | .provisioning => decide (s.sec.debug = .vendor) && cls == 9
      | .deployed => false
      | .decommissioned => [1, 2, 3, 5, 9].contains cls)

/-- R377: the pairs of a PATCH, in ascending k. -/
def patchPairs (d : Desc) : List (Nat × W32) :=
  [d.w3, d.w4, d.w5, d.w6, d.w7].filterMap (fun w =>
    if bitOf w 38 then some (fld w 37 32, w32 (fld w 31 0)) else none)

/-- R450: a pair names a word that a sealed core does not let be patched. -/
def patchDenied (s : State) (cores : List Nat) (d : Desc) : Bool :=
  cores.any (fun n => (coreAt s n).sealedBy.isSome
    && (patchPairs d).any (fun p => !bitOf (coreAt s n).patchMask p.1))

/-! ### The cores named (R376) -/

/-- A read by control core 0: its bytes, unless it meets an address error, a refusal (log 13) or poison. -/
def frontRead (s : State) (n da len : Nat) (jobtag : W32) : Option (List Byte) × State :=
  if rangeError s da len then (none, s)
  else if rangeSealRefused s none da len false then (none, sealedRefuse s 2 n da jobtag)
  else
    let r := readAs s jobtag 0xFFF da len
    (if anyPoison r.2.1 then none else some r.1, r.2.2)

/-- R376: the cores that a LAUNCH or a PATCH names; none when the naming is bad. -/
def namedCores (s : State) (n : Nat) (d : Desc) : Option (List Nat) × State :=
  if 1200 < nFirst d + nCount d then (none, s)
  else if nMapen d then
    if nMap d % 32 ≠ 0 then (none, s)
    else
      let r := frontRead s n (nMap d) 160 (dJobtag d)
      match r.1 with
      | none => (none, r.2)
      | some bs => (if (mapCores bs).any (fun c => decide (1200 ≤ c)) then none else some (mapCores bs), r.2)
  else (some ((List.range (nCount d)).map (· + nFirst d)), s)

/-! ### The checks (R381, R382) -/

/-- What the checks found: the status and INFO0 of the first that failed, and the present cores named. -/
structure Checked where
  s : State
  fail : Option (Nat × Nat) := none
  cores : List Nat := []

/-- The checks of a LAUNCH or a PATCH. -/
def checkNamed (s : State) (n : Nat) (d : Desc) : Checked :=
  if rCls d = 2 ∧ descReserved d then { s := s, fail := some (2, 0) }
  else
    let r := namedCores s n d
    let s := r.2
    if rCls d = 3 ∧ patchDenied s (r.1.getD []) d then { s := s, fail := some (0x15, 0) }
    else match r.1 with
      | none => { s := s, fail := some (2, 0) }
      | some cs =>
        if descReserved d then { s := s, fail := some (2, 0) }
        else match cs.find? (fun c => !corePresent s c) with
          | some c => if nSkipabs d then { s := s, cores := cs.filter (corePresent s) } else { s := s, fail := some (1, c) }
          | none => { s := s, cores := cs }

/-- R381, orders 1 to 4. -/
def checkHead (s : State) (n : Nat) (x : RDesc) : Checked :=
  let d := x.d
  let cls := rCls d
  if cls = 0 ∨ 9 < cls then { s := s, fail := some (2, 0) }
  else if classDenied s cls x.posted then { s := s, fail := some (0x15, 0) }
  else if cls = 2 ∨ cls = 3 then checkNamed s n d
  else if fieldsBad s d then { s := s, fail := some (2, 0) }
  else match namesAbsent s (engineDesc d) with
    | some c => { s := s, fail := some (1, c) }
    | none => { s := s }

/-! ### The choice of a ring (R393) -/

/-- R286, R290: the DMA class waits in the front end for its engine; a host source waits for the link (log 5). -/
def engineRoom (s : State) (x : RDesc) : Bool :=
  let e := engineDesc x.d
  rCls x.d != 4 || (checkHead s 0 x).fail.isSome
    || (if sluiceQualifies s e then decide (s.sluices.length < 32) && (!dSas e || linkCarries s)
        else decide ((dmaAt s (dTch e)).pending.length < 8))

/-- R212: the bytes that a LOAD reads. -/
def imageLen (s : State) (d : Desc) : Nat :=
  let avail := lSrclen d
  min (min avail (max 32 (imgLength (daRead s (lSrc d) (min avail 32)).1))) 16864

/-- R38: control core 3 is to do it, and does not run. -/
def core3Waits (s : State) : Bool := (ctlAt s 3).st != 0

/-- R62, R80: what a TWIN descriptor reads or writes waits; R38: its duties pause while control core 3 restarts. -/
def twinWaits (s : State) (d : Desc) : Bool :=
  let tensor := tTensor d
  decide (tOp d ≠ 0 ∧ tOp d < 10) && core3Waits s || match tOp d with
  | 1 => tablesWait s || newTableWaits s (fld d.w1 47 0)
  | 2 => tablesWait s
  | 4 => tensorWaits s tensor || blockWaits s tensor (tBlock d)
  | 5 => tensorWaits s tensor || (match tableOf s tensor with
    | some t => (List.range (min (fld d.w2 31 0) t.nblock)).any (fun n => moveWaits s tensor (n + tBlock d))
    | none => false)
  | 6 => tablesWait s
  | 7 => match findSession s (w32 (fld d.w1 31 0)) with
    | some x => tensorWaits s x.tensor || (match tableOf s x.tensor with
      | some t => (List.range t.nblock).any (moveWaits s x.tensor)
      | none => false)
    | none => false
  | 9 => tablesWait s || (!bitOf d.w2 32 && rangeWaits s d.w1.toNat
      (16 * min (fld d.w2 31 0) s.twin.sessions.length + 16) true)
  | _ => false

/-- R62, R80: what a descriptor itself reads or writes of device memory, as it is handed over, waits for a stream or a
stack; the descriptor waits with it, in its ring. -/
def workWaits (s : State) (d : Desc) : Bool :=
  match rCls d with
  | 1 => rangeWaits s (lSrc d) (min (lSrclen d) 32) || rangeWaits s (lSrc d) (imageLen s d)
  | 2 => nMapen d && rangeWaits s (nMap d) 160
  | 3 => nMapen d && rangeWaits s (nMap d) 160
  | 9 => twinWaits s d
  | _ => false

/-- R393: the ring's next descriptor, when the ring can hand it over. A DRAINING ring hands over what it has admitted (R396,
log 38). -/
def ringReady (s : State) (n : Nat) : Option RDesc :=
  let r := ringAt s n
  match r.queue with
  | [] => none
  | x :: _ =>
    if (r.st ≠ .running ∧ r.st ≠ .draining) ∨ r.fence.isSome ∨ !engineRoom s x ∨ workWaits s x.d then none else some x

/-- R329: an earlier deadline ranks first; none ranks last. -/
def headDeadline (x : RDesc) : Nat := if rCls x.d = 2 ∨ rCls x.d = 5 then x.d.w6.toNat else 0

def earlier (a b : Nat) : Bool := a != 0 && (b == 0 || decide (a < b))

/-- R393: whose turn it is at a priority. -/
def turnAt (s : State) (prio : Nat) : Nat × Nat := tget (1023, 0) s.turns prio

/-- R393: how far ring n is from its turn among rings without a deadline: 0 while its turn lasts. -/
def turnDist (s : State) (n : Nat) : Nat :=
  let t := turnAt s (ringPrio s n)
  if n = t.1 then (if 0 < t.2 then 0 else 1024) else (n + 1024 - t.1) % 1024

/-- R393: ring m ranks before ring n: by priority, by deadline, and by turn. -/
def ranksBefore (s : State) (m n : Nat) (y x : RDesc) : Bool :=
  decide (ringPrio s n < ringPrio s m) || (ringPrio s n == ringPrio s m
    && (earlier (headDeadline y) (headDeadline x)
      || (headDeadline y == 0 && headDeadline x == 0 && decide (turnDist s m < turnDist s n))))

/-- R393: WEIGHT descriptors per turn. -/
def takeTurn (s : State) (n : Nat) (x : RDesc) : State :=
  if headDeadline x ≠ 0 then s
  else
    let t := turnAt s (ringPrio s n)
    let left := if n = t.1 ∧ 0 < t.2 then t.2 else regFld s (oRing n rCfg) 23 20
    { s with turns := tset (1023, 0) (ringPrio s n) (n, left - 1) s.turns }

/-- R41, R49, R80, R38, R390, R463, R483: the front end hands descriptors over. -/
def frontHands (s : State) : Bool :=
  frontUp s && !s.frontStopped && !clockHeld s .hub && (ctlAt s 0).st == 0 && decide (s.power.st = .active)
    && (List.range 12).all (fun k => match (stackAt s k).st with | .ready => true | .failed => true | _ => false)

/-- R393: the descriptor that ring n hands over now, when the front end's choice falls on it. -/
def frontChoice (s : State) (n : Nat) : Option RDesc :=
  if !frontHands s then none
  else match ringReady s n with
    | none => none
    | some x =>
      if s.rings.any (fun p => match ringReady s p.1 with
          | some y => ranksBefore s p.1 n y x
          | none => false) then none else some x

/-- One descriptor is handed over: it leaves the ring's queue, is checked, and `act` is what its class does. -/
def handOver (s : State) (n : Nat) (sel : Desc → Bool) (act : Checked → RDesc → State) : State :=
  match frontChoice s n with
  | none => s
  | some x =>
    if !sel x.d then s
    else
      let r := checkHead (modRing (takeTurn s n x) n (fun r => { r with queue := r.queue.drop 1 })) n x
      match r.fail with
      | some (status, info0) => complete r.s x.did { status := status, info0 := info0 }
      | none =>
        if rCls x.d = 6 then act r x
        else
          let s := count r.s (oRing n rDescCnt)
          let s := trace s 4 n (dJobtag x.d) (data := descHead x.d)
          caused s (dJobtag x.d) 0xFFF (fun s => act { r with s := s } x)

/-- RESERVED_CLASS_DESCRIPTOR (R374): ST_BADDESC. -/
def reservedClassDescriptor (ring : Fin 1024) (s : State) : State :=
  handOver s ring (fun d => rCls d == 0 || decide (9 < rCls d)) (fun r _ => r.s)

/-! ### LOAD (R212, R375) -/

/-- R212 step 1: the image; its LENGTH says how much of SRCLEN is read. -/
def readImage (s : State) (n : Nat) (d : Desc) : Option (List Byte) × State :=
  let h := frontRead s n (lSrc d) (min (lSrclen d) 32) (dJobtag d)
  match h.1 with
  | none => h
  | some _ => frontRead h.2 n (lSrc d) (imageLen s d) (dJobtag d)

/-- R226, R228: CORE_VERR records a rejection. -/
def recordVerr (s : State) (code index : Nat) (jobtag : W32) : State :=
  regSet (regSet s oCoreVerr (w32 (code + put index 16 + put 1 31))) (oCoreVerr + 4) jobtag

/-- R226: a rejected image. -/
def rejectImage (s : State) (did code index : Nat) (jobtag : W32) : State :=
  complete (recordVerr s code index jobtag) did { status := 5, info0 := code + put index 16 }

/-- R212 steps 1 and 2; step 3 then waits for each core. -/
def startLoad (s : State) (n did : Nat) (d : Desc) : State :=
  let r := readImage s n d
  match r.1 with
  | none => complete r.2 did { status := 6 }
  | some b =>
    match verify { s := r.2, auth := none, srclen := lSrclen d } b with
    | some (code, index) => rejectImage r.2 did code index (dJobtag d)
    | none => pumpOps { r.2 with coreOps := r.2.coreOps ++ [.load did (some d) (imgCores b) b none 0] }

/-- LOAD (R375). -/
def load (ring : Fin 1024) (s : State) : State :=
  handOver s ring (fun d => rCls d == 1) (fun r x => startLoad r.s ring x.did x.d)

/-- R212 step 3: what a core's memory holds after a load. -/
def writeProgram (c : Core) (b : List Byte) (slot : Option (Fin 4)) (mask : W64) : Core :=
  let n := imgNinstr b
  { c with
    st := .loaded, prog := imgProgId b, ntask := imgNtask b
    entries := (List.range (imgNtask b)).map (imgEntry b)
    imem := (List.range n).foldl (fun t i => tset 0 i (imgInstr b i) t) [], imemErr := []
    image := (List.range 64).foldl (fun t i => tset 0 i (imgParam b i) t) []
    sealedBy := slot, patchMask := mask }

/-- R450: a load onto a sealed core first clears its scratchpad, poison bits and queues. -/
def unsealCore (s : State) (n : Nat) : State :=
  if (coreAt s n).sealedBy.isSome then modCore (clearScratch s n) n (fun c => { c with queues := [] }) else s

/-- The load that a LOADING core waits for. -/
def loadFor (s : State) (n : Nat) : Option CoreOp :=
  s.coreOps.find? (fun op => match op with
    | .load _ _ cs _ _ _ => cs.contains n
    | _ => false)

/-- PROGRAM_LOAD_CORE_WRITE (R212 steps 3 and 4). -/
def programLoadCoreWrite (core : Fin 1200) (s : State) : State :=
  let n := core.val
  match (coreAt s n).st, loadFor s n with
  | .loading, some (.load did src cs b slot mask) =>
    let s := modCore (unsealCore s n) n (fun c => writeProgram c b slot mask)
    let left := cs.filter (· != n)
    let s : State := { s with coreOps := s.coreOps.flatMap (fun (op : CoreOp) =>
      if op = .load did src cs b slot mask then (if left.isEmpty then [] else [.load did src left b slot mask]) else [op]) }
    pumpOps (if left.isEmpty then complete s did {} else s)
  | _, _ => s

/-! ### LAUNCH, stop requests, PATCH (R217, R219, R376, R377) -/

/-- LAUNCH (R376). -/
def launch (ring : Fin 1024) (s : State) : State :=
  handOver s ring (fun d => rCls d == 2 && !nStop d) (fun r x =>
    if r.cores.isEmpty then complete r.s x.did {}
    else pumpOps { r.s with coreOps := r.s.coreOps ++ [.launch x.did r.cores (nProg x.d) (dJobtag x.d)] })

/-- R219: a running core is asked to stop, and its launch will report it. -/
def stopCore (s : State) (n : Nat) : State :=
  let c := coreAt s n
  if c.st = .running then
    let s := setCore s n { c with st := .stopping }
    { s with launches := s.launches.map (fun (l : Launch) => if some l.did = c.launch then { l with aborted := true } else l) }
  else s

/-- STOP_REQUEST (R219, R376). -/
def stopRequest (ring : Fin 1024) (s : State) : State :=
  handOver s ring (fun d => rCls d == 2 && nStop d) (fun r x =>
    let s := r.cores.foldl stopCore r.s
    settleStops { s with stops := s.stops ++ [(x.did, r.cores)] })

/-- PATCH (R377). -/
def patch (ring : Fin 1024) (s : State) : State :=
  handOver s ring (fun d => rCls d == 3) (fun r x =>
    if r.cores.isEmpty ∨ (patchPairs x.d).isEmpty then complete r.s x.did {}
    else pumpOps { r.s with coreOps := r.s.coreOps ++ [.patch x.did r.cores (patchPairs x.d)] })

/-! ### DMA and QUERN (R268, R288, R378) -/

/-- R288: a sluice transfer; a host source is asked for at once. -/
def startSluice (s : State) (did : Nat) (d : Desc) : State :=
  let id := s.nextId
  let tag := s.link.nextTag
  let s : State := { s with nextId := id + 1, sluices := s.sluices ++ [{ id := id, did := did, d := d, tag := tag }] }
  if dSas d then askHost s d.w1.toNat (dBlklen d) (.sluice id) else s

/-- DMA (R268, R286, R288): to the sluice, or into the channel's list of pending starts. -/
def dma (ring : Fin 1024) (s : State) : State :=
  handOver s ring (fun d => rCls d == 4) (fun r x =>
    let e := engineDesc x.d
    if sluiceQualifies r.s e then startSluice r.s x.did e
    else modDma r.s (dTch e) (fun ch => { ch with
      pending := ch.pending ++ [{ origin := .ring x.did, head := some e, auth := x.auth }] }))

/-- R326: the multicast group of a job that is accepted: none when the group's members are fixed. -/
def groupOfNew (s : State) (g : Nat) : Nat := if s.groups.contains g then 0 else g

/-- R378: the quern job of a descriptor. -/
def jobOf (id : Nat) (x : RDesc) : Job :=
  let d := x.d
  { id := id, did := x.did, stack := qStack d, left := qMask d, mask := qMask d, entry := qEntry d
    areg := [fld d.w2 47 0, fld d.w3 47 0, fld d.w4 47 0, fld d.w5 47 0]
    arr := if qArr d then some (qAcore d) else none
    deadline := d.w6, jobtag := dJobtag d, mcast := qMcast d, auth := x.auth }

/-- QUERN (R378): the job waits for its channels; with a CHMASK of 0 it completes at once. -/
def quern (ring : Fin 1024) (s : State) : State :=
  handOver s ring (fun d => rCls d == 5) (fun r x =>
    let j := jobOf r.s.nextId x
    let j := { j with mcast := groupOfNew r.s j.mcast }
    let s : State := { r.s with nextId := j.id + 1, jobs := r.s.jobs ++ [j] }
    if j.mask = 0 then arriveJob (complete s x.did {}) j else s)

/-! ### FENCE and EVENT (R380, R385) -/

/-- FENCE_DESCRIPTOR (R385): later descriptors of the ring are held. -/
def fenceDescriptor (ring : Fin 1024) (s : State) : State :=
  handOver s ring (fun d => rCls d == 6) (fun r x => modRing r.s ring (fun r => { r with fence := some x.did }))

/-- FENCE_RELEASE (R385): every earlier descriptor has its record; the fence's own follows. -/
def fenceRelease (ring : Fin 1024) (s : State) : State :=
  match (ringAt s ring).fence with
  | none => s
  | some did =>
    if s.admitted.any (fun a => a.ring == ring.val && decide (a.did < did)) then s
    else complete (modRing s ring (fun r => { r with fence := none })) did {}

/-- R500: a SOFTWARE record enters the queue, or waits with the descriptor that it completes or the EVENT instruction that it
delivers. -/
def logSoftware (s : State) (r : Rec) (owner : LogOwner) : State :=
  let placed := s.log.waiting.isEmpty && logRoom s.log
  let s := logHold s { r with time := s.time, cls := 7 } (some owner)
  match owner with
  | .desc d => if placed then complete s d {} else s
  | .core n _ => if placed then s else modCore s n (fun c => { c with events := c.events + 1 })

/-- EVENT_DESCRIPTOR (R380). -/
def eventDescriptor (ring : Fin 1024) (s : State) : State :=
  handOver s ring (fun d => rCls d == 8) (fun r x =>
    logSoftware r.s { source := 13, kind := fld x.d.w0 23 16, sub := fld x.d.w0 15 8, unit := ring.val
                      jobtag := dJobtag x.d, payload := BitVec.ofNat 256 (x.d.w1.toNat + put x.d.w2.toNat 64) } (.desc x.did))

/-! ### POST (R208, R387, R397) -/

/-- A descriptor that the instruction with `tag` POSTed is accepted, or dropped with an event. -/
def acceptPost (s : State) (n : Nat) (d : Desc) (auth : Option (Fin 4)) (tag : Nat) : State :=
  if postTaken s n then
    let did := s.nextId
    let s : State := { s with nextId := did + 1, admitted := s.admitted ++ [admOf did n 0xFFFF true d] }
    modRing s n (fun r => { r with queue := r.queue ++ [{ did := did, d := d, slot := 0xFFFF, posted := true, auth := auth }] })
  else event s 6 6 3 0 n 0 (dJobtag d) tag

end Sys2Proof.Machine
end

