-- ==== Sys2Proof/Machine/Setup.lean ====
section
/-! DEFINITION. Staged set-up (R389–R392, R398): CHECK, COMMIT with its epoch boundary, and DISCARD. -/

namespace Sys2Proof.Machine

open Sys2Proof

/-- The RS registers of every chapter, in ascending offset (R52, R54, R317, R428). -/
def rsOffsets : List Nat :=
  [oRoleStk, oRoleRow]
    ++ (List.range 3).flatMap (fun g =>
      (List.range 13).flatMap (fun i => [oMapSel g i 0, oMapSel g i 1]) ++ [oGrpCtl g])
    ++ [oTwnCfg]

/-! ### CHECK (R48, R49, R321, R389) -/

/-- R321: a role code is bad for a stack. -/
def roleCodeBad (s : State) (v : W32) (k : Nat) : Bool :=
  let c := fld v (2 * k + 1) (2 * k)
  c == 3 || (c != 0 && decide ((stackAt s k).st = .failed))

/-- R49: the map of an online group may not change. -/
def mapFixed (s : State) (g : Nat) : Bool := groupOnline s g && regGet s oCfgEpoch != 0

/-- R48: what is wrong with select bit i of a staged map: true for a failing MASK_LO, and for a failing field of word 1. -/
def selBad (rd : Nat → W32) (g i : Nat) : Bool × Bool :=
  let a := mapAnchor rd g i
  let m := mapMask rd g i
  let inRange := fun (x : Nat) => decide (5 ≤ x) && decide (x ≤ 37)
  let others := ((List.range 13).filter (· != i)).map (mapAnchor rd g)
  let missing := inRange a && !m.testBit a
  let foreign := others.filter (fun x => inRange x && m.testBit x)
  ((missing && a != 37) || foreign.any (· != 37),
   !inRange a || others.contains a || (missing && a == 37) || foreign.contains 37)

/-- R49: the group holds a part of the sealed region. -/
def groupSealed (s : State) (g : Nat) : Bool := (List.range 4).any (fun k => forcedMask s (4 * g + k) != 0)

/-- The fields of group g that fail, by offset. -/
def groupFails (s : State) (rd : Nat → W32) (g : Nat) : List Nat :=
  let moved := fun (o : Nat) => mapFixed s g && rd o != effGet s o
  (List.range 13).flatMap (fun i =>
      (if (selBad rd g i).1 || moved (oMapSel g i 0) then [oMapSel g i 0] else [])
        ++ (if (selBad rd g i).2 || moved (oMapSel g i 1) then [oMapSel g i 1] else []))
    ++ (if !bitOf (rd (oGrpCtl g)) 0 && groupSealed s g then [oGrpCtl g] else [])

/-- R389: the failing fields of a set of staged values, in ascending offset. -/
def checkFails (s : State) (rd : Nat → W32) : List Nat :=
  (if (List.range 12).any (roleCodeBad s (rd oRoleStk)) then [oRoleStk] else [])
    ++ (if (List.range 12).any (fun r => fld (rd oRoleRow) (2 * r + 1) (2 * r) == 3) then [oRoleRow] else [])
    ++ (List.range 3).flatMap (groupFails s rd)

/-! ### The commands, one at a time (R392) -/

/-- R398: a command has ended; its status goes to its record, or to HUB_CFG_STATUS.RESULT. -/
def cfgDone (s : State) (did : Option Nat) (status info0 : Nat) : State :=
  match did with
  | some d => complete s d { status := status, info0 := info0 }
  | none => regSetFld s oCfgStatus 15 8 status

/-- R389: a failed CHECK. -/
def cfgFailed (s : State) (did : Option Nat) (off : Nat) : State :=
  cfgDone (regSet s oCfgFail (w32 (off + put 1 31))) did 0x13 off

/-- R390 steps 1 to 3. -/
def startCommit (s : State) (c : CfgCmd) : State :=
  if c.expect ≠ regGet s oCfgEpoch then cfgDone s c.did 0x14 (regGet s oCfgEpoch).toNat
  else match checkFails s (regGet s) with
    | off :: _ => cfgFailed s c.did off
    | [] => { s with
        commit := some { snapshot := rsOffsets.map (fun o => (o, regGet s o)), did := c.did }, frontStopped := true }

/-- R391: every staged value becomes its value in effect. -/
def discardStaged (s : State) : State := rsOffsets.foldl (fun s o => regSet s o (effGet s o)) s

def runCfgCmd (s : State) (c : CfgCmd) : State :=
  match c.op with
  | 1 => match checkFails s (regGet s) with
    | off :: _ => cfgFailed s c.did off
    | [] => cfgDone s c.did 0 0
  | 2 => startCommit s c
  | _ => cfgDone (discardStaged s) c.did 0 0

/-- R392: the waiting commands run in order, until a COMMIT has its snapshot; control core 0 runs them (R38). -/
def runCfgN : (fuel : Nat) → State → State
  | 0, s => s
  | n + 1, s =>
    match s.cfgQueue with
    | [] => s
    | c :: rest =>
      if s.commit.isSome ∨ (ctlAt s 0).st ≠ 0 then s else runCfgN n (runCfgCmd { s with cfgQueue := rest } c)

def runCfg (s : State) : State := runCfgN s.cfgQueue.length s

def cfgBusy (s : State) : Bool := s.commit.isSome || !s.cfgQueue.isEmpty

def acceptCfg (s : State) (c : CfgCmd) : State := runCfg { s with cfgQueue := s.cfgQueue ++ [c] }

/-- A CONFIG descriptor of an OP (R379). -/
def cfgDescriptor (s : State) (n op : Nat) : State :=
  handOver s n (fun d => rCls d == 7 && gOp d == op) (fun r x =>
    acceptCfg r.s { op := op, expect := gExpect x.d, did := some x.did })

/-- CHECK (R379, R389). -/
def check (ring : Fin 1024) (s : State) : State := cfgDescriptor s ring 1

/-- COMMIT (R379, R390). -/
def commit (ring : Fin 1024) (s : State) : State := cfgDescriptor s ring 2

/-- DISCARD (R379, R391). -/
def discard (ring : Fin 1024) (s : State) : State := cfgDescriptor s ring 3

/-- CONFIG_RESERVED_OP (R379): ST_BADDESC. -/
def configReservedOp (ring : Fin 1024) (s : State) : State := cfgDescriptor s ring 0

/-- R390 step 4: the snapshot is in effect, and the epoch has risen. -/
def applyCommit (s : State) (c : Commit) : State :=
  let s : State := { s with
    effect := c.snapshot.foldl (fun t p => tset (w32 (regDef p.1).rst) p.1 p.2 t) s.effect, commit := none }
  count s oCfgEpoch

/-- EPOCH_BOUNDARY (R390 steps 4 and 5). -/
def epochBoundary (s : State) : State :=
  match s.commit with
  | none => s
  | some c =>
    let s := applyCommit s c
    let s : State := { s with frontStopped := decide (s.power.st = .braking) }
    runCfg (cfgDone s c.did 0 (regGet s oCfgEpoch).toNat)

/-! ### HUB_CFG_CTL (R392, R398) -/

/-- R392: a register-driven command, ignored while another runs. -/
def cfgRegister (s : State) (op : Nat) : State :=
  if cfgBusy s then s else acceptCfg s { op := op, expect := regGet s oCfgExpect, did := none }

/-- HUB_CFG_CHECK (R398). -/
def hubCfgCheck (s : State) : State := cfgRegister s 1

/-- HUB_CFG_COMMIT (R398). -/
def hubCfgCommit (s : State) : State := cfgRegister s 2

/-- HUB_CFG_DISCARD (R398). -/
def hubCfgDiscard (s : State) : State := cfgRegister s 3

/-- A write of HUB_CFG_CTL: the commands that it names, in the order of its bits. -/
def cfgCtlWrite (s : State) (v : W32) : State :=
  if cfgBusy s then s
  else ([1, 2, 3].filter (fun op => bitOf v (op - 1))).foldl (fun s op =>
    acceptCfg s { op := op, expect := regGet s oCfgExpect, did := none }) s

end Sys2Proof.Machine
end

