-- ==== Sys2Proof/Machine/CoreSys.lean ====
section
/-! DEFINITION. The SYS class (R208, R209): SIGNAL, POST, DMAP and EVENT. Their waits, ORD among them, are in `waitOf`. -/

namespace Sys2Proof.Machine

open Sys2Proof

/-! ### SIGNAL -/

/-- R208: the target core. -/
def sigTarget (f : Fetch) : Nat := if bitOf f.w 76 then (pGet f.c (fld f.w 75 70)).toNat else fld f.w 87 77

/-- SIGNAL: the entry waits for the target's Q13, and the task with it. -/
def signal (core : Fin 1200) (s : State) : State :=
  issue s core 4 0 waitOf (fun s f =>
    match kindFaults (src0 f) with
    | x :: r => trapLowest s f ((x :: r).map (fun cause => (cause, iSrc f.w 0)))
    | [] =>
      if !corePresent s (sigTarget f) then trapAt s f 7
      else modCore s f.n (fun c => modTask (popSources c f.w) f.t (fun t =>
        { t with st := .blocked, block := some .signal, since := s.time
                 sig := some (sigTarget f, retag (src0 f) (iTag f.w), bitOf f.w 88) })))

/-- SIGNAL_DELIVERED (R190, R208): the target's Q13 accepts the entry, and the task goes on; with ORD after the task's
loads and stores. -/
def signalDelivered (core : Fin 1200) (task : Fin 4) (s : State) : State :=
  let n := core.val
  match (taskAt (coreAt s n) task).sig with
  | none => s
  | some (target, e, ord) =>
    if !qFree (coreAt s target) 13 1 || (ord && taskXfers (coreAt s n) task) || coreHeld s n || coreHeld s target then s
    else
      let t := taskAt (coreAt s n) task
      let s := modCore s target (fun c => qPush c 13 e)
      let s := modCore s n (fun c => modTask c task (fun t => advance { t with sig := none }))
      let s := trace s 10 n (coreAt s n).jobtag (fld e 59 48) task t.pc true (coreAt s n).sealedBy.isSome e.toNat
      let c := coreAt s n
      let s := if c.st = .running ∧ (taskAt c c.current).st = .ended then switchHere s n else s
      settleCore s n

/-! ### POST, DMAP and EVENT -/

/-- What is wrong with the handle of a descriptor, as CAUSEs in ascending order. -/
def descFaults (e : W64) : List Nat :=
  if eKind e ≠ 0 then [6] else if eLen e ≠ 64 then 4 :: (handleFaults e).filter (· != 4) else handleFaults e

/-- The descriptor in the region of a handle. -/
def handleDesc (s : State) (n : Nat) (e : W64) : Desc := bytesDesc (scratchRead s n (eOff e) 64)

/-- R208: a POST, DMAP or EVENT of core n is delivered. POST copies the descriptor to the front end and DMAP to the
channel, with the authority of a sealed program (R446), and the handle follows; DST1 of DMAP awaits the completion value
(R209). EVENT writes a SOFTWARE record with the popped entry in payload bytes 0–7 (R497), and is delivered when that enters the
log's queue (R500). -/
def sysDeliver (s : State) (n : Nat) (op : SysOp) : State :=
  let e := op.entry.getD 0
  match op.op with
  | 1 => acceptPost (modCore s n (fun c => qFill c op.dst0 (retag e op.tag))) op.field (handleDesc s n e) op.auth op.tag
  | 2 =>
    modDma (modCore s n (fun c => qFill c op.dst0 (retag e op.tag))) op.field (fun ch => { ch with
      pending := ch.pending ++ [{ origin := .core n op.tag op.dst1, head := some (handleDesc s n e), auth := op.auth }] })
  | _ =>
    logSoftware s { source := 14, kind := op.field / 256, sub := op.field % 256, unit := n
                    jobtag := (coreAt s n).jobtag, tag := op.tag, payload := BitVec.ofNat 256 e.toNat } (.core n (coreAt s n).launch)

/-- R207, R208: the transfers that ORD waits for have ended, and there is a place where the operation goes. -/
def sysReady (s : State) (n : Nat) (op : SysOp) : Bool :=
  !(coreAt s n).xfers.any (fun x => x.task == op.task && decide (x.id < op.before)) && sysRoom s op.op op.field

/-- One issued operation is delivered when it is ready. -/
def sysTry (n : Nat) (s : State) (op : SysOp) : State :=
  if sysReady s n op then sysDeliver (modCore s n (fun c => { c with sys := c.sys.erase op })) n op else s

/-- R207: the issued operations of core n that are ready are delivered, in order of issue (log 75). -/
def deliverSys (s : State) (n : Nat) : State :=
  match (coreAt s n).sys with
  | [] => s
  | ops => settleCore (ops.foldl (sysTry n) s) n

/-- R183: a POST, DMAP or EVENT issues with `c` the core after it; with ORD it is delivered when the task's earlier loads
and stores have ended. -/
def sysIssue (s : State) (f : Fetch) (c : Core) (op : SysOp) : State :=
  let s := retire s f (fun _ => c)
  if bitOf f.w 88 && taskXfers f.c f.t then modCore s f.n (fun c => { c with sys := c.sys ++ [op] })
  else sysDeliver s f.n op

/-- POST. -/
def post (core : Fin 1200) (s : State) : State :=
  issue s core 4 1 waitOf (fun s f =>
    match descFaults (src0 f) with
    | x :: r => trapLowest s f ((x :: r).map (fun cause => (cause, iSrc f.w 0)))
    | [] =>
      let r := reserveDst (popSources f.c f.w) f.w 0
      sysIssue s f r.2 { op := 1, task := f.t, tag := iTag f.w, before := s.nextId, field := fld f.w 98 89
                         entry := some (src0 f), dst0 := r.1, auth := f.c.sealedBy })

/-- DMAP. -/
def dmap (core : Fin 1200) (s : State) : State :=
  issue s core 4 2 waitOf (fun s f =>
    match descFaults (src0 f) with
    | x :: r => trapLowest s f ((x :: r).map (fun cause => (cause, iSrc f.w 0)))
    | [] =>
      let r0 := reserveDst (popSources f.c f.w) f.w 0
      let r1 := reserveDst r0.2 f.w 1
      sysIssue s f { r1.2 with dmaps := r1.2.dmaps + b2n (iUseDst f.w 1) }
        { op := 2, task := f.t, tag := iTag f.w, before := s.nextId, field := dmapChannel f.n (fld f.w 100 99)
          entry := some (src0 f), dst0 := r0.1, dst1 := if iUseDst f.w 1 then some (r1.1.getD (15, 0)) else none
          auth := f.c.sealedBy })

/-- EVENT. -/
def eventInstr (core : Fin 1200) (s : State) : State :=
  issue s core 4 3 waitOf (fun s f =>
    let used := iUseSrc f.w 0
    match (if used then kindFaults (src0 f) else []) with
    | x :: r => trapLowest s f ((x :: r).map (fun cause => (cause, iSrc f.w 0)))
    | [] =>
      sysIssue s f (popSources f.c f.w)
        { op := 3, task := f.t, tag := iTag f.w, before := s.nextId, field := fld f.w 127 112
          entry := if used then some (src0 f) else none })

/-! ### The end of what ORD waits for -/

/-- LD_COMPLETE: the load ends, and with it what ORD held (R207). -/
def ldEnds (core : Fin 1200) (xfer : Nat) (s : State) : State := deliverSys (ldComplete core xfer s) core

/-- ST_PERFORMED: the store ends, and with it what ORD held. -/
def stEnds (core : Fin 1200) (xfer : Nat) (s : State) : State := deliverSys (stPerformed core xfer s) core

/-- TASK_READY: a task goes on, and an issued operation that found no place tries again (log 75). -/
def taskReadies (core : Fin 1200) (task : Fin 4) (s : State) : State := deliverSys (taskReady core task s) core

/-- STOP_DRAIN_COMPLETE: what is issued is delivered first (R219). -/
def stopDrains (core : Fin 1200) (s : State) : State := stopDrainComplete core (deliverSys s core)

end Sys2Proof.Machine
end

