-- ==== Sys2Proof/Machine/LogUnit.lean ====
section
/-! DEFINITION. The event log (R495–R501), counter clears (R498) and the trace unit (R502). -/

namespace Sys2Proof.Machine

open Sys2Proof

/-! ### Alarms (R501) -/

/-- The gap between alarms of a class, in ns. -/
def alarmGap (s : State) (c : Nat) : Nat := if c = 4 then 10000 else regFld s oLogCtl 23 16 * 10000

/-- An alarm goes out on its enabled paths, and counts as sent. `lastAlarm` holds its time plus 1; 0 is none. -/
def sendAlarm (s : State) (c : Nat) : State :=
  let s : State := { s with log := { s.log with
    lastAlarm := tset 0 c (s.time + 1) s.log.lastAlarm, due := s.log.due.filter (· != c) } }
  let s := if regBit s oLogIrqEn c then msixRaise s 1024 else s
  if regBit s oLogMgmtEn c then emit s (.mgmtAlert (mgmtAddress s) c) else s

def alarmInGap (s : State) (c : Nat) : Bool :=
  let last := tget 0 s.log.lastAlarm c
  last != 0 && decide ((s.time - (last - 1)).toNat < alarmGap s c)

/-- A class-c record is written that no alarm has covered. -/
def alarmDue (s : State) (c : Nat) : State :=
  if alarmInGap s c then
    { s with log := { s.log with due := if s.log.due.contains c then s.log.due else s.log.due ++ [c] } }
  else sendAlarm s c

/-- ALARM_GAP_END (R501): a due alarm is sent if software has not cleared the class's LOG_PEND bit. -/
def alarmGapEnd (cls : Fin 8) (s : State) : State :=
  if s.log.due.contains cls.val then
    if regBit s oLogPend cls then sendAlarm s cls
    else { s with log := { s.log with due := s.log.due.filter (· != cls.val) } }
  else s

/-! ### The ring of records (R496, R500) -/

/-- One record enters the ring. -/
def writeRec (s : State) (r : Rec) : State :=
  let s := count s oLogLseq
  let r := { r with lseq := regGet s oLogLseq }
  let w := s.log.wptr
  let s := if thas s.log.ring w then regSetBit s oLogStatus 15 else s
  let s : State := { s with log := { s.log with ring := tset {} w r s.log.ring, wptr := (w + 1) % 32768 } }
  let s := if !r.coalesced && !r.summary && !regBit s oLogFirstValid r.cls then
      regSetBit { s with log := { s.log with first := tset {} r.cls r s.log.first } } oLogFirstValid r.cls
    else s
  let s := if r.cls = 4 then regSetBit s oLogStatus 16 else s
  alarmDue (regSetBit s oLogPend r.cls) r.cls

/-- R500: the writer of a SOFTWARE record that has entered the queue goes on. -/
def releaseOwner (s : State) : LogOwner → State
  | .desc d => complete s d {}
  | .core n launch =>
    if (coreAt s n).launch = launch then settleCore (modCore s n (fun c => { c with events := c.events - 1 })) n else s

/-- R500: waiting records of classes 4, 5 and 7 enter as places free, in order of occurrence. -/
def logRefillN : (fuel : Nat) → State → State
  | 0, s => s
  | n + 1, s =>
    match s.log.waiting with
    | [] => s
    | (r, owner) :: rest =>
      if logRoom s.log then
        let s := logHold { s with log := { s.log with waiting := [] } } r none
        let s : State := { s with log := { s.log with waiting := rest } }
        logRefillN n (match owner with | some o => releaseOwner s o | none => s)
      else s

/-- LOG_RECORD_WRITE (R496, R500, R501): the oldest record of the ingress queue is written. -/
def logRecordWrite (s : State) : State :=
  match s.log.ingress with
  | [] => s
  | (_, r) :: rest =>
    let s := writeRec { s with log := { s.log with ingress := rest } } r
    logSummary (logRefillN s.log.waiting.length s)

/-- A COALESCED record takes a place of the queue, or is dropped (R499, R500). -/
def pushCoalesced (s : State) (r : Rec) : State :=
  if generalFill s.log < 256 then { s with log := { s.log with ingress := s.log.ingress ++ [(false, r)] } }
  else
    let s : State := { s with log := { s.log with
      drops := tset 0 r.cls (tget 0 s.log.drops r.cls + 1) s.log.drops, dropped := true } }
    count s (oLogDrop r.cls)

/-- COALESCE_WINDOW_END (R499): the entry is freed, and writes one record if it absorbed any occurrence. -/
def coalesceWindowEnd (entry : Nat) (s : State) : State :=
  match s.log.coal[entry]? with
  | none => s
  | some e =>
    let s : State := { s with log := { s.log with coal := s.log.coal.eraseIdx entry } }
    if e.count = 0 then s
    else
      let span := min ((e.last.time - e.first).toNat / 1000) (2 ^ 32 - 1)
      pushCoalesced s { e.last with coalesced := true, count := e.count, span := span }

/-! ### Clears (R495, R498) -/

/-- R498: every counter of a class reads 0. -/
def clearCounters (s : State) (c : CntCls) : State :=
  { s with regs := s.regs.filter (fun p => (regDef p.1).cnt != some c) }

/-- CLEAR_PERF (R498, R503). -/
def clearPerf (s : State) : State := clearCounters s .perf

/-- CLEAR_ERR (R498, R503); HUB_CC_STATUS.RESTARTS is an error counter too (R42), and an outage under way counts from here
(R425). -/
def clearErr (s : State) : State :=
  let s := clearCounters s .err
  let s : State := { s with twin := { s.twin with
    splitSince := s.twin.splitSince.map (fun _ => s.time), takeover := s.twin.takeover.map (fun p => (s.time, p.2)) } }
  (List.range 4).foldl (fun s n => setCtl s n { ctlAt s n with restarts := 0 }) s

/-- R495: what keeps FAULT set. -/
def faultPersists (s : State) : Bool :=
  (List.range 4).any (fun n => (ctlAt s n).st == 2)
    || (List.range 12).any (fun k => decide ((stackAt s k).st = .failed))
    || (decide (s.power.st = .standby) && s.power.braked)

/-- FAULT_CLEAR (R495). -/
def faultClear (s : State) : State := if faultPersists s then s else regClrBit s oLogStatus 16

/-- LOG_TIME_READ (R503): a read of LOG_TIME_LO latches bits 63:32. -/
def logTimeRead (s : State) : State := { s with log := { s.log with timeHi := w32 (fld s.time 63 32) } }

/-! ### Trace (R502) -/

def traceBase (s : State) : Nat := (regGet s oTraceLo).toNat + put (regFld s oTraceHi 15 0) 32

/-- Records in the trace ring. -/
def traceLen (s : State) : Nat := 2 ^ (regFld s oTraceSize 5 0 - 5)

/-- R502: a failed trace write stops the trace. -/
def traceStopped (s : State) (sub da : Nat) : State := event (regClrBit s oTraceCtl 0) 6 12 6 sub 0 da

/-- TRACE_RECORD_WRITE (R502): the oldest queued record goes to the ring, which wraps or stops at its end;
LOG_TRACE_WPTR counts on, as a sequence counter (R498). -/
def traceRecordWrite (s : State) : State :=
  match s.trace with
  | [] => s
  | r :: rest =>
    let idx := (regGet s oTraceWptr).toNat % traceLen s
    let da := (traceBase s + 32 * idx) % 2 ^ 48
    let stop := regBit s oTraceCtl 1
    if !regBit s oTraceCtl 0 ∨ rangeWaits s da 32 true ∨ (daKind s da = .dram ∧ regGet s oCfgEpoch = 0) then s
    else if stop && regBit s oTraceStatus 0 then count { s with trace := rest } oTraceDrop
    else if rangeError s da 32 then traceStopped { s with trace := rest } 2 da
    else if rangeSealRefused s none da 32 true then traceStopped (count { s with trace := rest } oDenyCnt) 1 da
    else
      let len := traceLen s
      let s := regSet (daWrite s (fun _ => 2) da (leBytes 32 r.word.toNat) [false]) oTraceWptr (regGet s oTraceWptr + 1)
      let s := if stop && decide (idx + 1 = len) then regSetBit s oTraceStatus 0 else s
      { s with trace := rest }

end Sys2Proof.Machine
end

