-- ==== Sys2Proof/Machine/Thermal.lean ====
section
/-! DEFINITION. Temperature sensors and their vote (R475–R478), throttle steps (R480), and the decision of a shutdown
(R481, R482, R484). -/

namespace Sys2Proof.Machine

open Sys2Proof

/-! ### Classes and limits (R475, R480) -/

/-- 0 DRAM, 1 logic, 2 board, 3 lid. -/
def sensorClass (i : Nat) : Nat := if i < 96 then 0 else if i < 208 then 1 else if i < 215 then 2 else 3

def classLimits (c : Nat) : List Int :=
  match c with
  | 0 => [85, 90, 95, 98, 100]
  | 1 => [105, 115, 125]
  | 2 => [100, 110, 120]
  | _ => [70]

/-- The throttle, shutdown and trip points of a class. -/
def throttlePoint (c : Nat) : Int := match c with | 0 => 90 | 1 => 105 | _ => 100
def shutdownPoint (c : Nat) : Int := match c with | 0 => 98 | 1 => 115 | _ => 110
def tripPoint (c : Nat) : Int := match c with | 0 => 100 | 1 => 125 | _ => 120

/-- The sensors that a throttle row looks at, and its class. -/
def targetSensors : ThermalUnit → List Nat × Nat
  | .dram k => ((List.range 8).map (· + 8 * k.val), 0)
  | .mill m => ((List.range 24).map (· + (96 + 24 * m.val)), 1)
  | .hub => ((List.range 16).map (· + 192), 1)
  | .board => ((List.range 7).map (· + 208), 2)

/-- The number of a unit in `Power.thermal`. -/
def targetKey : ThermalUnit → Nat
  | .dram k => k.val
  | .mill m => 12 + m.val
  | .hub => 16
  | .board => 17

/-- The hottest valid sensor of a list, with its temperature (R478). -/
def hottest (s : State) (l : List Nat) : Option (Nat × Int) :=
  l.foldl (fun (a : Option (Nat × Int)) (i : Nat) =>
    let x := sensorAt s i
    if !x.valid then a
    else match a with
      | some y => if y.2 < x.temp then some (i, x.temp) else a
      | none => some (i, x.temp)) none

/-! ### Clock steps and allowances -/

def cclkStep (s : State) (m : Nat) : Nat := regFld s oPwrCclk (4 * m + 3) (4 * m)

/-- R471: a clock is held until its PLL has relocked. -/
def holdClock (s : State) (c : ClockId) : State :=
  { s with power := { s.power with held := if s.power.held.contains c then s.power.held else s.power.held ++ [c] } }

/-- R459, R471: VMILL m takes the voltage of its die's cclk step. -/
def setVmill (s : State) (m step : Nat) : State :=
  if m < 4 then { s with power := { s.power with vmill := tset 0 m step s.power.vmill } } else s

/-- Mill die m (0–3) or the hub (4) takes a cclk step (R471). -/
def setCclk (s : State) (m step : Nat) : State :=
  if cclkStep s m = step then s
  else
    let c : ClockId := if h : m < 4 then .mill ⟨m, h⟩ else .hub
    holdClock (setVmill (regSetFld s oPwrCclk (4 * m + 3) (4 * m) step) m step) c

def qclkReg (k : Nat) : Nat := if k < 8 then oPwrQclk0 else oPwrQclk1
def qclkStep (s : State) (k : Nat) : Nat := regFld s (qclkReg k) (4 * (k % 8) + 3) (4 * (k % 8))

def setQclk (s : State) (k step : Nat) : State :=
  if qclkStep s k = step then s
  else
    let s := regSetFld s (qclkReg k) (4 * (k % 8) + 3) (4 * (k % 8)) step
    if h : k < 12 then holdClock s (.stack ⟨k, h⟩) else s

def allowAt (s : State) (k : Nat) : Nat := regFld s (oQrn k qAllow) 4 0
def setAllow (s : State) (k a : Nat) : State := regSetFld s (oQrn k qAllow) 4 0 a

def setFarCut (s : State) (k pct : Nat) : State :=
  { s with power := { s.power with farCut := tset 0 k pct s.power.farCut } }

/-- CLOCK_RELOCK (R471): the units of the clock go on; what waited for cores of its die takes effect (R214). -/
def clockRelock (clock : ClockId) (s : State) : State :=
  pumpOps { s with power := { s.power with held := s.power.held.filter (· != clock) } }

/-- ALLOW of a stack under the floor: 1 (R470), and 0 in a Brake (R483), above 95 °C (R73) and, with the querns unpowered,
in STANDBY where it stood at 0. -/
def floorAllow (s : State) (k : Nat) : Nat :=
  if s.power.st = .braking ∨ (stackAt s k).overMax then 0
  else if s.power.st = .standby then min (allowAt s k) 1
  else 1

/-- R470: the floor allowance. -/
def applyFloor (s : State) : State :=
  let s : State := { s with power := { s.power with floor := true } }
  let s := (List.range 12).foldl (fun s k =>
    setFarCut (setAllow s k (floorAllow s k)) k (if (stackAt s k).overMax then 75 else 50)) s
  let s := (List.range 4).foldl (fun s m => setCclk s m 6) s
  setCclk s 4 (max 5 (cclkStep s 4))

/-! ### Throttle steps (R480) -/

/-- One throttle step takes effect at once; the Governor keeps it in its next period (R472). -/
def throttleApply (s : State) : ThermalUnit → State
  | .dram k =>
    let a := allowAt s k
    if 1 < a then setAllow s k (max 1 (a - 2)) else setQclk s k (min 3 (qclkStep s k + 1))
  | .mill m => setCclk s m (min 6 (cclkStep s m + 1))
  | .hub => setCclk s 4 (min 6 (cclkStep s 4 + 1))
  | .board => s

/-- One throttle step is undone, as far as the floor (R470), a stack above 95 °C (R73) or the lack of valid sensors (R478)
lets it; a Brake keeps every allowance at 0 (R483). -/
def throttleRelease (s : State) : ThermalUnit → State
  | .dram k =>
    if 0 < qclkStep s k then setQclk s k (qclkStep s k - 1)
    else if (stackAt s k).overMax ∨ floorInForce s ∨ s.power.st = .braking then s
    else setAllow s k (min 16 (allowAt s k + 2))
  | .mill m =>
    if floorInForce s then s
    else setCclk s m (max (if validCount s (96 + 24 * m) 24 < 12 then 5 else 0) (cclkStep s m - 1))
  | .hub => if floorInForce s then s else setCclk s 4 (cclkStep s 4 - 1)
  | .board => s

/-- R480: the effective cap after `n` board steps. -/
def boardStepped (cap n : Nat) : Nat := max 150 (cap - 25 * n)

/-- R480: a further throttle step of the unit would change something. -/
def canThrottle (s : State) : ThermalUnit → Bool
  | .dram k => decide (1 < allowAt s k) || decide (qclkStep s k < 3)
  | .mill m => decide (cclkStep s m < 6)
  | .hub => decide (cclkStep s 4 < 6)
  | .board => decide (150 < boardStepped s.power.cap (tget 0 s.power.thermal 17))

/-- THROTTLE_STEP (R480): at or above the throttle point one further step is applied; the first is logged. A unit at its last
step stays there. -/
def throttleStep (target : ThermalUnit) (s : State) : State :=
  let t := targetSensors target
  match hottest s t.1 with
  | none => s
  | some (i, temp) =>
    if temp < throttlePoint t.2 ∨ !canThrottle s target then s
    else
      let key := targetKey target
      let n := tget 0 s.power.thermal key
      let s := if n = 0 then event s 0 10 2 t.2 i else s
      throttleApply { s with power := { s.power with thermal := tset 0 key (n + 1) s.power.thermal } } target

/-- THROTTLE_UNDO (R480): 2 °C below the point one step is undone. -/
def throttleUndo (target : ThermalUnit) (s : State) : State :=
  let t := targetSensors target
  let key := targetKey target
  let n := tget 0 s.power.thermal key
  match hottest s t.1 with
  | none => s
  | some (_, temp) =>
    if n = 0 ∨ throttlePoint t.2 - 2 < temp then s
    else throttleRelease { s with power := { s.power with thermal := tset 0 key (n - 1) s.power.thermal } } target

/-! ### The record of a trip (R487) -/

/-- R485, R487: THM_TRIP takes a record. -/
def recordTrip (s : State) (kind sensor : Nat) (temp : Int) : State :=
  regSet s oThmTrip (w32 (kind + put sensor 8 + put (unsignedOf 8 temp) 16 + put 1 31))

/-- R482: the least-squares slope of (time, reading) pairs, as numerator and denominator in °C per ns; times count from the
oldest pair. -/
def slopeOf (l : List (W64 × Int)) : Int × Int :=
  let t0 : W64 := match l.getLast? with | some p => p.1 | none => 0
  let n : Int := l.length
  let at' := fun (p : W64 × Int) => ((p.1 - t0).toNat : Int)
  let si := (l.map at').sum
  let st := (l.map (fun p => p.2)).sum
  let sit := (l.map (fun p => at' p * p.2)).sum
  let sii := (l.map (fun p => at' p * at' p)).sum
  (n * sit - si * st, n * sii - si * si)

/-- R482: the time to the trip point, projected from the slope of the last 8 samples, is at least BUDGET. -/
def brakeInTime (s : State) (i : Nat) (temp : Int) : Bool :=
  let m := slopeOf (sensorAt s i).hist
  let budget : Int := (regFld s oBrakeCtl 7 0 : Nat)
  decide (m.1 ≤ 0) || decide (budget * 100000 * m.1 ≤ (tripPoint (sensorClass i) - temp) * m.2)

end Sys2Proof.Machine
end

