-- ==== Sys2Proof/Machine/PowerStates.lean ====
section
/-! DEFINITION. Heartbeats out (R406), the end of running work, the Brake and the cut (R482–R485), sensor samples (R476),
supply conditions (R481), and the power states (R462–R465). -/

namespace Sys2Proof.Machine

open Sys2Proof

/-! ### Messages to the partner (R403–R405) -/

/-- R407: while PAIRED or SYNC_*. -/
def paired (s : State) : Bool :=
  match s.twin.st with | .paired => true | .syncSrc => true | .syncDst => true | _ => false

/-- R403: the priority of a class, 0 the highest. -/
def msgPriority (cls : Nat) : Nat :=
  match cls with
  | 1 => 0 | 2 => 1 | 3 => 1 | 4 => 1 | 5 => 2 | 6 => 3
  | _ => 4

/-- R403: OWNER_UPD, REPL and BULK have acknowledgements of their own. -/
def msgAcked (cls : Nat) : Bool := cls == 3 || cls == 5 || cls == 6

/-- A class that may go out now: on a link that is UP, and, of what a pair exchanges, to a partner that has a host (R420). -/
def msgFlows (s : State) (cls : Nat) : Bool := decide (s.twin.link = 2) && (!msgAcked cls || (paired s && !s.twin.hostless))

/-- R404: the message as it goes out; FLITS counts its payload. -/
def msgOut (m : Msg) : Out := .wilril m.cls ((m.payload.length + 63) / 64) m.mseq m.jobtag m.args m.payload

/-- R403, R404: a message of a class that may go out takes the class's next sequence number and does; one that may not waits,
and is numbered when it goes. It is kept until it is acknowledged (R405). -/
def sendMsg (s : State) (cls : Nat) (jobtag : W32) (args : List Nat) (payload : List Byte) (did : Option Nat := none) :
    State :=
  let n := tget 0 s.twin.txSeq cls
  let go := msgFlows s cls
  let m : Msg := { cls := cls, mseq := if go then n else 0, jobtag := jobtag, args := args, payload := payload, did := did
                   sent := go, fresh := !go }
  let s : State := { s with twin := { s.twin with
    txSeq := if go then tset 0 cls (n + 1) s.twin.txSeq else s.twin.txSeq
    keyMsgs := s.twin.keyMsgs + b2n go, sendq := s.twin.sendq ++ [m] } }
  if go then emit s (msgOut m) else s

/-- R403: a payload of more than 64 KiB goes as several messages, each with its offset behind the arguments. -/
def sendParts (s : State) (cls : Nat) (jobtag : W32) (args : List Nat) (payload : List Byte) (did : Option Nat := none) :
    State :=
  let parts := if payload.isEmpty then [[]] else chunks 65536 payload
  (parts.zipIdx).foldl (fun s p => sendMsg s cls jobtag (args ++ [65536 * p.2]) p.1 did) s

/-- The waiting messages, those that may go out now marked as sent and numbered in their class, with the next numbers. -/
def sendDue (s : State) : List Msg → Table W32 → List Msg × Table W32
  | [], t => ([], t)
  | m :: rest, t =>
    if !m.sent && msgFlows s m.cls then
      let n := tget 0 t m.cls
      let r := sendDue s rest (if m.fresh then tset 0 m.cls (n + 1) t else t)
      ({ m with sent := true, fresh := false, mseq := if m.fresh then n else m.mseq } :: r.1, r.2)
    else
      let r := sendDue s rest t
      (m :: r.1, r.2)

/-- R403: the waiting messages that may go out do, the highest priority first. -/
def pumpSend (s : State) : State :=
  let r := sendDue s s.twin.sendq s.twin.txSeq
  let pairs := s.twin.sendq.zip r.1
  let gone := (pairs.filter (fun p => !p.1.sent && p.2.sent)).map (·.2)
  let new := (pairs.filter (fun p => p.1.fresh && !p.2.fresh)).length
  let out := (List.range 5).flatMap (fun p => gone.filter (fun m => msgPriority m.cls == p))
  out.foldl (fun s m => emit s (msgOut m))
    { s with twin := { s.twin with sendq := r.1, txSeq := r.2, keyMsgs := s.twin.keyMsgs + new } }

/-- R405: after a retraining the messages go out again from the first that is not acknowledged. -/
def resendAll (s : State) : State :=
  pumpSend { s with twin := { s.twin with sendq := s.twin.sendq.map (fun m => { m with sent := false }) } }

/-- Messages under new keys: what has an acknowledgement of its own and lacks it keeps its place, and is numbered from 0 as
it goes out again (log 76). -/
def renewSendq (s : State) : State :=
  let lost := (s.twin.sendq.filter (fun m => !msgAcked m.cls && !m.sent)).length
  let s : State := { s with twin := { s.twin with
    sendq := (s.twin.sendq.filter (fun m => msgAcked m.cls)).map (fun m =>
      { m with mseq := 0, sent := false, fresh := true })
    txSeq := [], rxSeq := [] } }
  noteDiscard s 1 (min 64 lost)

/-! ### Heartbeats (R406) -/

def pstateCode : PairSt → Nat
  | .unpaired => 0 | .pairing => 1 | .paired => 2 | .solo => 3 | .split => 4 | .syncSrc => 5 | .syncDst => 6

def hostlinkCode (s : State) : Nat :=
  match s.link.st with
  | .up => if s.link.cfgOnly then 2 else 0
  | .recovery => 0
  | _ => 1

/-- The heartbeat that the hardware sends now: control core 3 owns PSTATE and HOSTLINK. -/
def heartbeatNow (s : State) : Heartbeat :=
  let own := (ctlAt s 3).st == 0
  { hseq := s.twin.hseq + 1
    pstate := if own then pstateCode s.twin.st else s.twin.heldHb.pstate
    ccRestart := BitVec.ofNat 4 (ofBits ((List.range 4).map (fun n => (ctlAt s n).st == 1)))
    failed := (List.range 4).any (fun n => (ctlAt s n).st == 2)
    brake := decide (s.power.st = .braking)
    hostlink := if own then hostlinkCode s else s.twin.heldHb.hostlink }

/-- The fields of a heartbeat in the order of R406. -/
def heartbeatArgs (hb : Heartbeat) : List Nat :=
  [hb.hseq.toNat, hb.pstate, hb.ccRestart.toNat, b2n hb.failed, b2n hb.brake, hb.hostlink]

/-- R404, R406: a heartbeat goes out with job tag 0; a link that is DOWN carries none. -/
def sendHeartbeat (s : State) : State :=
  let hb := heartbeatNow s
  let s : State := { s with twin := { s.twin with hseq := hb.hseq, heldHb := hb } }
  if s.twin.link = 0 then s else sendMsg s 1 0 (heartbeatArgs hb) []

/-! ### Work that a Brake or a reset ends -/

def stopAllCores (s : State) : State := s.cores.foldl (fun s p => stopCore s p.1) s

/-- R285: every channel ends its chain as by ABORT; `hard` gives up what is outstanding. -/
def abortAllDma (hard : Bool) (s : State) : State :=
  s.dmas.foldl (fun s p =>
    if (dmaAt s p.1).st = .idle then s
    else if hard then
      finishNow (modDma s p.1 (fun ch => { ch with
        arrivals := [], halting := none, ending := none, cur := ch.cur.map (fun c => { c with reading := none }) })) p.1
        (match (dmaAt s p.1).ending with | some e => e.1 | none => 9) false
    else if h : p.1 < 64 then abort ⟨p.1, h⟩ s else s) s

/-- The reads of host memory that no one waits for any more. -/
def dropReads (s : State) (keep : HostRead → Bool) : State :=
  { s with link := { s.link with reads := s.link.reads.filter (fun p => keep p.2) } }

/-- R483 step 2: sluice transfers complete with ST_ABORTED. -/
def abortSluices (s : State) : State :=
  let l := s.sluices
  let s := dropReads { s with sluices := [] } (fun r => match r with | .sluice _ => false | _ => true)
  l.foldl (fun s x => complete (count s oSluCnt) x.did { status := 9 }) s

/-- A core whose run is ended with everything outstanding given up. -/
def endRun (c : Core) : Core :=
  { c with
    st := match c.st with | .running => .loaded | .stopping => .loaded | x => x
    launch := none, xfers := [], matq := [], vecq := [], sys := [], dmaps := 0, events := 0, q14rsv := 0
    tasks := c.tasks.map (fun (p : Nat × Task) => (p.1, { p.2 with sig := none })) }

/-- Every launch ends, as aborted or with its trap (R219, R384). -/
def endLaunches (s : State) : State :=
  let l := s.launches
  let s : State := { s with cores := (s.cores.map (fun (p : Nat × Core) => (p.1, endRun p.2))), launches := [] }
  let s := l.foldl (fun s x => complete s x.did (launchDone { x with aborted := true })) s
  settleStops s

/-- R153, R86: what waits at the READY stacks is performed. -/
def performStacks (s : State) : State :=
  (List.range 12).foldl (fun s k =>
    if (stackAt s k).st = .ready then performAll k (stackAt s k).reqs.length s else s) s

/-- R173: running entries end, their tailrace units are written, and with them the jobs that had started end. -/
def endJobs (s : State) : State :=
  let s := performStacks ((List.range 12).foldl abortStack s)
  let rest := fun (j : Job) => ((List.range 32).filter (bitOf j.left)).map (fun c => (c, 9))
  let s : State := { s with jobs := s.jobs.map (fun (j : Job) =>
    if j.left ≠ j.mask ∨ j.outcomes ≠ [] then { j with left := 0, outcomes := j.outcomes ++ rest j } else j) }
  s.jobs.foldl (fun s j => quernJobComplete j.id s) s

/-- The names of descriptors that wait in a ring's queue: nothing of them has started. -/
def queuedDids (s : State) : List Nat := s.rings.flatMap (fun (p : Nat × Ring) => p.2.queue.map (fun (x : RDesc) => x.did))

/-- Handed-over descriptors are forgotten: they get no record. -/
def forgetWork (s : State) : State :=
  let q := queuedDids s
  { s with admitted := s.admitted.filter (fun a => q.contains a.did) }

/-! ### Rails (R459, R460) -/

def railKey : Rail → Nat
  | .p12 => 0 | .vaon => 1 | .vhub => 2 | .vio => 3
  | .vmill m => 4 + m.val
  | .vqrn g => 8 + g.val
  | .vbase => 11 | .vpp => 12 | .vddDram => 13

def railAt (s : State) (k : Nat) : RailSt := tget .off s.power.rails k

def setRails (s : State) (l : List Nat) (r : RailSt) : State :=
  { s with power := { s.power with rails := l.foldl (fun t k => tset .off k r t) s.power.rails } }

/-- R462, R465: what entry to STANDBY clears in the cores; programs stay. -/
def standbyCores (s : State) : State :=
  { s with
    scratch := [], scratchPoison := []
    cores := s.cores.map (fun (p : Nat × Core) => (p.1, { p.2 with queues := [], mat := {} })) }

/-- R459, R462: STANDBY: querns unpowered, mill dies in retention. The host link is in L1, in L1.1 or not: the spec leaves
it open, and CLKREQ_N is released in L1.1 alone (R509). -/
def enterStandby (s : State) : State :=
  let s := standbyCores (setRails (setRails s [8, 9, 10] .off) [4, 5, 6, 7] .retention)
  let d := draw s
  { d.2 with power := { d.2.power with st := .standby, exiting := false }
             pins := { d.2.pins with clkreq := d.2.pins.clkreq && !(s.link.st == .up && bitOf d.1 0) } }

/-! ### Brake and cut (R482–R485) -/

def pairAlive (s : State) (b : Bool) : State := { s with pins := { s.pins with pairAliveOut := b } }

/-- R483 steps 1 and 2; records are written while the host link is UP (step 4). -/
def beginBrake (s : State) (kind sensor : Nat) (temp : Int) : State :=
  let s := if s.link.st = .up then s else forgetWork s
  let s : State := { s with
    power := { s.power with st := .braking, brake := some { kind := kind, sensor := sensor, temp := unsignedOf 8 temp } }
    frontStopped := true }
  let s := sendHeartbeat (count s oBrakeCnt)
  let s := (List.range 12).foldl (fun s k => setAllow s k 0) s
  abortSluices (abortAllDma false (stopAllCores s))

/-- What a loss of power leaves: fuses, flash, straps, the commands and the ports; `aon` keeps the always-on island, with
THM_TRIP alone of the registers (R485), and its sensors. -/
def poweredOff (s : State) (aon : Bool) : State :=
  { pending := s.pending, free := s.free, fuses := s.fuses, otp := s.otp, flash := s.flash, outbox := s.outbox
    time := if aon then s.time else 0
    pins := { s.pins with pairAliveOut := false, clkreq := true, faultHeld := aon && (regBit s oLogStatus 16 || s.pins.faultHeld) }
    sensors := if aon then s.sensors else []
    regs := if aon then s.regs.filter (fun p => p.1 == oThmTrip) else []
    power := { st := .off, inputPresent := s.power.inputPresent, vin := s.power.vin, seqStep := 3
               rails := if aon then [(0, .on), (1, .on)] else [] } }

/-- R484: a cut. A flash write under way is left incomplete (R457). -/
def cutPower (s : State) (kind sensor : Nat) (temp : Int) : State :=
  let s : State := { s with flash := { s.flash with imageValid := s.flash.imageValid && s.sec.fwState != 2 } }
  recordTrip (poweredOff s true) kind sensor temp

/-- R463, R482, R513: a shutdown condition, with the estimate's verdict; kinds 1 and 2 are Brakes, 3 and 4 the cuts. In
STANDBY there is nothing to brake (log 45), and a Brake under way is not started again (R483). -/
def shutdown (s : State) (supply inTime : Bool) (sensor : Nat) (temp : Int) : State :=
  let kind := if supply then 2 else 1
  match s.power.st with
  | .active => if inTime && s.pins.resetN then beginBrake s kind sensor temp else cutPower s (kind + 2) sensor temp
  | .idle => if inTime && s.pins.resetN then beginBrake s kind sensor temp else cutPower s (kind + 2) sensor temp
  | .standby => if inTime && s.pins.resetN then s else cutPower s (kind + 2) sensor temp
  | _ => s

/-- INPUT_LOST (R484, R485). -/
def inputLost (s : State) : State :=
  let s : State := { s with
    flash := { s.flash with imageValid := s.flash.imageValid && s.sec.fwState != 2 }
    power := { s.power with inputPresent := false, vin := 0 } }
  let off := poweredOff s false
  { off with power := { off.power with seqStep := 1 } }

/-- RAIL_POWER_GOOD_LOST (R461, R481): outside a power-down it is a cut. -/
def railPowerGoodLost (rail : Rail) (s : State) : State :=
  if s.power.st ≠ .off ∧ railAt s (railKey rail) ≠ .off then cutPower s 4 0 0 else s

def setVin (s : State) (vin : Nat) : State := { s with power := { s.power with vin := vin % 65536 } }

/-- INPUT_CUT_THRESHOLD (R481): below 34 V or above 64 V. -/
def inputCutThreshold (vin : Nat) (s : State) : State :=
  let s := setVin s vin
  if s.power.st ≠ .off ∧ (vin < 3400 ∨ 6400 < vin) then cutPower s 4 0 0 else s

/-- SUPPLY_FAULT_TIMEOUT (R481, R482): a low input holds up 3 ms, a high one is unbounded. -/
def supplyFaultTimeout (vin : Nat) (s : State) : State :=
  let s := setVin s vin
  if vin < 3800 then shutdown s true (decide (regFld s oBrakeCtl 7 0 ≤ 30)) 0 0
  else if 6100 < vin then shutdown s true true 0 0
  else s

/-- HARDWARE_TRIP (R479, R484): a cut with KIND 5; the spec gives no sensor for a trip diode (log 9). -/
def hardwareTrip (s : State) : State :=
  if s.power.st = .off then s
  else
    let d := draw s
    cutPower d.2 5 (fld d.1 7 0) ((fld d.1 15 8 : Nat) : Int)

/-! ### Sensor samples (R70, R71, R73–R77, R476–R478) -/

def insertInt (x : Int) : List Int → List Int
  | [] => [x]
  | y :: r => if x ≤ y then x :: y :: r else y :: insertInt x r

/-- Twice the median. -/
def median2 (l : List Int) : Int :=
  let s := l.foldl (fun a x => insertInt x a) []
  let n := s.length
  if n % 2 = 1 then 2 * s.getD (n / 2) 0 else s.getD (n / 2 - 1) 0 + s.getD (n / 2) 0

def neighboursOf (s : State) (i : Nat) : List Nat := tget [] s.flash.neighbours i

/-- R477: the reading differs too far from the median of the valid neighbours. -/
def disagrees (s : State) (i : Nat) (t : Int) : Bool :=
  let ns := ((neighboursOf s i).map (sensorAt s)).filter (·.valid)
  !ns.isEmpty && decide (2 * (regFld s oThmCtl 4 0 : Int) < (2 * t - median2 (ns.map (·.temp))).natAbs)

/-- The readings in the payload of a vote event. -/
def readingsOf (s : State) (i : Nat) : Nat :=
  leNat ((i :: neighboursOf s i).map (fun j => BitVec.ofNat 8 (unsignedOf 8 (sensorAt s j).temp)))

/-- R477: a sensor leaves the vote. -/
def voteOut (s : State) (i sub : Nat) : State := event (count s oVoteCnt) 2 10 1 sub i (readingsOf s i)

/-- R73, R470, R480: above 95 °C a stack's ALLOW is 0 and its far-path slots are at 25 %; when that ends under the floor,
they are the floor's. -/
def stackAllowance (s : State) (was : Bool) (k : Nat) : State :=
  if (stackAt s k).overMax then setFarCut (setAllow s k 0) k 75
  else if was && floorInForce s then setFarCut (setAllow s k (floorAllow s k)) k 50
  else s

/-- R70, R71, R73–R75: what a stack makes of its valid sensors. The band called for is the one that a change is judged from,
though a fallback band may be in use (R77; DESIGN CHOICE, log 78). -/
def stackSense (s : State) (k : Nat) : State :=
  let temps := stackTemps s k
  let was := (stackAt s k).overMax
  let s := stackHeat s k
  if temps.isEmpty then stackAllowance s was k
  else
    let t := maxInt temps
    let st := stackAt s k
    let s := stackAllowance s was k
    let band := bandNext st.called t
    match st.st with
    | .ready => if band = st.called then s else loadBand s k band false
    | .clearing => if band = st.called then s else loadBand s k band false
    | .selfRefresh => modStack s k (fun st => { st with called := band })
    | _ => s

/-- R478: what the domain of a sensor makes of it. -/
def senseDomain (s : State) (i : Nat) : State :=
  if i < 96 then stackSense s (i / 8)
  else if i < 192 then
    let m := (i - 96) / 24
    if validCount s (96 + 24 * m) 24 < 12 then setCclk s m (max 5 (cclkStep s m)) else s
  else if i < 208 then (if validCount s 192 16 < 8 then applyFloor s else s)
  else s

/-- R476: within 5 °C of a limit of the class. -/
def nearLimit (i : Nat) (t : Int) : Bool := (classLimits (sensorClass i)).any (fun l => decide ((l - t).natAbs ≤ 5))

/-- A reading enters a sensor that is in the vote. -/
def takeReading (s : State) (i : Nat) (t : Int) : State :=
  let x := sensorAt s i
  let dis := if disagrees s i t then x.disagree + 1 else 0
  let out := decide (3 ≤ dis)
  let s := setSensor s i { x with
    temp := t, valid := !out, fast := nearLimit i t, votedOut := out, disagree := dis, unread := 0
    hist := ((s.time, t) :: x.hist).take 8 }
  let s := senseDomain (if out then voteOut s i 0 else s) i
  let c := sensorClass i
  if !out && decide (c < 3) && decide (shutdownPoint c ≤ t) then shutdown s false (brakeInTime s i t) i t else s

/-- SENSOR_SAMPLE (R476, R477, R480): a reading, or none where the sensor cannot be read. A sensor out of the vote is still
sampled. -/
def sensorSample (sensor : Fin 216) (reading : Option Int) (s : State) : State :=
  let i := sensor.val
  let x := sensorAt s i
  if x.votedOut || x.dead then
    match reading with
    | some t => setSensor s i { x with temp := t, fast := nearLimit i t, hist := ((s.time, t) :: x.hist).take 8 }
    | none => s
  else match reading with
    | some t => takeReading s i t
    | none =>
      if x.unread < 2 then setSensor s i { x with unread := x.unread + 1, disagree := 0 }
      else senseDomain (voteOut (setSensor s i { x with valid := false, dead := true, unread := 3 }) i 1) i

/-- OVER_MAX_TIMEOUT (R480): above 95 °C for 100 ms. -/
def overMaxTimeout (stack : Fin 12) (s : State) : State :=
  if !(stackAt s stack).overMax then s
  else match hottest s (targetSensors (.dram stack)).1 with
    | some (i, t) => shutdown s false (brakeInTime s i t) i t
    | none => s

/-! ### IDLE and STANDBY (R463–R465) -/

/-- R464: the idle conditions. -/
def idleHolds (s : State) : Bool :=
  s.admitted.isEmpty && s.sluices.isEmpty && s.sec.work.isNone
    && s.cores.all (fun p => match p.2.st with | .running => false | .stopping => false | _ => true)
    && s.dmas.all (fun p => decide (p.2.st = .idle) && p.2.pending.isEmpty)
    && s.chans.all (fun p => decide (p.2.seq = .idle))

def setPowerSt (s : State) (p : PowerSt) : State := { s with power := { s.power with st := p } }

/-- IDLE_ENTRY (R463): the idle conditions have held for IDLE_DELAY. -/
def idleEntry (s : State) : State :=
  if s.power.st = .active ∧ regBit s oPwrCtl 4 ∧ idleHolds s then setPowerSt s .idle else s

/-- R360: a lost link keeps the module in IDLE and its stacks in self-refresh, until it reaches L0 again. -/
def linkWarm (s : State) : Bool :=
  match s.link.st with
  | .warm => true
  | .warmEntry => true
  | .training => s.link.fromWarm
  | _ => false

/-- IDLE_WAKE (R463). -/
def idleWake (s : State) : State := if s.power.st = .idle ∧ !linkWarm s then setPowerSt s .active else s

def refuseRequest (s : State) : State := regSetBit s oPwrState 8

/-- REQ_STANDBY (R465): accepted while the idle conditions hold. -/
def reqStandby (s : State) : State :=
  match s.power.st with
  | .active => go s
  | .idle => go s
  | _ => s
where
  go (s : State) : State :=
    if idleHolds s then enterStandby ((List.finRange 12).foldl (askSelfRefresh true) s) else refuseRequest s

/-- R465: every valid sensor is 10 °C below its shutdown limit, and the input lies within 40–60 V. -/
def coolEnough (s : State) : Bool :=
  decide (4000 ≤ s.power.vin) && decide (s.power.vin ≤ 6000)
    && s.sensors.all (fun p => !p.2.valid || decide (3 ≤ sensorClass p.1)
      || decide (p.2.temp ≤ shutdownPoint (sensorClass p.1) - 10))

/-- R463: STANDBY is left: rails up, and the stacks leave self-refresh, but for a lost link (R360). -/
def leaveStandby (s : State) : State :=
  if s.power.st ≠ .standby ∨ s.power.exiting then s
  else if s.power.braked && !coolEnough s then refuseRequest s
  else
    let s := setRails s [4, 5, 6, 7, 8, 9, 10] .on
    let s := if linkWarm s then s else (List.range 12).foldl exitSelfRefresh s
    { s with power := { s.power with exiting := true } }

/-- REQ_ACTIVE (R465). -/
def reqActive (s : State) : State := leaveStandby s

/-- MGMT_WAKE (R465): also a request that ends IDLE (R463); a restarting control core 3 answers busy (R38). -/
def mgmtWake (s : State) : State :=
  if (ctlAt s 3).st = 1 then emit s (.mgmtBusy (mgmtAddress s)) else if s.power.st = .idle then idleWake s else leaveStandby s

/-- R509: PAIR_ALIVE_OUT may be high: phase READY is reached, no control core has failed, and no Brake holds the module. -/
def aliveDue (s : State) : Bool :=
  s.phase == 5 && (List.range 4).all (fun n => (ctlAt s n).st != 2) && decide (s.power.st ≠ .braking) && !s.power.braked

/-- STANDBY_EXIT_COMPLETE (R463, R464, R509): no stack is clearing any more. A lost link leaves the module in IDLE. -/
def standbyExitComplete (s : State) : State :=
  if !s.power.exiting ∨ (List.range 12).any (fun k => decide ((stackAt s k).st = .clearing)) then s
  else
    let was := s.power.braked
    let s : State := { s with
      frontStopped := s.commit.isSome
      pins := { s.pins with clkreq := true }
      power := { s.power with
        st := if linkWarm s then .idle else .active, braked := false, exiting := false, brake := none } }
    if was && aliveDue s then pairAlive s true else s

/-- PWR_TOK (R473): reported tokens. -/
def pwrTok (role : Fin 3) (add : BitVec 32) (s : State) : State :=
  { s with power := { s.power with tokenLog := s.power.tokenLog ++ [(s.time, role.val, add.toNat)] } }

end Sys2Proof.Machine
end

