-- ==== Sys2Proof/Machine/Governor.lean ====
section
/-! DEFINITION. Power measurement with the fast limiter (R466, R467), the domain limiters (R469), and the Governor
(R329, R472–R474). Powers are in 0.25 W, PIN in 0.1 W. What an allowance step or a throttling unit draws is not stated,
and comes from Config (log 7). -/

namespace Sys2Proof.Machine

open Sys2Proof

/-! ### Measurement and the fast limiter (R466, R467) -/

/-- PIN of the last 100 µs, and of the last second (R466). -/
def pinAvg (s : State) : Nat := (s.power.samples.take 10).sum / 10
def pinSecond (s : State) : Nat := s.power.samples.sum / 100000

/-- R480: the board's throttle steps lower the cap by 25 W each, down to 150 W. -/
def boardCap (s : State) (cap : Nat) : Nat := boardStepped cap (tget 0 s.power.thermal 17)

/-- R467: ALLOW is halved on every stack, and every mill die goes one step slower. -/
def peakLimit (s : State) : State :=
  let s := (List.range 12).foldl (fun s k => setAllow s k (if allowAt s k = 0 then 0 else max 1 (allowAt s k / 2))) s
  let s := (List.range 4).foldl (fun s m => setCclk s m (min 6 (cclkStep s m + 1))) s
  event s 0 10 4 0 0 (pinAvg s)

/-- R466: a sample breaks one of the limits: 520 W over 100 µs, 10 ms above CAP, CAP over 1 s, or a period above CAP that
begins less than 90 ms after the last one (log 48). -/
def limitBroken (s : State) (cap : Nat) (begins : Bool) : Bool :=
  decide (5200 < pinAvg s) || decide (1000 ≤ s.power.aboveCap) || decide (cap < pinSecond s)
    || (begins && (match s.power.lastAbove with | some t => decide ((s.time - t).toNat < 90000000) | none => false))

/-- POWER_MEASUREMENT (R466, R467, R486): a 10 µs sample. -/
def powerMeasurement (vin pin : Nat) (s : State) : State :=
  let s := setVin s vin
  if s.power.st = .off then s
  else
    let s : State := { s with power := { s.power with
      vinRead := vin % 65536, samples := (pin :: s.power.samples).take 100000 } }
    let cap := 10 * boardCap s s.power.cap
    let above := decide (cap < pinAvg s)
    let begins := above && s.power.aboveCap == 0
    let s := countIf s begins oPeakCnt
    let s : State := { s with power := { s.power with aboveCap := if above then s.power.aboveCap + 1 else 0 } }
    let broken := limitBroken s cap begins
    let s : State := { s with power := { s.power with lastAbove := if above then some s.time else s.power.lastAbove } }
    if broken then peakLimit s else s

/-! ### Domain limiters (R469) -/

/-- The measured power of a domain over the last 100 µs. -/
def domPower (s : State) (d : Nat) : Nat := (tget [] s.power.domSamples d).sum / 10

def domAllow (s : State) (d : Nat) : Nat := regFld s (oPwrDom d 0) 15 0

def setDomAllow (s : State) (d v : Nat) : State := regSetFld s (oPwrDom d 0) 15 0 (min v 65535)

def rowRole (s : State) (r : Nat) : Nat := fld (effGet s oRoleRow) (2 * r + 1) (2 * r)

/-- R469: the role that a domain's energy is charged to. -/
def domRole (s : State) (d : Nat) : Option Nat :=
  if d < 14 then none else if d < 26 then some (stackRole s (d - 14)) else some (rowRole s (d - 26))

/-- R473: entries of the last 100 ms. -/
def recentOnly (s : State) (l : List (W64 × Nat × Nat)) : List (W64 × Nat × Nat) :=
  l.filter (fun (p : W64 × Nat × Nat) => decide ((s.time - p.1).toNat ≤ 100000000))

def setIssueCut (s : State) (r pct : Nat) : State :=
  { s with power := { s.power with issueCut := tset 0 r pct s.power.issueCut } }

/-- R469: one step of a domain's own means. -/
def limitDomain (s : State) (d : Nat) : State :=
  if d = 0 then s
  else if d = 1 then
    if cclkStep s 4 < 6 then setCclk s 4 (cclkStep s 4 + 1) else { s with power := { s.power with hubCut := 50 } }
  else if d < 14 then setFarCut s (d - 2) (min 75 (max 50 (tget 0 s.power.farCut (d - 2) + 25)))
  else if d < 26 then
    let a := allowAt s (d - 14)
    setAllow s (d - 14) (if a = 0 then 0 else max 1 (a - 1))
  else if tget 0 s.power.issueCut (d - 26) < 50 then setIssueCut s (d - 26) 50
  else setCclk s ((d - 26) / 3) (min 6 (cclkStep s ((d - 26) / 3) + 1))

/-- RATE_LIMITER_WINDOW (R469): the power of one 10 µs window of a domain. -/
def rateLimiterWindow (domain : Fin 38) (power : Nat) (s : State) : State :=
  let d := domain.val
  let s : State := { s with power := { s.power with
    domSamples := tset [] d ((power :: tget [] s.power.domSamples d).take 10) s.power.domSamples } }
  let s : State := match domRole s d with
    | some r => { s with power := { s.power with energyLog := recentOnly s s.power.energyLog ++ [(s.time, r, power)] } }
    | none => s
  if d ≠ 0 ∧ domAllow s d < power ∧ !floorInForce s then limitDomain s d else s

/-! ### Work (R329, R472) -/

/-- The banks that the commands of one phase open. -/
def phasePeak (cmds : List W128) : Nat :=
  let r := cmds.foldl (fun (a : Nat × List Nat) (w : W128) =>
    if cOpc w = 6 then (max a.1 a.2.length, [])
    else if cOpc w = 1 ∨ cOpc w = 4 then (a.1, joinBanks a.2 (maskBanks (cMask w)))
    else a) (0, [])
  max r.1 r.2.length

/-- The jobs of a stack that are running or queued (R329); a job whose arrival alone waits is neither. -/
def stackJobs (s : State) (k : Nat) : List Job := s.jobs.filter (fun j => j.stack == k && !j.arrWait)

/-- R472: the most banks that the stack's entries can stream at once, at most 16. -/
def usableAllow (s : State) (k : Nat) : Nat :=
  min 16 (maxNat ((stackJobs s k).map (fun j => max 1 (phasePeak (entryCmds s k j.entry)))))

/-- The earliest deadline of a stack's jobs, 0 when none has one. -/
def stackDeadline (s : State) (k : Nat) : Nat :=
  (stackJobs s k).foldl (fun a j => if earlier j.deadline.toNat a then j.deadline.toNat else a) 0

/-- R469: a row has work while a core of it runs, or a DMA channel of it is not idle. -/
def rowWork (s : State) (r : Nat) : Bool :=
  s.cores.any (fun p => p.1 / 100 == r && (match p.2.st with | .running => true | .stopping => true | _ => false))
    || (List.range 4).any (fun j => decide ((dmaAt s (16 + 4 * r + j)).st ≠ .idle))

/-! ### Energy per token (R473) -/

/-- The role's energy per token in µJ, when tokens were reported: energy is counted in 2.5 µJ. -/
def roleEpt (s : State) (r : Nat) : Option Nat :=
  let of := fun (l : List (W64 × Nat × Nat)) => ((l.filter (fun p => p.2.1 == r)).map (fun p => p.2.2)).sum
  let tok := of s.power.tokenLog
  if tok = 0 then none else some (of s.power.energyLog * 5 / (2 * tok))

/-- The value by which a role is ranked. -/
def rankEpt (s : State) (r : Nat) : Nat :=
  let known := [0, 1, 2].filterMap (roleEpt s)
  (roleEpt s r).getD (known.sum / max 1 known.length)

/-- A list in ascending order of a key; equal keys keep their order. -/
def insertBy (key : Nat → Nat) (x : Nat) : List Nat → List Nat
  | [] => [x]
  | y :: r => if key x < key y then x :: y :: r else y :: insertBy key x r

def sortBy (key : Nat → Nat) (l : List Nat) : List Nat := l.foldl (fun a x => insertBy key x a) []

/-- The roles in ascending energy per token, in the order GENERATION, CACHE, PREFILL where they are equal. -/
def roleOrder (s : State) : List Nat := sortBy (rankEpt s) [1, 2, 0]

/-! ### The loop of R472 -/

/-- The Governor's plan: allowances by stack, cclk step and issue limit by row, and the rest of R474. -/
structure Plan where
  budget : Int
  allow : Table Nat := []
  row : Table Nat := []
  issue : List Nat := []
  qclk : Table Nat := []
  far : List Nat := []
  throttled : Bool := false

def planRow (p : Plan) (r : Nat) : Nat := tget 6 p.row r

/-- Allowance steps of a stack, up to `goal`, while the budget lasts. -/
def raiseAllow (k goal : Nat) : (fuel : Nat) → Plan → Plan
  | 0, p => p
  | f + 1, p =>
    let a := tget 0 p.allow k
    let cost : Int := Config.bankPower k (a + 1)
    if a < goal ∧ cost ≤ p.budget then
      raiseAllow k goal f { p with budget := p.budget - cost, allow := tset 0 k (a + 1) p.allow }
    else p

/-- cclk steps of a row, up to step 0, while the budget lasts. -/
def raiseRow (r : Nat) : (fuel : Nat) → Plan → Plan
  | 0, p => p
  | f + 1, p =>
    let n := planRow p r
    let cost : Int := (Config.rowPower r (n - 1) : Int) - Config.rowPower r n
    if 0 < n ∧ cost ≤ p.budget then raiseRow r f { p with budget := p.budget - cost, row := tset 6 r (n - 1) p.row }
    else p

/-- The budget of R472. -/
def startBudget (s : State) (cap : Nat) : Int :=
  (cap * 384 / 100 : Nat) - (domPower s 0 + domPower s 1 + ((List.range 12).map (fun k => domPower s (2 + k))).sum : Nat)

/-- Every stack with work gets allow 1, every row with work the floor cclk. -/
def basePlan (s : State) (cap : Nat) : Plan :=
  let p : Plan := { budget := startBudget s cap }
  let p := (List.range 12).foldl (fun (p : Plan) k =>
    if (stackJobs s k).isEmpty then p
    else { p with budget := p.budget - Config.bankPower k 1, allow := tset 0 k 1 p.allow }) p
  (List.range 12).foldl (fun (p : Plan) r =>
    if rowWork s r then { p with budget := p.budget - Config.rowPower r 6 } else p) p

def deadlineStacks (s : State) : List Nat :=
  sortBy (stackDeadline s) ((List.range 12).filter (fun k => stackDeadline s k != 0))

/-- Deadline stacks first, then the roles in their order. -/
def raisePlan (s : State) (p : Plan) : Plan :=
  let p := (deadlineStacks s).foldl (fun p k => raiseAllow k (usableAllow s k) 16 p) p
  (roleOrder s).foldl (fun p role =>
    let p := ((List.range 12).filter (fun r => rowRole s r == role && rowWork s r)).foldl (fun p r => raiseRow r 6 p) p
    ((List.range 12).filter (fun k => stackRole s k == role && !(stackJobs s k).isEmpty)).foldl
      (fun p k => raiseAllow k (usableAllow s k) 16 p) p) p

/-! ### The throttling order (R474) -/

/-- A unit of throttling: its order, the domain's number, and how many units of it there are. -/
def throttleUnits (s : State) (p : Plan) : List (Nat × Nat × Nat) :=
  let high := fun (f : Nat → Nat) (l : List Nat) => (sortBy f l.reverse).reverse
  let units := List.range 12
  let millPower := fun m => ((List.range 3).map (fun i => domPower s (26 + 3 * m + i))).sum
  (high (fun k => rankEpt s (stackRole s k)) (units.filter (fun k => stackDeadline s k == 0))
      ++ (deadlineStacks s).reverse).map (fun k => (1, k, tget 0 p.allow k - 1))
    ++ (high (fun r => domPower s (26 + r)) units).map (fun r => (2, r, 1))
    ++ (high millPower [0, 1, 2, 3]).map (fun m =>
      (3, m, 6 - ((List.range 3).map (fun i => planRow p (3 * m + i))).foldl min 6))
    ++ (high (fun k => domPower s (14 + k)) units).map (fun k => (4, k, 3))
    ++ (high (fun k => domPower s (2 + k)) units).map (fun k => (5, k, 1))

/-- One unit of an order on a domain. -/
def throttleUnit (order d n : Nat) (p : Plan) : Plan :=
  let p := { p with throttled := true }
  match order with
  | 1 => { p with budget := p.budget + Config.bankPower d (tget 0 p.allow d)
                  allow := tset 0 d (tget 0 p.allow d - 1) p.allow }
  | 2 => { p with budget := p.budget + Config.throttleSaves 2 d n, issue := p.issue ++ [d] }
  | 3 =>
    let fast := ((List.range 3).map (fun i => planRow p (3 * d + i))).foldl min 6
    { p with budget := p.budget + Config.throttleSaves 3 d n
             row := (List.range 3).foldl (fun t i => tset 6 (3 * d + i) (max (fast + 1) (planRow p (3 * d + i))) t) p.row }
  | 4 => { p with budget := p.budget + Config.throttleSaves 4 d n, qclk := tset 0 d (tget 0 p.qclk d + 1) p.qclk }
  | _ => { p with budget := p.budget + Config.throttleSaves 5 d n, far := p.far ++ [d] }

/-- R474: units in order, each domain down to its limit, while the budget is short. -/
def throttlePlan (s : State) (p : Plan) : Plan :=
  (throttleUnits s p).foldl (fun p u =>
    (List.range u.2.2).foldl (fun (p : Plan) n => if p.budget < 0 then throttleUnit u.1 u.2.1 n p else p) p) p

/-! ### Taking effect, with the thermal actions above it (R472, R478, R480) -/

/-- A stack's allowance and qclk step after `n` DRAM throttle steps. -/
def dramThrottle : (n a q : Nat) → Nat × Nat
  | 0, a, q => (a, q)
  | n + 1, a, q => if 1 < a then dramThrottle n (max 1 (a - 2)) q else dramThrottle n a (min 3 (q + 1))

/-- DRAM throttle steps that still change something: 2 of ALLOW each, down to 1, and then one of qclk each. -/
def dramSteps (a q : Nat) : Nat := (if 1 < a then a / 2 else 0) + (3 - q)

/-- R480: a unit keeps no more throttle steps in force than its last step allows. -/
def clampThermal (s : State) (key most : Nat) : State :=
  { s with power := { s.power with thermal := tset 0 key (min most (tget 0 s.power.thermal key)) s.power.thermal } }

def applyStackPlan (s : State) (p : Plan) (k : Nat) : State :=
  let s := clampThermal s k (dramSteps (tget 0 p.allow k) (tget 0 p.qclk k))
  let x := dramThrottle (tget 0 s.power.thermal k) (tget 0 p.allow k) (tget 0 p.qclk k)
  let hot := (stackAt s k).overMax
  let s := setAllow s k (if hot then 0 else x.1)
  let s := setQclk s k x.2
  let s := setFarCut s k (if hot then 75 else if p.far.contains k then 50 else 0)
  let s := setDomAllow s (2 + k) (domPower s (2 + k))
  setDomAllow s (14 + k) ((List.range (tget 0 p.allow k)).map (fun i => Config.bankPower k (i + 1))).sum

def applyMillPlan (s : State) (p : Plan) (m : Nat) : State :=
  let step := ((List.range 3).map (fun i => planRow p (3 * m + i))).foldl min 6
  let s := clampThermal s (12 + m) (6 - step)
  let step := step + tget 0 s.power.thermal (12 + m)
  let s := setCclk s m (if validCount s (96 + 24 * m) 24 < 12 then max 5 step else step)
  (List.range 3).foldl (fun s i =>
    let r := 3 * m + i
    setDomAllow (setIssueCut s r (if p.issue.contains r then 50 else 0)) (26 + r)
      (if rowWork s r then Config.rowPower r (planRow p r) else 0)) s

def applyPlan (s : State) (p : Plan) : State :=
  let s := setDomAllow { s with power := { s.power with hubCut := 0 } } 0 65535
  let s := setDomAllow s 1 (domPower s 1)
  let s := (List.range 12).foldl (fun s k => applyStackPlan s p k) s
  let s := (List.range 4).foldl (fun s m => applyMillPlan s p m) s
  setCclk s 4 (min 6 (tget 0 s.power.thermal 16))

/-- R473: PWR_EPT reports each role's value. -/
def reportEpt (s : State) : State :=
  let s : State := { s with power := { s.power with
    energyLog := recentOnly s s.power.energyLog, tokenLog := recentOnly s s.power.tokenLog } }
  [0, 1, 2].foldl (fun s r => regSet s (oPwrEpt r) (w32 (min ((roleEpt s r).getD 0) (2 ^ 32 - 1)))) s

/-- R468: the cap that a period takes up. -/
def takeCap (s : State) : State := { s with power := { s.power with cap := regFld s oPwrCap 8 0 } }

/-- What a period of the Governor does. -/
def runGovernor (s : State) : State :=
  let s := takeCap s
  let cap := s.power.cap
  let s := clampThermal { s with power := { s.power with floor := false } } 17 ((cap - 150 + 24) / 25)
  let s := reportEpt s
  let p := throttlePlan s (raisePlan s (basePlan s (boardCap s cap)))
  let s : State := { s with power := { s.power with throttled := p.throttled } }
  applyPlan (countIf s p.throttled oThrottleCnt) p

/-- GOVERNOR_PERIOD (R472): control core 1 runs it, once the module is READY; in STANDBY and BRAKING nothing is allotted,
and fewer than 8 valid hub sensors hold the floor (R478). -/
def governorPeriod (s : State) : State :=
  if s.phase ≠ 5 ∨ (ctlAt s 1).st ≠ 0 then s
  else match s.power.st with
    | .active => if validCount s 192 16 < 8 then applyFloor (takeCap s) else runGovernor s
    | .idle => if validCount s 192 16 < 8 then applyFloor (takeCap s) else runGovernor s
    | _ => s

end Sys2Proof.Machine
end

