-- ==== Sys2Proof/Machine/Identity.lean ====
section
/-! DEFINITION. The module's slot and messages to its partner (R399, R403, R404), the boot measurements and keys (R430,
R431), and the change of the debug level (R439). -/

namespace Sys2Proof.Machine

open Sys2Proof

/-! ### The module in its pair -/

def pairEn (s : State) : Bool := bitOf (effGet s oTwnCfg) 3

def gradeCode (s : State) : Nat := match s.fuses.grade with | .full => 0 | .select => 1

/-- R401: pairing starts from its first exchange. -/
def startPairing (s : State) : State :=
  let s : State := { s with twin := { s.twin with
    st := .pairing, peerInfo := false, attested := none, peerAttested := none, secOk := none, peerSolo := false
    peerTables := [], peerListed := false
    keys := none, ecdhe := none, keyMsgs := 0, cause := 0, peerTook := false
    prev := if s.twin.st = .pairing then s.twin.prev else s.twin.st } }
  sendMsg s 2 0 [0, mySlot s, gradeCode s, s.flash.pairEpoch, b2n (pairEn s)] []

/-- R439: the Wilril session has ended, so a pair pairs again; a module without a partner does not. -/
def rePair (s : State) : State :=
  let s : State := { s with twin := { s.twin with keys := none } }
  match s.twin.st with
  | .paired => again s
  | .pairing => again s
  | .syncSrc => again s
  | .syncDst => again s
  | _ => s
where
  again (s : State) : State := startPairing (sendMsg s 2 0 [3] [])

/-! ### Measurements and keys (R430, R431) -/

def secCode : SecState → Nat
  | .provisioning => 0 | .deployed => 1 | .decommissioned => 2

def dbgCode : DebugLevel → Nat
  | .locked => 0 | .customer => 1 | .vendor => 2

def nBytes (n v : Nat) : List Byte := leBytes n v

/-- The hash of the owner public keys; of nothing when no owner is installed. -/
def ownerHash (s : State) : BitVec 384 :=
  Config.sha384 (match s.flash.owner with | some o => o.ed ++ o.ml | none => [])

def imageHash (s : State) : BitVec 384 := Config.sha384 s.flash.image.bytes

/-- R429: a 384-bit secret derived from a 384-bit one. -/
def derive (secret : BitVec 384) (info : List Byte) : BitVec 384 := Config.hkdf (nBytes 48 secret.toNat) info

def cdi0 : BitVec 384 := Config.hkdf (nBytes 32 Config.uds.toNat) (nBytes 48 Config.romHash.toNat)

/-- The seeds of the DeviceID keys, Ed25519 and ML-DSA-65 (R430). -/
def deviceKey : BitVec 384 := derive cdi0 [1]
def devicePqKey : BitVec 384 := derive cdi0 [4]

/-- The SHA-384 of the DeviceID Ed25519 public key (R436, R438, R441). -/
def deviceHash : BitVec 384 := Config.sha384 (Config.edPublic deviceKey)

/-- R431: CDI_1, from the measured image, the security state, the debug level and the owner. -/
def deriveCdi1 (s : State) : BitVec 384 :=
  derive cdi0 (nBytes 48 (tget 0 s.sec.meas 2).toNat ++ nBytes 1 (secCode s.otp.state)
    ++ nBytes 1 (dbgCode s.sec.debug) ++ nBytes 48 (ownerHash s).toNat)

/-- The seeds of the Alias keys (R430). -/
def aliasKey (s : State) : BitVec 384 := derive s.sec.cdi1 [2]
def aliasPqKey (s : State) : BitVec 384 := derive s.sec.cdi1 [3]

/-- R433, R434: the two chains of certificate slot 0, down to the Alias certificates of now. -/
def certChain (s : State) : List Byte :=
  Config.certChain ++ Config.aliasCert deviceKey (Config.edPublic (aliasKey s))
def pqChain (s : State) : List Byte :=
  Config.pqChain ++ Config.aliasPqCert devicePqKey (Config.mlPublic (aliasPqKey s))

/-- R453, R458: SEC_POLICY. -/
def policyWord (s : State) : Nat := b2n s.flash.ideReq

/-- R431: the measurement of an SPDM index. -/
def measAt (s : State) (i : Nat) : Option (BitVec 384) :=
  if i = 1 then some Config.romHash
  else if i = 2 then (if thas s.sec.meas 2 then some (tget 0 s.sec.meas 2) else none)
  else if i = 3 then some (Config.tablesHash s.flash.maps s.flash.badBands s.flash.neighbours)
  else if i = 4 then some (Config.sha384 (nBytes 1 (secCode s.otp.state) ++ nBytes 1 (dbgCode s.sec.debug)
    ++ nBytes 4 (policyWord s) ++ nBytes 1 s.otp.svn))
  else if 16 ≤ i ∧ i < 20 then (pkgAt s (i - 16)).meas
  else none

/-- R430: the Alias keys are derived again. -/
def deriveAlias (s : State) : State :=
  { s with sec := { s.sec with cdi1 := deriveCdi1 s, aliasGen := s.sec.aliasGen + 1 } }

/-- R439: a change of the debug level: new Alias keys, every SPDM session ended, the pair pairs again. -/
def changeDebug (s : State) (l : DebugLevel) : State :=
  if s.sec.debug = l then s
  else
    let s := event s 5 9 3 (dbgCode l) 0
    let s := deriveAlias { s with sec := { s.sec with debug := l } }
    let s : State := { s with sec := { s.sec with
      host := { s.sec.host with sessions := [], secrets := [] }, mgmt := { s.sec.mgmt with sessions := [], secrets := [] }
      wilril := { s.sec.wilril with sessions := [], secrets := [] } } }
    rePair s

end Sys2Proof.Machine
end

