-- ==== Sys2Proof/Machine/Link.lean ====
section
/-! DEFINITION. The host link (R335–R337, R353–R361): training, link loss with the warm self-reset, and what a host reset
shares with it (R358, R490). -/

namespace Sys2Proof.Machine

open Sys2Proof

def setLink (s : State) (st : LinkSt) : State := { s with link := { s.link with st := st } }

/-! ### Work ended without completion (R358 steps 1 and 2) -/

/-- R358: each ring with work in flight logs the job tag of its oldest descriptor. -/
def logEnded (s : State) (sub : Nat) : State :=
  ((s.admitted.map (·.ring)).eraseDups).foldl (fun s n =>
    match s.admitted.find? (fun a => a.ring == n) with
    | some a => event s 0 6 4 sub n 0 a.jobtag
    | none => s) s

/-- A package source on the host no longer answers (R443), in step 2 or in step 6. -/
def loseSource (s : State) : State :=
  match s.sec.work with
  | some w =>
    if w.loading && w.fromHost then { s with sec := { s.sec with work := some { w with failErr := 8 } } }
    else s
  | none => s

/-- R359: a core whose load had not written it keeps its program, if it holds one. -/
def loadedBefore (c : Core) : CoreSt := if c.ntask = 0 then .empty else .loaded

/-- R358 steps 1 and 2. Everything that would have had a record is forgotten. -/
def endHostWork (s : State) (sub : Nat) : State :=
  let s := logEnded (discardHeld s) sub
  let s : State := { s with
    admitted := [], sluices := [], coreOps := []
    rings := s.rings.map (fun (p : Nat × Ring) => (p.1, { p.2 with queue := [], fence := none, notVisible := none }))
    cores := s.cores.map (fun (p : Nat × Core) => (p.1, if p.2.st = .loading then { p.2 with st := loadedBefore p.2 } else p.2))
    jobs := s.jobs.filter (fun j => j.left ≠ j.mask || !j.outcomes.isEmpty)
    dmas := s.dmas.map (fun (p : Nat × DmaCh) => (p.1, { p.2 with pending := [] })) }
  abortAllDma false (stopAllCores (dropReads (loseSource s) (fun _ => false)))

/-! ### Host-facing state (R358 step 4) -/

/-- R492: a register that a host reset returns to its reset value; counters of every class stay. -/
def hostFacing (o : Nat) : Bool :=
  (decide (0x700000 ≤ o) && decide (o < 0x800000) && !(regDef o).cnt.isSome) || o == oIdeCtl || o == oIdeStatus

/-- The window, the directory, the host-line cache, the configuration space, the rings, the interrupts and the IDE
registers return to their reset values. -/
def resetHostFacing (s : State) : State :=
  { s with
    window := [], rings := [], msix := [], admitted := []
    regs := s.regs.filter (fun p => !hostFacing p.1)
    link := { s.link with window := [], hostLines := [], config := [], ideLink := 0, ideSel := 0, cxlIde := 0, ideKeys := [] } }

/-- What has not ended by then ends. -/
def endAllWork (s : State) : State :=
  let s := endJobs s
  endLaunches { abortAllDma true s with jobs := [], groups := [], stops := [] }

/-! ### Link loss (R357) -/

/-- LINK_LOSS (R357): steps 1 and 2 of R358 run, and step 3 begins; the IDE keys are lost (R430). -/
def linkLoss (s : State) (cause : Nat) : State :=
  let s := regSetBit (count s oLossCnt) oLnkStatus 17
  let s := event s 2 7 1 cause 0
  let s : State := { s with link := { s.link with ideKeys := [] } }
  let s := endHostWork (setLink s .warmEntry) 0
  (List.finRange 12).foldl (askSelfRefresh false) s

def linkUsable (s : State) : Bool := match s.link.st with | .up => true | .recovery => true | _ => false

/-- LINK_DOWN (R357). -/
def linkDown (s : State) : State := if linkUsable s then linkLoss s 1 else s

/-- RECOVERY_TIMEOUT (R357). -/
def recoveryTimeout (s : State) : State := if s.link.st = .recovery then linkLoss s 2 else s

/-- RECOVERY_ENTERED (R361). -/
def recoveryEntered (s : State) : State := if s.link.st = .up then setLink (count s oRecovCnt) .recovery else s

/-- RECOVERY_EXIT (R361, R395). -/
def recoveryExit (s : State) : State := if s.link.st = .recovery then hostFlush (setLink s .up) else s

/-- WARM_SELF_RESET_COMPLETE (R358 steps 3 to 5, R360). -/
def warmSelfResetComplete (s : State) : State :=
  if s.link.st ≠ .warmEntry then s
  else
    let s := (List.finRange 12).foldl (askSelfRefresh false) (endAllWork s)
    let s := resetHostFacing s
    let s : State := { s with lastReset := 4, link := { s.link with
      st := .warm, mode := .pcie, rate := 0, width := 0, fromWarm := false } }
    if s.power.st = .active then setPowerSt s .idle else s

/-! ### Training (R335–R337, R361) -/

/-- RECEIVER_DETECTED (R361, R511): the port trains from phase 1 on. A configuration-only condition ends (R336). -/
def receiverDetected (refclk : Bool) (s : State) : State :=
  if s.phase = 0 ∨ s.resetHeld ∨ s.power.st = .off then s
  else
    let train := fun (warm : Bool) =>
      ({ s with pins := { s.pins with refclk := refclk }
                link := { s.link with st := .training, fromWarm := warm, cfgOnly := false } } : State)
    match s.link.st with
    | .down => train false
    | .warm => train true
    | _ => s

/-- R337: the mode of a training. -/
def trainMode (s : State) (rate : Nat) (cxl : Bool) : LinkMode :=
  if !(cxl && regBit s oLnkCtl 0) then .pcie
  else if rate = 3 ∨ rate = 4 then .cxl3
  else if rate = 2 then .cxl2 else .pcie

/-- L0_REACHED (R335–R337, R360): rate and width in the codes of LNK_STATUS (R362). -/
def l0Reached (rate width : Nat) (cxlAccepted : Bool) (s : State) : State :=
  if s.link.st ≠ .training ∨ rate = 0 ∨ 5 < rate ∨ width = 0 ∨ 4 < width
      ∨ (rate ≠ 5 ∧ regFld s oLnkCtl 10 8 < rate) then s
  else
    let only := decide (rate = 5 ∨ width = 4)
    let warm := s.link.fromWarm
    let s : State := { s with link := { s.link with
      st := .up, rate := rate, width := width, cfgOnly := only, fromWarm := false
      mode := trainMode s rate cxlAccepted } }
    let s := if warm && (decide (s.power.st ≠ .standby) || s.power.exiting) then (List.range 12).foldl exitSelfRefresh s else s
    hostFlush s

/-- TRAINING_ABORTED (R357, R361): no link loss. -/
def trainingAborted (s : State) : State :=
  if s.link.st = .training then setLink s (if s.link.fromWarm then .warm else .down) else s

/-! ### IDE (R353, R355) -/

/-- R430: a stream's IDE key changes, or is lost with the stream's security. -/
def setIdeKey (s : State) (k : Nat) (key : Option (BitVec 256)) : State :=
  { s with link := { s.link with ideKeys := match key with
      | some v => tins k v (tdel k s.link.ideKeys)
      | none => tdel k s.link.ideKeys } }

/-- IDE_KM (R353, R362). -/
def ideKm (change : IdeChange) (s : State) : State :=
  if s.link.st ≠ .up then s
  else match change with
    | .link secure key =>
      let s := setIdeKey s 0 (if secure then some key else none)
      hostFlush { s with link := { s.link with ideLink := if secure then 1 else 2 } }
    | .selective k secure key =>
      let s := setIdeKey s (1 + k.val) (if secure then some key else none)
      hostFlush { s with link := { s.link with ideSel := setFld s.link.ideSel k.val k.val (b2n secure) } }
    | .cxl mode key =>
      if s.link.mode = .pcie then s
      else
        let s := setIdeKey s 5 (if mode.val = 0 then none else some key)
        { s with link := { s.link with cxlIde := mode.val } }

/-- IDE_INTEGRITY_FAILURE (R355): on the link stream or CXL IDE it is a link loss; a selective stream goes Insecure. -/
def ideIntegrityFailure (selective : Option (Fin 4)) (s : State) : State :=
  if !linkUsable s then s
  else match selective with
    | none =>
      if s.link.ideLink ≠ 1 ∧ s.link.cxlIde = 0 then s
      else
        let s := event (count s oIdeFailCnt) 5 7 2 0 0
        linkLoss { s with link := { s.link with ideLink := if s.link.ideLink = 1 then 2 else s.link.ideLink } } 3
    | some k =>
      if !bitOf s.link.ideSel k.val then s
      else
        let s := event (count s oIdeFailCnt) 5 7 2 (k.val + 1) 0
        let s := regSetBit s oIdeStatus (8 + k.val)
        let s := setIdeKey s (1 + k.val) none
        { s with link := { s.link with ideSel := setFld s.link.ideSel k.val k.val 0 } }

/-! ### Configuration space and descriptor lines (R336, R342) -/

/-- R336, R493: configuration requests are answered while the link is UP, configuration-only or not. -/
def configRequest (reg : Nat) (write : Option (BitVec 32)) (s : State) : State :=
  if s.link.st ≠ .up then s
  else
    let d := reg / 4
    match write with
    | some v => { s with link := { s.link with config := tins d v (tdel d s.link.config) } }
    | none =>
      let last := (s.link.config.find? (fun p => p.1 == d)).map (·.2)
      emit s (.config (Config.configWord d last))

/-- HOST_LINE_SNOOP (R342). -/
def hostLineSnoop (line : Nat) (s : State) : State :=
  { s with link := { s.link with hostLines := s.link.hostLines.filter (fun p => p.1 != line) } }

/-! ### Host reset (R490) -/

/-- HOST_RESET (R490, R492): the debug level returns to LOCKED; no stack enters self-refresh. -/
def hostReset (s : State) (flr : Bool) : State :=
  let s := event s 0 7 3 (b2n flr) 0
  let s := endAllWork (endHostWork s 1)
  let s := changeDebug (resetHostFacing s) .locked
  let s : State := { s with lastReset := 3 }
  if flr then s
  else { s with link := { s.link with
    st := .down, mode := .pcie, rate := 0, width := 0, fromWarm := false } }

/-- HOT_RESET (R490). -/
def hotReset (s : State) : State := if linkUsable s then hostReset s false else s

/-- FUNCTION_LEVEL_RESET (R490): the link stays UP. -/
def functionLevelReset (s : State) : State := if s.link.st = .up then hostReset s true else s

end Sys2Proof.Machine
end

