-- ==== Sys2Proof/Machine/Reset.lean ====
section
/-! DEFINITION. Power-up and its sequence (R460, R461), resets and initialisation (R488–R493, R509–R513), the boot ROM and
recovery (R432, R457), the Brake's end (R483), and the control cores (R38–R42). -/

namespace Sys2Proof.Machine

open Sys2Proof

/-! ### Power-up (R460, R461) -/

/-- A power-on reset: everything at its reset value, but for fuses, flash, straps and levels at the pins (R492). -/
def powerOn (s : State) (vin : Nat) : State :=
  { pending := s.pending, free := s.free, fuses := s.fuses, otp := s.otp, flash := s.flash, outbox := s.outbox
    pins := { s.pins with pairAliveOut := false, faultHeld := false, clkreq := true }
    regs := tset 0 oThmTrip (tget 0 s.regs oThmTrip) []
    power := { vin := vin } }

def vinGood (vin : Nat) : Bool := decide (4000 ≤ vin) && decide (vin ≤ 6000)

/-- POWER_UP (R460, R461, R514): the input is applied and has entered 40–60 V. -/
def powerUp (vin : Nat) (s : State) : State :=
  if s.power.st = .off ∧ !s.power.inputPresent ∧ vinGood vin then powerOn s vin
  else if s.power.inputPresent then setVin s vin else s

/-- MGMT_POWER_ON (R461): in OFF, with the input present; P12 and VAON are up already (R459). -/
def mgmtPowerOn (s : State) : State :=
  if s.power.st = .off ∧ s.power.inputPresent then setRails (powerOn s s.power.vin) [0, 1] .on else s

/-- R510: the straps are sampled. -/
def samplePins (s : State) : State :=
  { s with pins := { s.pins with posSample := s.pins.pairPos, maddrSample := s.pins.maddr } }

/-- R460: the rails that a step brings up. -/
def stepRails (n : Nat) : List Nat :=
  match n with
  | 2 => [0] | 3 => [1] | 4 => [12, 13, 11] | 5 => [2, 3] | 6 => [4, 5, 6, 7, 8, 9, 10] | _ => []

/-- POWER_SEQUENCE_STEP (R460, R510, R513): the step under way is complete. Step 6 is firmware's, in phase CONFIG; with it
the stacks leave OFF for LOADING (R79). From the reset of the hub die on, its limiters hold the floor (R470). -/
def powerSequenceStep (s : State) : State :=
  let n := s.power.seqStep
  if s.power.st = .off ∨ n = 0 ∨ 6 < n ∨ (n = 1 ∧ !vinGood s.power.vin) ∨ (n = 6 ∧ s.phase ≠ 2) then s
  else
    let s := setRails s (stepRails n) .on
    let s : State := { s with power := { s.power with seqStep := n + 1 } }
    let s := if n = 3 then pairAlive (samplePins { s with resetHeld := !s.pins.resetN }) false else s
    let s := if n = 5 then applyFloor s else s
    if n = 6 then
      (List.range 12).foldl (fun s k => modStack s k (fun x => if x.st = .off then { x with st := .loading } else x)) s
    else s

/-! ### Module reset (R491, R492) -/

/-- What a module reset leaves of the sensors: the controllers run on, and voted-out sensors are tested again. -/
def retestSensor (x : Sensor) : Sensor :=
  { x with votedOut := false, dead := false, disagree := 0, unread := 0 }

/-- R36: the entries that the crossings hold for a clock that has stopped, and those of the streams, by row of R34's table:
requests for a stack that is not READY, per channel, beats for the querns, and tailrace units. -/
def stackEntries (s : State) (k c : Nat) : List (Nat × Nat) :=
  let outer := fun (r : FarReq) => match r.seq with | none => true | some (.access _ _) => true | _ => false
  let reqs := (stackAt s k).reqs.filter (fun r => r.loc.chan == c && decide (r.port ≤ 2) && outer r)
  let beats := match (chanAt s k c).mill with
    | some m => ((m.parts.map (fun p => p.2.1.length)).sum + 63) / 64
    | none => 0
  [(3, if (stackAt s k).st = .ready then 0 else reqs.length), (4, beats), (5, unitsWaiting s k c)]

/-- R34, R36: the operations of mill die m's cores that the hub–mill queue holds while that die's clock is held. -/
def millEntries (s : State) (m : Fin 4) : Nat :=
  if clockHeld s (.mill m) then min 32 (s.coreOps.filter (fun op => (opCores op).any (fun n => n / 300 == m.val))).length else 0

/-- R36: what a module reset discards: (row, entries) for each queue. Row 6 is the mailbox, which holds a GO that control core 3
has not taken. -/
def crossingEntries (s : State) : List (Nat × Nat) :=
  [(0, min 64 (s.link.held.map heldEntries).sum), (1, min 64 s.twin.sendq.length), (6, b2n s.sec.fwHeld)]
    ++ (List.finRange 4).map (fun m => (2, millEntries s m))
    ++ (List.range 12).flatMap (fun k => (List.range 32).flatMap (fun c => stackEntries s k c))

/-- What a module reset leaves (R491, R492): P12, VAON and VHUB stay up; the other rails come back in the order of R460, and
initialisation runs from phase BOOT under the floor (R470). Where VHUB is not up yet (step 5), the power-up goes on with
step 4, and phase BOOT follows it. -/
def afterReset (s : State) (code : Nat) (held : Bool) : State :=
  let up := decide (s.phase ≠ 0 ∨ 6 ≤ s.power.seqStep)
  applyFloor (samplePins {
    pending := s.pending, time := s.time, free := s.free, fuses := s.fuses, otp := s.otp, outbox := s.outbox
    flash := { s.flash with imageValid := s.flash.imageValid && s.sec.fwState != 2 }
    pins := { s.pins with pairAliveOut := false, faultHeld := false, clkreq := true }
    power := { inputPresent := s.power.inputPresent, vin := s.power.vin, seqStep := if up then 6 else 4
               rails := setRailsOn (if up then [0, 1, 2, 3, 11, 12, 13] else [0, 1]) }
    sensors := s.sensors.map (fun (p : Nat × Sensor) => (p.1, retestSensor p.2))
    regs := s.regs.filterMap (fun (p : Nat × W32) =>
      if p.1 = oThmCtl ∨ p.1 = oThmTrip ∨ p.1 = oLogLseq ∨ p.1 = oLogFirstValid then some p
      else if p.1 = oLogStatus ∧ bitOf p.2 15 then some (p.1, 0x8000) else none)
    log := { ring := s.log.ring, wptr := s.log.wptr, first := s.log.first }
    phase := if up then 1 else 0, lastReset := code, resetHeld := held })
where
  setRailsOn (l : List Nat) : Table RailSt := l.foldl (fun t k => tset .off k .on t) []

/-- MODULE_RESET (R491, R492), with the events of the entries that its crossings discard (R36). -/
def moduleReset (s : State) (code : Nat) (held : Bool) : State :=
  (crossingEntries s).foldl (fun s p => noteDiscard s p.1 p.2) (afterReset s code held)

/-- R513: a reset request: a Brake completes first, and before step 3 of R460 has sampled the level nothing happens. -/
def requestReset (s : State) (code : Nat) (held : Bool) : State :=
  if s.power.st = .off ∨ !s.power.inputPresent then s
  else if s.power.st = .braking then
    { s with lastReset := code, power := { s.power with resetAfterBrake := true } }
  else if s.phase = 0 ∧ s.power.seqStep ≤ 3 then s
  else moduleReset s code held

/-- RESET_N_ASSERTED (R491, R512, R513). -/
def resetNAsserted (s : State) : State :=
  requestReset { s with pins := { s.pins with resetN := false } } 1 true

/-- RESET_N_RELEASED (R491): a held module leaves the start of phase BOOT. -/
def resetNReleased (s : State) : State := { s with pins := { s.pins with resetN := true }, resetHeld := false }

/-- MGMT_MODULE_RESET (R491): answered busy while control core 3 restarts (R38). -/
def mgmtModuleReset (s : State) : State :=
  if (ctlAt s 3).st = 1 then emit s (.mgmtBusy (mgmtAddress s)) else requestReset s 2 (!s.pins.resetN)

/-! ### Boot and recovery (R432, R457) -/

/-- R432, R456: both signatures, and the security version. -/
def imageSigned (i : FwImage) : Bool :=
  Config.ed25519Verify Config.joranoEd i.bytes i.edSig && Config.mldsaVerify Config.joranoMl i.bytes i.mlSig

def imageCurrent (s : State) (i : FwImage) : Bool := decide (s.otp.svn ≤ Config.fwSvn i.bytes)

/-- BOOT_ROM (R431, R432). -/
def bootRom (s : State) : State :=
  if s.phase ≠ 1 ∨ s.resetHeld ∨ s.bootDone ∨ s.sec.recovering then s
  else
    let s : State := if s.otp.state = .decommissioned then
      { s with flash := { s.flash with owner := none } } else s
    let ok := s.flash.imageValid && imageSigned s.flash.image
    if ok && imageCurrent s s.flash.image then
      let s : State := { s with
        bootDone := true
        flash := { s.flash with imageSvn := Config.fwSvn s.flash.image.bytes % 128
                                pairEpoch := Config.fwEpoch s.flash.image.bytes % 65536 }
        sec := { s.sec with meas := tset 0 2 (imageHash s) s.sec.meas } }
      deriveAlias s
    else
      let s := if ok then s else event s 5 9 5 1 0
      { s with sec := { s.sec with recovering := true } }

/-- RECOVERY_PARTNER_TIMEOUT (R457): the mailboxes open. -/
def recoveryPartnerTimeout (s : State) : State :=
  if s.sec.recovering then { s with sec := { s.sec with mailbox := true } } else s

/-- R456, R457: an image is in flash, whole. -/
def flashImage (s : State) (i : FwImage) : State :=
  { s with flash := { s.flash with image := i, imageValid := true } }

/-- RECOVERY_IMAGE_ACCEPTED (R457): the first image that passes is written, and the module resets. -/
def recoveryImageAccepted (image : FwImage) (fromPartner : Bool) (s : State) : State :=
  if !s.sec.recovering ∨ (fromPartner ∧ s.sec.fwImage ≠ some image) ∨ (!fromPartner ∧ !s.sec.mailbox) then s
  else if !Config.fwFormatOk image.bytes then s
  else if !imageSigned image then event s 5 9 5 1 0
  else if !imageCurrent s image then s
  else
    let s := flashImage (moduleReset s s.lastReset (!s.pins.resetN)) image
    { s with sec := { s.sec with boot := if fromPartner then 1 else 2 } }

/-! ### Initialisation (R493) -/

/-- R53, R493 phase 4: the first COMMIT, with the staged values of the flash tables; values that CHECK rejects leave the
reset maps. -/
def firstCommit (s : State) : State :=
  let staged : State := s.flash.maps.foldl (fun s p => if rsOffsets.contains p.1 then regSet s p.1 p.2 else s) s
  match checkFails staged (regGet staged) with
  | [] => cfgDone (applyCommit staged { snapshot := rsOffsets.map (fun o => (o, regGet staged o)), did := none }) none 0 0
  | off :: _ => cfgDone (regSet s oCfgFail (w32 (off + put 1 31))) none 0x13 off

/-- R493 phase 5. -/
def becomeReady (s : State) : State :=
  let s := governorPeriod { firstCommit s with phase := 5 }
  event (if aliveDue s then pairAlive s true else s) 0 12 3 5 0

/-- INIT_PHASE_COMPLETE (R493): the phase's work is done. RESET_N held low holds the module at the start of phase BOOT
(R491, R513). -/
def initPhaseComplete (s : State) : State :=
  if s.power.st = .off ∨ (s.phase ≠ 0 ∧ s.resetHeld) then s
  else match s.phase with
    | 0 => if 6 ≤ s.power.seqStep then { s with phase := 1 } else s
    | 1 => if s.bootDone then applyFloor { s with phase := 2 } else s
    | 2 => if s.power.seqStep = 7 then { s with phase := 3 } else s
    | 3 =>
      if (List.range 12).all (fun k => match (stackAt s k).st with | .ready => true | .failed => true | _ => false) then
        { s with phase := 4 }
      else s
    | 4 => becomeReady s
    | _ => s

/-! ### The end of a Brake (R483) -/

/-- BRAKE_COMPLETE (R483 steps 3 to 5, R485), once no package load or unload runs (R443). The spec does not say what the brake
record in flash holds: its 64 bytes are free values (log 9). -/
def brakeComplete (s : State) : State :=
  match s.power.st, s.power.brake with
  | .braking, some b =>
    if s.sec.work.isSome then s else
    let s := if s.link.st = .up then s else forgetWork s
    let s := endJobs (endLaunches (abortAllDma true s))
    let s := (List.finRange 12).foldl (askSelfRefresh true) s
    let s := recordTrip s b.kind b.sensor (signed 8 b.temp)
    let trip := regGet s oThmTrip
    let r := drawBytes 64 s
    let s : State := { r.2 with flash := { r.2.flash with trip := some trip, brakeRecord := some r.1 } }
    let s := event s 4 10 3 b.kind b.sensor trip.toNat
    let s := pairAlive (enterStandby s) false
    let s : State := { s with power := { s.power with braked := true } }
    if s.power.resetAfterBrake then moduleReset s s.lastReset (!s.pins.resetN) else s
  | _, _ => s

/-! ### Control cores (R38–R42) -/

/-- R41: a control core has failed. -/
def ctlFailed (s : State) (n : Nat) : State :=
  let s := setCtl s n { ctlAt s n with st := 2 }
  let s := pairAlive (event s 4 12 2 0 n) false
  let s : State := if s.phase < 5 then { s with phase := 6 } else s
  if n = 1 then applyFloor s else s

/-- R390, R40: a COMMIT between its snapshot and its instant runs again after the restart. -/
def requeueCommit (s : State) : State :=
  match s.commit with
  | none => s
  | some c => { s with
      commit := none, frontStopped := decide (s.power.st = .braking)
      cfgQueue := { op := 2, expect := regGet s oCfgEpoch, did := c.did } :: s.cfgQueue }

/-- R42: RESTARTS is an error counter of eight bits. -/
def countRestart (s : State) (n : Nat) : State :=
  let c := ctlAt s n
  let s := setCtl s n { c with restarts := min 255 (c.restarts + 1) }
  if c.restarts = 254 then event s 2 12 5 0 0 (oCcStatus n) else s

/-- R39, R42: a control core restarts. -/
def ctlRestart (s : State) (n cause : Nat) : State :=
  let s := countRestart s n
  let s := setCtl s n { ctlAt s n with st := 1, lastCause := cause }
  let s := event s 2 12 1 cause n
  if n = 0 then requeueCommit s else if n = 1 then applyFloor s else s

/-- R493: the control cores run from phase BOOT on. -/
def ctlRuns (s : State) (n : Nat) : Bool := s.bootDone && (ctlAt s n).st == 0

/-- WATCHDOG_EXPIRY (R39, R41). -/
def watchdogExpiry (cc : Fin 4) (s : State) : State :=
  let n := cc.val
  if !ctlRuns s n then s
  else
    let again := match (ctlAt s n).lastExpiry with
      | some t => decide ((s.time - t).toNat ≤ 1000000000)
      | none => false
    let s := regSetBit s (oCcStatus n) 24
    let s := setCtl s n { ctlAt s n with lastExpiry := some s.time }
    if again then ctlFailed (setCtl s n { ctlAt s n with lastCause := 1 }) n else ctlRestart s n 1

/-- FIRMWARE_ASSERTION (R42). -/
def firmwareAssertion (cc : Fin 4) (s : State) : State := if ctlRuns s cc.val then ctlRestart s cc.val 2 else s

/-- CONTROL_CORE_FETCH_ERROR (R42). -/
def controlCoreFetchError (cc : Fin 4) (s : State) : State := if ctlRuns s cc.val then ctlRestart s cc.val 3 else s

/-- Cores that a load held and no longer does. -/
def dropLoading (s : State) (cs : List Nat) : State :=
  cs.foldl (fun s n => if (coreAt s n).st = .loading then modCore s n (fun c => { c with st := .empty }) else s) s

/-- R40: a LOAD whose cores are not all written is executed again: its image is read and verified anew. -/
def reloadOp (s : State) (op : CoreOp) : State :=
  match op with
  | .load did (some d) cs _ slot mask =>
    let n := ringOf s did
    let r := readImage s n d
    (match r.1 with
    | none => complete (dropLoading r.2 cs) did { status := 6 }
    | some b =>
      match verify { s := r.2, auth := none, srclen := lSrclen d } b with
      | some (code, index) => rejectImage (dropLoading r.2 cs) did code index (dJobtag d)
      | none => { r.2 with coreOps := r.2.coreOps ++ [.load did (some d) cs b slot mask] })
  | _ => { s with coreOps := s.coreOps ++ [op] }

/-- CONTROL_CORE_RESTART_DONE (R38–R40). -/
def controlCoreRestartDone (cc : Fin 4) (s : State) : State :=
  let n := cc.val
  if (ctlAt s n).st ≠ 1 then s
  else
    let s := setCtl s n { ctlAt s n with st := 0 }
    if n = 0 then
      let ops := s.coreOps
      runCfg (pumpOps (ops.foldl reloadOp { s with coreOps := [] }))
    else if n = 2 then takeHeld s
    else s

end Sys2Proof.Machine
end

