-- ==== Sys2Proof/Machine/Pairing.lean ====
section
/-! DEFINITION. Messages in (R403–R405), pairing (R399–R402), heartbeats and the judgement of the partner (R406–R408,
R420), and the takeover (R417). While control core 3 restarts its duties pause (R38). -/

namespace Sys2Proof.Machine

open Sys2Proof

/-- A pair state is entered; what it lets out goes out (R403). -/
def setPair (s : State) (p : PairSt) : State := pumpSend { s with twin := { s.twin with st := p } }

/-! ### Messages in (R405) -/

/-- A dropped message: logged, and the link retrains. -/
def dropMessage (s : State) (cls : Nat) : State :=
  let s := event s 2 8 2 (cls % 256) s.twin.peerSlot
  { s with twin := { s.twin with link := 1 } }

/-- R405: a message of a class is delivered when its tag is good and it is the next in sequence. It acknowledges what was
sent before it, in the classes that have no acknowledgement of their own (log 76). One whose work waits for a stream or a
stack (R62, R80), or for control core 3 (R38), stays in the crossing queue (R35); heartbeats are the hub hardware's. -/
def onMessage (s : State) (hdr : MsgHeader) (cls : Nat) (act : State → State) (waits : Bool := false) : State :=
  if s.twin.link ≠ 2 ∨ (cls ≠ 1 ∧ core3Waits s) then s
  else if !hdr.tagOk ∨ hdr.mseq ≠ tget 0 s.twin.rxSeq cls then dropMessage s cls
  else if waits then s
  else caused { s with twin := { s.twin with
    rxSeq := tset 0 cls (hdr.mseq + 1) s.twin.rxSeq, keyMsgs := s.twin.keyMsgs + 1
    sendq := s.twin.sendq.filter (fun m => !m.sent || msgAcked m.cls) } } hdr.jobtag 0xFFF act

/-- RESERVED_WILRIL_MESSAGE (R403): dropped and logged. -/
def reservedWilrilMessage (hdr : MsgHeader) (s : State) : State :=
  if s.twin.link = 2 ∧ (hdr.cls = 0 ∨ 8 ≤ hdr.cls) then event s 2 8 2 (hdr.cls % 256) s.twin.peerSlot else s

/-! ### The link (R401, R402, R405) -/

/-- R425: the time in SPLIT ends. -/
def countSplit (s : State) : State :=
  match s.twin.splitSince with
  | none => s
  | some t => countBy { s with twin := { s.twin with splitSince := none } } oOutage ((s.time - t).toNat / 1000)

/-- R429: a fresh secret for a key exchange. -/
def drawSecret (s : State) : BitVec 384 × State :=
  (Config.drbg s.free ++ (Config.drbg (s.free + 1)).setWidth 128, { s with free := s.free + 2 })

/-- R452: the keys of an exchange, one per direction, named by the position of its sender. -/
def exchangeKeys (s : State) (priv : BitVec 384) (share : List Byte) : PairKeys :=
  let key := fun (pos : Nat) => (Config.hkdf (Config.ecdheShared priv share) [0x10, BitVec.ofNat 8 pos]).setWidth 256
  { tx := key (myPos s), rx := key (1 - myPos s) }

/-- The pairing keys come into use. -/
def takeKeys (s : State) (k : Option PairKeys) : State :=
  { s with twin := { s.twin with keys := k, keySince := s.time, keyMsgs := 0 } }

/-- R457 step 1: a module in recovery shows its partner its identity and its part of a key exchange, and does not pair. -/
def wantRecovery (s : State) : State :=
  let d := drawSecret s
  let s : State := { d.2 with twin := { d.2.twin with ecdhe := some d.1 } }
  sendMsg s 2 0 [8, gradeCode s, secCode s.otp.state]
    (nBytes 48 (ownerHash s).toNat ++ Config.certChain ++ Config.pqChain ++ Config.ecdhePublic d.1)

/-- R457 step 1: this module's own image, under a fresh session, for a partner in recovery that it attests and that agrees
with it. -/
def giveImage (s : State) (ed ml : List Byte) (grade state : Nat) (owner : BitVec 384) (share : List Byte) : State :=
  if !s.sec.recovering && Config.chainOk ed && Config.chainOk ml && grade == gradeCode s && state == secCode s.otp.state
      && owner == ownerHash s then
    let d := drawSecret s
    let s := sendMsg (takeKeys d.2 (some (exchangeKeys d.2 d.1 share))) 2 0 [9] (Config.ecdhePublic d.1)
    sendParts s 7 0 [] (s.flash.image.bytes ++ s.flash.image.edSig ++ s.flash.image.mlSig)
  else s

/-- What control core 3 does of a link that has come UP: a module without a partner starts pairing, and so does one whose keys
are lost; after a retraining of partners the messages not acknowledged go out again. -/
def linkWork (s : State) (fresh : Bool) : State :=
  if s.sec.recovering then wantRecovery s
  else if !fresh ∧ (s.twin.st = .pairing ∨ (paired s ∧ s.twin.hasKeys)) then resendAll s
  else if paired s then (if s.twin.hasKeys then s else startPairing s)
  else startPairing (countSplit s)

/-- WILRIL_LINK_UP (R401, R402, R405); R38: what control core 3 does of it waits for that core. -/
def wilrilLinkUp (s : State) : State :=
  if s.power.st = .off ∨ s.phase = 0 ∨ s.twin.link = 2 then s
  else
    let fresh := s.twin.link == 0
    let s : State := { s with twin := { s.twin with link := 2, lastHb := s.time } }
    let s := if fresh then renewSendq s else s
    if core3Waits s then { s with twin := { s.twin with upHeld := some (fresh || s.twin.upHeld == some true) } }
    else linkWork s fresh

/-- CONTROL_CORE_RESTART_DONE (R38): control core 3 takes up what came while it restarted. -/
def pairResumes (s : State) : State :=
  match s.twin.upHeld with
  | none => s
  | some fresh =>
    let s : State := { s with twin := { s.twin with upHeld := none } }
    if s.twin.link = 2 then linkWork s fresh else s

/-- R430: the pairing keys are lost with the link. -/
def wilrilLost (s : State) : State := { s with twin := { s.twin with link := 0, keys := none } }

/-- WILRIL_LINK_DOWN (R407, R430). -/
def wilrilLinkDown (s : State) : State := if s.twin.link = 0 then s else wilrilLost s

/-- WILRIL_RETRAIN_TIMEOUT (R405). -/
def wilrilRetrainTimeout (s : State) : State := if s.twin.link = 1 then wilrilLost s else s

/-! ### Back-fill (R422, R423) -/

/-- The partner's table that is paired with a registered one: NBLOCK and LOG2_BLOCK agree (R413). -/
def peerTable (s : State) (tensor : Nat) (t : OTable) : Option PeerTable :=
  s.twin.peerTables.find? (fun p => p.tensor == tensor && p.nblock == t.nblock && p.log2 == t.log2)

/-- R422: a copy with entry `other` lacks a block that is held with entry `e`: it has a SLOT and another SEQ. -/
def lacksBlock (e other : W64) : Bool := eSlot other != noSlot && eSeq other != eSeq e

/-- It does not hold the block with that SEQ at all. -/
def missesBlock (e other : W64) : Bool := eSlot other == noSlot || eSeq other != eSeq e

/-- The blocks of every registered table, in order, with this module's entry and the partner's, if it has the table. -/
def blockPairs (s : State) : List (Nat × Nat × W64 × Option W64) :=
  s.twin.tables.flatMap (fun p =>
    match tableOf s p.1 with
    | some t => (entriesOf s t).zipIdx.map (fun x =>
        (p.1, x.2, x.1, (peerTable s p.1 t).bind (fun q => q.entries[x.2]?)))
    | none => [])

/-- R422: the blocks that this module holds current and the partner lacks; with `owned` only those that it owns. -/
def backlogOf (s : State) (owned : Bool) : List (Nat × Nat) :=
  (blockPairs s).filterMap (fun x =>
    match x.2.2.2 with
    | some q => if holdsCurrent (mySlot s) x.2.2.1 && lacksBlock x.2.2.1 q && (!owned || eOwner x.2.2.1 == mySlot s) then
        some (x.1, x.2.1) else none
    | none => none)

/-- The partner holds a block current that this module lacks. -/
def needsBlock (s : State) : Bool :=
  (blockPairs s).any (fun x => match x.2.2.2 with
    | some q => holdsCurrent s.twin.peerSlot q && lacksBlock q x.2.2.1
    | none => false)

/-- A module in SOLO holds a block current that the partner does not hold, whether or not it has a table for it yet
(R421). -/
def soloHolds (s : State) : Bool :=
  (blockPairs s).any (fun x => holdsCurrent (mySlot s) x.2.2.1 && missesBlock x.2.2.1 (x.2.2.2.getD (w64 (noSlot * 256))))

/-- The same of the partner. -/
def peerHolds (s : State) : Bool :=
  s.twin.peerTables.any (fun p => p.entries.zipIdx.any (fun x => holdsCurrent s.twin.peerSlot x.1
    && missesBlock x.1 ((blockOf s p.tensor x.2).elim (w64 (noSlot * 256)) (·.2))))

/-- R422: back-fill starts at its source. -/
def startBackfill (s : State) (owned : Bool := false) : State :=
  { touchTables s with twin := { (touchTables s).twin with backlog := backlogOf s owned } }

/-- R402: the entries of a sink's table take the owner and the state of the partner's. -/
def adoptTable (s : State) (tensor : Nat) : State :=
  match tableOf s tensor with
  | none => s
  | some t => match peerTable s tensor t with
    | none => s
    | some p => (List.range t.nblock).foldl (fun s n =>
        modEntry s t n (fun e => setEState (setOwner e (eOwner (p.entries.getD n 0))) (eState (p.entries.getD n 0))))
        (touchTable s tensor)

/-- R419, R422: a session record from the partner takes the place of this module's, with the higher count of tokens
(R409). -/
def takeSession (s : State) (r : PeerSession) : State :=
  if s.twin.sessions.any (fun x => x.sid == r.sid) then
    { s with twin := { s.twin with sessions := s.twin.sessions.map (fun x =>
      if x.sid == r.sid then
        { x with tensor := r.tensor, tokens := if x.tokens.toNat < r.tokens.toNat then r.tokens else x.tokens
                 ownedHere := !r.owned, replicated := true }
      else x) } }
  else if 4096 ≤ s.twin.sessions.length then s
  else { s with twin := { s.twin with sessions := s.twin.sessions ++
    [{ sid := r.sid, tensor := r.tensor, tokens := r.tokens, ownedHere := !r.owned, replicated := true }] } }

/-! ### Pairing (R400, R401, R437) -/

/-- An entry as the partner is told of it, with the package of its slot (R451). -/
def entryImage (s : State) (t : OTable) (e : W64) : List Byte :=
  let pkg := if eSlot e = noSlot then none else regionPkg s (slotDa t (eSlot e)) (blockSize t)
  leBytes 8 e.toNat ++ (match pkg with
    | some p => leBytes 4 1 ++ leBytes 4 p.1.toNat ++ leBytes 4 p.2.toNat
    | none => leBytes 12 0)

/-- A registered table as the partner is told of it. -/
def tableImage (s : State) (tensor : Nat) : List Byte :=
  match tableOf s tensor with
  | some t => leBytes 4 tensor ++ leBytes 4 t.nblock ++ leBytes 8 t.log2
      ++ (entriesOf s t).flatMap (entryImage s t)
  | none => []

/-- R401 step 4: the registered tables, and whether this module was in SOLO (R402). -/
def sendTables (s : State) : State :=
  let bytes := s.twin.tables.flatMap (fun p => tableImage s p.1)
  sendParts (touchTables s) 2 0 [2, b2n (decide (s.twin.prev = .solo)), bytes.length] bytes

/-- The partner has this module's list of tables, and is told when that changes (R401, R413). -/
def tellsTables (s : State) : Bool := paired s || (decide (s.twin.st = .pairing) && s.twin.attested.isSome)

def retellTables (s : State) : State := if tellsTables s then sendTables s else s

/-- A list of tables goes on: what is cut off of a table's entries in one message comes with the next. -/
def joinTables (l : List PeerTable) : List PeerTable → List PeerTable
  | [] => l
  | p :: rest =>
    joinTables (if l.any (fun q => q.tensor == p.tensor) then
        l.map (fun q => if q.tensor = p.tensor then { q with entries := q.entries ++ p.entries, pkgs := q.pkgs ++ p.pkgs } else q)
      else l ++ [p]) rest

/-- R422: a session record as the source sends it. -/
def sessionRec (x : Session) : List Byte :=
  leBytes 4 x.sid.toNat ++ leBytes 4 x.tensor ++ leBytes 4 x.tokens.toNat ++ leBytes 4 (b2n x.ownedHere)

/-- R422: every session record is copied to the partner. -/
def copySessions (s : State) : State :=
  if s.twin.sessions.isEmpty then s else sendParts s 2 0 [7] (s.twin.sessions.flatMap sessionRec)

/-- R437: the two SECURITY conditions. -/
def securityAgrees (s : State) (state : Nat) (owner : BitVec 384) (vendor : Bool) : Bool :=
  state == secCode s.otp.state && decide (state ≤ 1) && owner == ownerHash s && !vendor
    && decide (s.sec.debug ≠ .vendor)

/-- What an attestation says, as both of its signatures cover it (R434, R437). -/
def attestBytes (m : BitVec 384) (state : Nat) (owner : BitVec 384) (vendor : Bool) (share : List Byte) : List Byte :=
  nBytes 48 m.toNat ++ nBytes 1 state ++ nBytes 48 owner.toNat ++ nBytes 1 (b2n vendor) ++ share

/-- R401 step 3: this module's attestation, with its part of the key exchange (R452). -/
def sendAttest (s : State) : State :=
  let d := drawSecret s
  let s : State := { d.2 with twin := { d.2.twin with ecdhe := some d.1 } }
  let share := Config.ecdhePublic d.1
  let m := tget 0 s.sec.meas 2
  let vendor := decide (s.sec.debug = .vendor)
  let body := attestBytes m (secCode s.otp.state) (ownerHash s) vendor share
  sendMsg s 2 0 [1, secCode s.otp.state, b2n vendor]
    (nBytes 48 m.toNat ++ nBytes 48 (ownerHash s).toNat ++ certChain s ++ pqChain s ++ share
      ++ Config.ed25519Sign (aliasKey s) body ++ Config.mldsaSign (aliasPqKey s) body)

/-- R434, R437: the partner's chains lead to a Jorano root, its firmware is Jorano's, and both signatures verify. -/
def attested (ed ml : List Byte) (m : BitVec 384) (body edSig mlSig : List Byte) : Bool :=
  Config.chainOk ed && Config.chainOk ml && Config.joranoMeasurement m
    && Config.ed25519Verify (Config.chainKey ed) body edSig && Config.mldsaVerify (Config.chainKey ml) body mlSig

/-- CONTROL (R401, R403, R408, R439). -/
def controlBody (s : State) : ControlBody → State
  | .pairInfo slot grade epoch en =>
    sendAttest { s with twin := { s.twin with
      peerSlot := slot % 8, peerGrade := some (grade % 4), peerEpoch := epoch % 65536, peerEn := en, peerInfo := true } }
  | .attest ed ml m state owner vendor share edSig mlSig =>
    let ok := attested ed ml m (attestBytes m state owner vendor share) edSig mlSig
    let s := if ok then s else event s 5 9 5 4 0
    let keys := if ok && s.twin.peerAttested != some false then s.twin.ecdhe.map (fun p => exchangeKeys s p share) else none
    let s := takeKeys { s with twin := { s.twin with
      attested := some ok, secOk := some (securityAgrees s state owner vendor), ecdhe := none } } keys
    let s := sendMsg s 2 0 [6, b2n ok] []
    let s := if s.twin.prev = .solo ∨ s.twin.prev = .split then sendMsg s 2 0 [4, b2n (decide (s.twin.prev = .solo))] []
      else s
    sendTables s
  | .verdict ok =>
    { s with twin := { s.twin with peerAttested := some ok, keys := if ok then s.twin.keys else none } }
  | .tables list solo first last =>
    let s : State := { s with twin := { s.twin with
      peerTables := joinTables (if first then [] else s.twin.peerTables) list, peerSolo := solo, peerListed := last } }
    if last ∧ (s.twin.st = .syncSrc ∨ s.twin.sync) then startBackfill s else s
  | .rePair => if paired s then startPairing s else s
  | .splitResolution took => { s with twin := { s.twin with peerTook := took } }
  | .session sid tensor close =>
    let others := s.twin.sessions.filter (fun x => x.sid != sid)
    if close then { s with twin := { s.twin with sessions := others } }
    else if 4096 ≤ others.length ∨ others.length < s.twin.sessions.length then s
    else { s with twin := { s.twin with sessions := others ++ [{ sid := sid, tensor := tensor, ownedHere := false }] } }
  | .sessions records => records.foldl takeSession s
  | .recoveryWanted ed ml grade state owner share => giveImage s ed ml grade state owner share
  | .recoverySession share =>
    if s.sec.recovering then takeKeys s (s.twin.ecdhe.map (fun p => exchangeKeys s p share)) else s

/-- A message that reads the tables waits with them. -/
def controlWaits (s : State) (body : ControlBody) : Bool :=
  match body with
  | .attest .. => tablesWait s
  | .tables .. => (decide (s.twin.st = .syncSrc) || s.twin.sync) && tablesWait s
  | _ => false

def control (hdr : MsgHeader) (body : ControlBody) (s : State) : State :=
  onMessage s hdr 2 (fun s => controlBody s body) (controlWaits s body)

/-- R400: the first condition that fails, 0 when none does; none while an answer is missing. -/
def pairCause (s : State) : Option Nat :=
  let t := s.twin
  if !t.peerInfo then none
  else if t.peerGrade ≠ some (gradeCode s) then some 1
  else if 1 < (max t.peerEpoch s.flash.pairEpoch) - (min t.peerEpoch s.flash.pairEpoch) then some 2
  else if t.peerSlot / 2 ≠ myPair s ∨ t.peerSlot % 2 = myPos s then some 3
  else if t.attested = some false ∨ t.peerAttested = some false then some 4
  else match t.attested, t.peerAttested, t.secOk with
    | some _, some _, some b => if !b then some 5 else if !(pairEn s && t.peerEn) then some 6 else some 0
    | _, _, _ => none

/-- R402, R408: this module was in SOLO and its partner was not, or holds position 0 of two that were (log 76). -/
def isSource (s : State) : Bool := decide (s.twin.prev = .solo) && (!(s.twin.peerSolo || s.twin.peerTook) || myPos s == 0)

def isSink (s : State) : Bool := (s.twin.peerSolo || s.twin.peerTook) && !isSource s

/-- R401 step 5, R402, R408, R423: the state that pairing ends in. A sink takes owners and states from its source; where
nothing is to be sent, the session records alone are (R422). -/
def pairedState (s : State) : State :=
  if isSource s then
    let go := soloHolds s
    let s := setPair (startBackfill s) (if go then .syncSrc else .paired)
    if go then s else copySessions s
  else if isSink s then
    let go := peerHolds s
    setPair (s.twin.tables.foldl (fun s p => adoptTable s p.1) s) (if go then .syncDst else .paired)
  else if s.twin.prev = .split then
    let s := startBackfill s true
    let go := !s.twin.backlog.isEmpty
    let s := setPair { s with twin := { s.twin with sync := go } } .paired
    if go then s else copySessions s
  else
    let need := needsBlock s
    let s := startBackfill s
    let back := !s.twin.backlog.isEmpty
    setPair s (if back && (!need || myPos s == 0) then .syncSrc else if need then .syncDst else .paired)

/-- PAIRING_COMPLETE (R400–R402), once the partner's list of tables has come. The partner that pairs holds its PAIR_ALIVE high (log 9). -/
def pairingComplete (s : State) : State :=
  if s.twin.st ≠ .pairing ∨ s.twin.link ≠ 2 ∨ core3Waits s then s
  else match pairCause s with
    | none => s
    | some 0 =>
      if !s.twin.peerListed ∨ tablesWait s then s else
      let s : State := { s with
        pins := { s.pins with pairAliveIn := true }
        twin := { s.twin with cause := 0, lastHb := s.time, aliveFall := none, hostless := false, sync := false } }
      pairedState s
    | some c =>
      let s : State := { s with twin := { s.twin with cause := c, keys := none } }
      event (setPair s .unpaired) 2 8 1 c s.twin.peerSlot

/-! ### Failover (R408, R417, R420) -/

/-- R412, R417 step 1: what waits for the partner completes with ST_PAIR. -/
def failWaits (s : State) : State :=
  let l := s.twin.waits
  let s : State := { s with twin := { s.twin with waits := [], serve := [] } }
  l.foldl (fun s w => complete s w.did { status := 0x16 }) s

/-- Nothing waits for a partner that is gone. -/
def dropUnacked (s : State) : State :=
  { s with twin := { s.twin with sendq := s.twin.sendq.filter (fun m => !msgAcked m.cls) } }

/-- R417 steps 1 and 2; step 3 is then under way. -/
def beginTakeover (s : State) (row : Nat) : State :=
  let s := dropUnacked (failWaits (countSplit (setPair s .solo)))
  let s := event (count s oFailover) 2 8 4 row s.twin.peerSlot
  { s with twin := { s.twin with takeover := some (s.time, false), backlog := [], sync := false, hostless := false } }

/-- R402, R407: the partner is declared failed; a sink of back-fill is left without a partner. -/
def partnerFailed (s : State) (row : Nat) : State :=
  if s.twin.st = .syncDst then
    let s : State := { s with twin := { s.twin with keys := none } }
    event (dropUnacked (failWaits (setPair s .unpaired))) 2 8 4 row s.twin.peerSlot
  else beginTakeover s row

/-- R408. -/
def enterSplit (s : State) : State :=
  let s : State := { s with twin := { s.twin with st := .split, splitSince := some s.time, sync := false, backlog := [] } }
  event s 2 8 3 0 s.twin.peerSlot

/-- R420: blocks that move for a descriptor that ends now stay here. -/
def unmoveBlocks (s : State) : State :=
  (s.twin.waits.filter (fun w => w.op == 5 || w.op == 7)).foldl (fun s w =>
    w.blocks.foldl (fun s b => modBlock s w.tensor b (fun e => if eState e = 2 then setEState e 1 else e)) s) s

/-- R420: the partner has become hostless. What has not gone out to it of REPL, OWN, FETCH and BULK does not. -/
def partnerHostless (s : State) : State :=
  if s.twin.hostless ∨ (s.twin.waits.any (fun w => w.op == 5 || w.op == 7) ∧ tablesWait s) then s
  else
    let s := failWaits (regSetBit (unmoveBlocks s) oTwnStatus 12)
    let s := event s 2 8 6 0 s.twin.peerSlot
    { s with twin := { s.twin with
      hostless := true, sync := false, backlog := [], takeover := some (s.time, true)
      sendq := s.twin.sendq.filter (fun m => !(m.fresh && msgAcked m.cls)) } }

/-- R420, R423: the partner's host link is back, and what changed is back-filled. -/
def partnerHosted (s : State) : State :=
  if !s.twin.hostless ∨ tablesWait s then s
  else
    let s := startBackfill (pumpSend { s with twin := { s.twin with hostless := false } })
    let go := !s.twin.backlog.isEmpty
    let s : State := { s with twin := { s.twin with sync := go } }
    if go then s else copySessions s

/-- HEARTBEAT (R407, R420). -/
def heartbeat (hdr : MsgHeader) (hb : Heartbeat) (s : State) : State :=
  onMessage s hdr 1 (fun s =>
    let s : State := { s with twin := { s.twin with lastHb := s.time } }
    if !paired s then s
    else if hb.failed ∨ hb.brake then partnerFailed s 1
    else if hb.hostlink ≠ 0 then partnerHostless s
    else partnerHosted s)

/-- HEARTBEAT_TIMER (R406, R407): one goes out, and an interval without a valid one in is counted. -/
def heartbeatTimer (s : State) : State :=
  if s.power.st = .off then s
  else
    let miss := paired s && decide (100000 ≤ (s.time - s.twin.lastHb).toNat)
    sendHeartbeat (countIf s miss oHbMiss)

/-- HEARTBEAT_TIMEOUT (R407): 800 µs without a valid heartbeat. -/
def heartbeatTimeout (s : State) : State :=
  if !paired s then s
  else if s.twin.link = 2 ∨ !s.pins.pairAliveIn then partnerFailed s 3
  else enterSplit s

/-- PAIR_ALIVE_FALL (R407, R509). -/
def pairAliveFall (s : State) : State :=
  { s with pins := { s.pins with pairAliveIn := false }, twin := { s.twin with aliveFall := some s.time } }

/-- PAIR_ALIVE_LOW_TIMEOUT (R407): low for 50 µs. -/
def pairAliveLowTimeout (s : State) : State :=
  if paired s ∧ !s.pins.pairAliveIn ∧ s.twin.aliveFall.isSome then
    partnerFailed { s with twin := { s.twin with aliveFall := none } } 2
  else s

/-- R417 step 4. What reading the tables for it does was done as they were rewritten. -/
def resumeSessions (s : State) (tensors : List Nat) : State :=
  { s with twin := { s.twin with sessions := s.twin.sessions.map (fun x =>
    if tensors.contains x.tensor && !hasLost s x.tensor then { x with resumable := true, ownedHere := true, replicated := false }
    else x) } }

/-- R417 step 3: the tables rewritten, every one, or for a hostless partner those of its sessions (R420). -/
def takenTensors (s : State) (hostless : Bool) : List Nat :=
  let all := s.twin.tables.map (·.1)
  if hostless then all.filter (fun t => s.twin.sessions.any (fun x => x.tensor == t && !x.ownedHere)) else all

/-- TAKEOVER_COMPLETE (R417 steps 3 to 5, R418, R425): it waits for the stacks that hold the tables (R80). -/
def takeoverComplete (s : State) : State :=
  match s.twin.takeover with
  | none => s
  | some (t0, hostless) =>
    let tensors := takenTensors s hostless
    let das := (s.twin.tables.filter (fun p => tensors.contains p.1)).map (·.2)
    if core3Waits s ∨ das.any (fun da => tableWaits s da) then s
    else
      let s := das.foldl (fun s da => takeTable s (mySlot s) s.twin.peerSlot da) s
      let s := resumeSessions s tensors
      let n := (s.twin.sessions.filter (fun x => x.resumable)).length
      let s := event s 0 8 5 0 s.twin.peerSlot n
      let s := if hostless then s else countBy s oOutage ((s.time - t0).toNat / 1000)
      let own := s.twin.waits.filter (fun w => w.op == 8)
      let s : State := { s with twin := { s.twin with takeover := none, waits := s.twin.waits.filter (fun w => w.op != 8) } }
      own.foldl (fun s w => complete s w.did {}) s

end Sys2Proof.Machine
end

