-- ==== Sys2Proof/Machine/TwinOps.lean ====
section
/-! DEFINITION. The TWIN descriptors (R409–R416, R419) and the messages that carry replicas, ownership and blocks (R410,
R412, R414, R415, R422, R457). -/

namespace Sys2Proof.Machine

open Sys2Proof

/-! ### Fields (R416) -/

def refusePair (s : State) (did : Nat) : State := complete s did { status := 0x16 }

/-- A TWIN descriptor of an OP is handed over. -/
def twinOp (s : State) (n op : Nat) (act : State → RDesc → State) : State :=
  handOver s n (fun d => rCls d == 9 && tOp d == op) (fun r x => act r.s x)

/-- R416, R420: the partner takes ownership and fetches, and replicas but during a back-fill (R423). -/
def pairWorks (s : State) : Bool := decide (s.twin.st = .paired) && !s.twin.hostless

def findWait (s : State) (did : Nat) : Option TwinWait := s.twin.waits.find? (fun w => w.did == did)
def addWait (s : State) (w : TwinWait) : State := { s with twin := { s.twin with waits := s.twin.waits ++ [w] } }
def dropWait (s : State) (did : Nat) : State :=
  { s with twin := { s.twin with waits := s.twin.waits.filter (fun w => w.did != did) } }
def putWait (s : State) (w : TwinWait) : State :=
  { s with twin := { s.twin with waits := s.twin.waits.map (fun x => if x.did == w.did then w else x) } }

def modSession (s : State) (sid : W32) (f : Session → Session) : State :=
  { s with twin := { s.twin with sessions := s.twin.sessions.map (fun x => if x.sid == sid then f x else x) } }

/-! ### REGISTER, UNREGISTER, SESSION (R409, R413, R416) -/

/-- R413: both modules have registered the tensor, and NBLOCK or LOG2_BLOCK differ. -/
def partnerDiffers (s : State) (tensor : Nat) (t : OTable) : Bool :=
  (paired s || s.twin.peerListed) && s.twin.peerTables.any (fun p => p.tensor == tensor && (p.nblock != t.nblock || p.log2 != t.log2))

/-- REGISTER (R413): the partner is told, and a sink of back-fill takes owners and states from its source (R402, R421). -/
def register (ring : Fin 1024) (s : State) : State :=
  twinOp s ring 1 (fun s x =>
    let da := fld x.d.w1 47 0
    let r := checkTable s da
    match r.1 with
    | .inl off => complete (event r.2 6 8 7 0 0 (da + put off 64) (dJobtag x.d)) x.did { status := 2 }
    | .inr (t, tensor) =>
      let s := r.2
      let s := s.twin.tables.foldl (fun s p => touchTable s p.1) s
      let others : State := { s with twin := { s.twin with tables := tdel tensor s.twin.tables } }
      if 256 ≤ others.twin.tables.length ∨ 8388608 < tableEntries others + t.nblock then complete s x.did { status := 2 }
      else if partnerDiffers s tensor t then refusePair s x.did
      else
        let s : State := { s with twin := { s.twin with tables := tins tensor da others.twin.tables } }
        let s := if s.twin.st = .syncDst then adoptTable s tensor else s
        complete (retellTables s) x.did {})

/-- UNREGISTER (R416): refused while a session names the tensor; the partner is told. -/
def unregister (ring : Fin 1024) (s : State) : State :=
  twinOp s ring 2 (fun s x =>
    let tensor := tTensor x.d
    if s.twin.sessions.any (fun y => y.tensor == tensor) ∨ !thas s.twin.tables tensor then refusePair s x.did
    else complete (retellTables { s with twin := { s.twin with tables := tdel tensor s.twin.tables } }) x.did {})

/-- SESSION (R409): the record is made or removed on both modules. -/
def session (ring : Fin 1024) (s : State) : State :=
  twinOp s ring 3 (fun s x =>
    let sid := w32 (fld x.d.w1 31 0)
    let close := bitOf x.d.w1 32
    let tensor := fld x.d.w2 31 0
    let pairs := decide (s.twin.st = .paired)
    let allowed := pairs || decide (s.twin.st = .solo) || decide (s.twin.st = .split)
    let tell := fun (s : State) => if pairs then sendMsg s 2 (dJobtag x.d) [5, sid.toNat, tensor, b2n close] [] else s
    match findSession s sid with
    | some _ =>
      if !allowed ∨ !close then refusePair s x.did
      else complete (tell { s with twin := { s.twin with
        sessions := s.twin.sessions.filter (fun y => y.sid != sid) } }) x.did {}
    | none =>
      if !allowed ∨ close ∨ 4096 ≤ s.twin.sessions.length ∨ !thas s.twin.tables tensor then refusePair s x.did
      else complete (tell { s with twin := { s.twin with
        sessions := s.twin.sessions ++ [{ sid := sid, tensor := tensor }] } }) x.did {})

/-! ### REPL (R410–R412) -/

/-- The messages of a REPL: at most 64 KiB each (R403, R410), the last marked, and the SEQ that both entries take. -/
def sendRepl (s : State) (w : TwinWait) (block off seq : Nat) (bytes : List Byte) : State :=
  let parts := if bytes.isEmpty then [[]] else chunks 65536 bytes
  let s := (parts.zipIdx).foldl (fun s p =>
    sendMsg s 5 w.jobtag
      [w.tensor, block, off + 65536 * p.2, w.sid.toNat, w.tokens.toNat, seq, b2n (decide (p.2 + 1 = parts.length))] p.1
      (some w.did)) s
  addWait s { w with blocks := [block] }

/-- R410: the SEQ that a REPL leaves in both entries: each one under way advances it by 1. -/
def replSeq (s : State) (tensor block : Nat) (e : W64) : Nat :=
  (eSeq e + 1 + (s.twin.waits.filter (fun w => w.op == 4 && w.tensor == tensor && w.blocks == [block])).length) % 2 ^ 32

/-- REPL (R410, R451). -/
def repl (ring : Fin 1024) (s : State) : State :=
  twinOp s ring 4 (fun s x =>
    let tensor := tTensor x.d
    let block := tBlock x.d
    let off := fld x.d.w2 31 0
    let len := fld x.d.w2 63 32
    let sid := w32 (fld x.d.w3 31 0)
    let b := blockOf s tensor block
    let s := touchBlock s tensor block
    match b, findSession s sid with
    | some (t, e), some se =>
      if !pairWorks s ∨ s.twin.sync ∨ eOwner e ≠ mySlot s ∨ eState e ≠ 1 ∨ eSlot e = noSlot ∨ se.tensor ≠ tensor ∨ blockSize t < off + len then
        refusePair s x.did
      else
        let da := slotDa t (eSlot e) + off
        if !mayCross s da len (peerPkg s tensor block) then refusePair s x.did
        else if rangeError s da len then complete s x.did { status := 0xC }
        else
          let r := readAs s (dJobtag x.d) 0xFFF da len
          if anyPoison r.2.1 then complete r.2.2 x.did { status := 0xB }
          else sendRepl r.2.2 { did := x.did, op := 4, tensor := tensor, sid := sid
                                tokens := w32 (fld x.d.w4 31 0), jobtag := dJobtag x.d } block off (replSeq s tensor block e) r.1
    | _, _ => refusePair s x.did)

def ackMsg (s : State) (jobtag : W32) (cls : Nat) (ok : Bool) (seq : Nat) : State :=
  sendMsg s 4 jobtag [cls, b2n ok, seq] []

/-- R409, R410: the session's TOKENS is raised. -/
def noteTokens (s : State) (sid : W32) (tokens : Nat) : State :=
  modSession s sid (fun y => { y with tokens := if y.tokens.toNat < tokens then w32 tokens else y.tokens
                                      replicated := true })

/-- What this module knows of the partner's entry of a block changes (R422). -/
def notePeer (s : State) (tensor block : Nat) (f : W64 → W64) : State :=
  { s with twin := { s.twin with peerTables := s.twin.peerTables.map (fun p =>
    if p.tensor = tensor then { p with entries := p.entries.modify block f } else p) } }

/-- R404: the payload that FLITS counts. -/
def msgBytes (hdr : MsgHeader) (bytes : List Byte) : List Byte := bytes.take (64 * hdr.flits)

/-- REPL_MESSAGE (R410, R412): the bytes are performed and acknowledged, or refused; with the last message of a REPL the
entry takes its SEQ and REPL, and TOKENS is raised. Writes to a stack that is not READY wait (R80). -/
def replMessage (hdr : MsgHeader) (tensor block seq sid tokens : Nat) (part : ReplPart) (s : State) : State :=
  let bytes := msgBytes hdr part.bytes
  match blockOf s tensor block with
  | none => onMessage s hdr 5 (fun s => ackMsg s hdr.jobtag 5 false 0)
  | some (t, e) =>
    let da := slotDa t (eSlot e) + part.offset
    if eOwner e = mySlot s ∨ eSlot e = noSlot ∨ blockSize t < part.offset + bytes.length ∨ rangeError s da bytes.length
        ∨ !paired s then
      onMessage s hdr 5 (fun s => ackMsg (touchBlock s tensor block) hdr.jobtag 5 false (eSeq e)) (tensorWaits s tensor)
    else onMessage s hdr 5 (waits := tensorWaits s tensor || rangeWaits s da bytes.length true) (fun s =>
      let s := caused (touchBlock s tensor block) hdr.jobtag 0xFFF (fun s =>
        daWrite s (fun _ => 2) da bytes (List.replicate (bytes.length / 32 + 2) false))
      let s := if part.last then
          notePeer (noteTokens (modEntry s t block (fun e => setRepl (setSeq e seq) true)) (w32 sid) tokens) tensor block
            (fun e => setRepl (setSeq e seq) true)
        else s
      ackMsg s hdr.jobtag 5 true seq)

/-! ### OWN, HANDOVER, FETCH (R414, R415, R419) -/

/-- R403, R414 step 2: a block goes out as BULK, in messages of at most 64 KiB. -/
def sendBlock (s : State) (t : OTable) (tensor block : Nat) (e : W64) (jobtag : W32) (did : Option Nat := none) : State :=
  let r := readAs s jobtag 0xFFF (slotDa t (eSlot e)) (blockSize t)
  sendParts r.2.2 6 jobtag [tensor, block, eSeq e] r.1 did

/-- R414 step 3. -/
def sendOwner (s : State) (w : TwinWait) (block seq : Nat) : State :=
  sendMsg s 3 w.jobtag [1, w.tensor, block, seq] [] (some w.did)

/-- R414 steps 1 and 2 for one block; step 3 follows at once when the partner's copy is current, and else when the partner
has all of it. -/
def moveBlock (s : State) (t : OTable) (w : TwinWait) (block : Nat) : State :=
  let r := getEntry s t block
  let s := putEntry r.2 t block (setEState r.1 2)
  let s : State := { s with twin := { s.twin with
    moved := s.twin.moved.filter (fun x => !(x.1 == w.tensor && x.2.1 == block)) ++ [(w.tensor, block, eSeq r.1)] } }
  if eRepl r.1 then sendOwner s w block (eSeq r.1) else sendBlock s t w.tensor block r.1 w.jobtag (some w.did)

/-- A block that this module owns, and may move. -/
def ownsBlock (s : State) (tensor block : Nat) : Bool :=
  match blockOf s tensor block with
  | some (t, e) => eOwner e == mySlot s && eState e == 1 && eSlot e != noSlot
      && !rangeError s (slotDa t (eSlot e)) (blockSize t)
  | none => false

/-- R451, for every block of a move. -/
def allCross (s : State) (t : OTable) (tensor : Nat) (blocks : List Nat) : Bool :=
  blocks.all (fun n => mayCross s (slotDa t (eSlot (getEntry s t n).1)) (blockSize t) (peerPkg s tensor n))

/-- R419: the session passes to the partner, whose record becomes owned there; the copy here stays. -/
def passSession (s : State) (w : TwinWait) : State :=
  if w.op ≠ 7 then s
  else
    let s := modSession s w.sid (fun y => { y with ownedHere := false })
    match findSession s w.sid with
    | some y => sendMsg s 2 w.jobtag [7] (sessionRec y)
    | none => s

/-- R414: the blocks begin to move, all of them or none; with none the descriptor is done. -/
def moveBlocks (s : State) (w : TwinWait) : State :=
  match tableOf s w.tensor with
  | none => refusePair s w.did
  | some t =>
    if !w.blocks.all (ownsBlock s w.tensor) then refusePair s w.did
    else
      if !allCross s t w.tensor w.blocks then refusePair s w.did
      else if w.blocks.isEmpty then complete (passSession s w) w.did {}
      else addWait (w.blocks.foldl (fun s n => moveBlock s t w n) s) w

/-- OWN (R414). -/
def own (ring : Fin 1024) (s : State) : State :=
  twinOp s ring 5 (fun s x =>
    let n := fld x.d.w2 31 0
    let t := tTensor x.d
    let found := tableOf s t
    let s := touchTable s t
    match found with
    | none => refusePair s x.did
    | some tab =>
      if !pairWorks s ∨ tab.nblock < tBlock x.d + n then refusePair s x.did
      else moveBlocks s { did := x.did, op := 5, tensor := t, jobtag := dJobtag x.d
                          blocks := (List.range n).map (· + tBlock x.d) })

/-- HANDOVER (R419): every owned block of the session's tensor moves. -/
def handover (ring : Fin 1024) (s : State) : State :=
  twinOp s ring 7 (fun s x =>
    match findSession s (w32 (fld x.d.w1 31 0)) with
    | none => refusePair s x.did
    | some se =>
      let found := tableOf s se.tensor
      let s := touchEntries s se.tensor
      match found with
      | none => refusePair s x.did
      | some t =>
        if !pairWorks s ∨ !se.ownedHere then refusePair s x.did
        else
          let blocks := (List.range t.nblock).filter (fun n =>
            let e := (getEntry s t n).1
            eOwner e == mySlot s && eState e == 1)
          moveBlocks s { did := x.did, op := 7, tensor := se.tensor, sid := se.sid, blocks := blocks, jobtag := dJobtag x.d })

/-- R314: an entry which is MOVING names the slot, or one of another block that has left MOVING and whose SEQ has not
advanced since. -/
def slotMoving (s : State) (t : OTable) (tensor block slot : Nat) : Bool :=
  (entriesOf s t).zipIdx.any (fun x => eSlot x.1 == slot
    && (eState x.1 == 2 || (x.2 != block && s.twin.moved.contains (tensor, x.2, eSeq x.1))))

/-- R451: the package of a destination, as a request tells it. -/
def pkgArgs : Option (W32 × W32) → List Nat
  | some p => [1, p.1.toNat, p.2.toNat]
  | none => [0]

/-- R415: the request of a FETCH goes out once its block is not MOVING and its slot is free to be written (R314). -/
def pumpRequests (s : State) : State :=
  (s.twin.waits.filter (fun w => w.op == 6 && w.count == 1)).foldl (fun s w =>
    match blockOf s w.tensor (w.blocks.headD 0) with
    | some (t, e) =>
      let s := touchBlock s w.tensor (w.blocks.headD 0)
      if eState e = 2 ∨ slotMoving s t w.tensor (w.blocks.headD 0) w.slot then s
      else if eState e = 1 ∧ eOwner e = s.twin.peerSlot then
        sendMsg (putWait s { w with count := 0 }) 3 w.jobtag
          ([2, w.tensor, w.blocks.headD 0] ++ pkgArgs (regionPkg s (slotDa t w.slot) (blockSize t))) [] (some w.did)
      else refusePair (dropWait s w.did) w.did
    | none => refusePair (dropWait s w.did) w.did) s

/-- R415, R451: a block that the partner asks for goes out when this module owns it, waits while it is MOVING, and is
refused otherwise. -/
def serveFetch (s : State) (tensor block : Nat) (jobtag : W32) (pkg : Option (W32 × W32)) : State :=
  match blockOf s tensor block with
  | none => ackMsg s jobtag 3 false 0
  | some (t, e) =>
    let s := touchBlock s tensor block
    if eState e = 2 then { s with twin := { s.twin with serve := s.twin.serve ++ [(tensor, block, jobtag, pkg)] } }
    else if eState e ≠ 1 ∨ eOwner e ≠ mySlot s ∨ eSlot e = noSlot ∨ rangeError s (slotDa t (eSlot e)) (blockSize t) then
      ackMsg s jobtag 3 false (eSeq e)
    else
      if !mayCross s (slotDa t (eSlot e)) (blockSize t) pkg then ackMsg s jobtag 3 false (eSeq e)
      else ackMsg (sendBlock s t tensor block e jobtag) jobtag 3 true (eSeq e)

/-- An entry has left MOVING: what waited for that goes on, here and for the partner. -/
def pumpFetch (s : State) : State :=
  let l := s.twin.serve
  let s := l.foldl (fun s x => serveFetch s x.1 x.2.1 x.2.2.1 x.2.2.2) { s with twin := { s.twin with serve := [] } }
  pumpRequests s

/-- FETCH (R415). -/
def fetch (ring : Fin 1024) (s : State) : State :=
  twinOp s ring 6 (fun s x =>
    let slot := fld x.d.w2 23 0
    let b := blockOf s (tTensor x.d) (tBlock x.d)
    let s := touchBlock s (tTensor x.d) (tBlock x.d)
    match b with
    | none => refusePair s x.did
    | some (t, e) =>
      if !pairWorks s ∨ t.nslot ≤ slot ∨ (eState e ≠ 2 ∧ !(eState e = 1 ∧ eOwner e = s.twin.peerSlot)) then refusePair s x.did
      else
        let w : TwinWait := { did := x.did, op := 6, tensor := tTensor x.d, blocks := [tBlock x.d], count := 1
                              slot := slot, jobtag := dJobtag x.d }
        pumpRequests (addWait s w))

/-- R422: a block that OWN or FETCH changes while back-fill runs is sent again. -/
def resendBlock (s : State) (tensor block : Nat) : State :=
  if s.twin.backlog.isEmpty ∧ !s.twin.sync ∧ s.twin.st ≠ .syncSrc then s
  else { s with twin := { s.twin with backlog := s.twin.backlog.filter (· != (tensor, block)) ++ [(tensor, block)] } }

/-- R414 step 3: this module becomes the owner of a block. -/
def becomeOwner (s : State) (hdr : MsgHeader) (tensor block seq : Nat) : State :=
  match blockOf s tensor block with
  | none => ackMsg s hdr.jobtag 3 false 0
  | some (t, e) =>
    let s := touchBlock s tensor block
    if eSlot e = noSlot then ackMsg s hdr.jobtag 3 false 0
    else
      let v := (seq + 1) % 2 ^ 32
      let own := fun (e : W64) => setRepl (setSeq (setEState (setOwner e (mySlot s)) 1) v) true
      let s := resendBlock (notePeer (putEntry s t block (own e)) tensor block own) tensor block
      ackMsg (pumpFetch s) hdr.jobtag 3 true v

/-- OWNER_UPD (R414 step 3, R415). -/
def ownerUpd (hdr : MsgHeader) (tensor block : Nat) (msg : OwnerMsg) (s : State) : State :=
  onMessage s hdr 3 (waits := serveWaits s || ((match msg with | .fetch _ => true | _ => false) && blockWaits s tensor block)) (fun s => match msg with
    | .take seq => becomeOwner s hdr tensor block seq
    | .fetch pkg => serveFetch s tensor block hdr.jobtag pkg)

/-- A block of a move is settled; with the last the descriptor completes, refused if the partner refused a block. -/
def moveSettled (s : State) (w : TwinWait) (block : Nat) (ok : Bool) : State :=
  let w := { w with blocks := w.blocks.filter (· != block), bad := w.bad || !ok }
  if !w.blocks.isEmpty then pumpFetch (putWait s w)
  else
    let s := dropWait s w.did
    if w.bad then refusePair (pumpFetch s) w.did
    else complete (pumpFetch (passSession s w)) w.did {}

/-- R414 step 4: the partner took a block, or refused it: then it stays here. -/
def ackMove (s : State) (w : TwinWait) (block : Nat) (ok : Bool) (seq : Nat) : State :=
  let f := fun (e : W64) =>
    if ok then setRepl (setSeq (setEState (setOwner e s.twin.peerSlot) 1) seq) true else setEState e 1
  let s := modBlock s w.tensor block f
  moveSettled (if ok then notePeer s w.tensor block f else s) w block ok

/-- A message of a REPL is acknowledged, or refused (R410, R412): the last one ends it, and a FETCH may have waited for the
block's new SEQ (R314). -/
def ackRepl (s : State) (w : TwinWait) (m : Msg) (ok : Bool) (seq : Nat) : State :=
  if !ok then refusePair (dropWait s w.did) w.did
  else
    let s := count s oReplCnt
    if m.args.getD 6 0 = 0 then s
    else
      let f := fun (e : W64) => setRepl (setSeq e seq) true
      let s := notePeer (modBlock s w.tensor (w.blocks.headD 0) f) w.tensor (w.blocks.headD 0) f
      pumpRequests (complete (noteTokens (dropWait s w.did) w.sid w.tokens.toNat) w.did {})

/-- The whole block has gone out with this message. -/
def lastPart (s : State) (m : Msg) : Bool :=
  match tableOf s (m.args.getD 0 0) with
  | some t => decide (blockSize t ≤ m.args.getD 3 0 + m.payload.length)
  | none => false

/-- A BULK message is acknowledged (R414, R415, R422): with the last one of a block the partner has a current copy, and a
move goes on. -/
def ackBulk (s : State) (w : Option TwinWait) (m : Msg) (ok : Bool) : State :=
  let tensor := m.args.getD 0 0
  let block := m.args.getD 1 0
  let seq := m.args.getD 2 0
  let done := ok && lastPart s m
  let f := fun (e : W64) => if eSeq e = seq then setRepl e true else e
  let s := if done then
      notePeer (modBlock s tensor block f) tensor block (fun e => setRepl (setSeq e seq) true)
    else s
  match w with
  | none => s
  | some w =>
    if !w.blocks.contains block then s
    else if !ok then moveSettled (modBlock s tensor block (fun e => setEState e 1)) w block false
    else if done then sendOwner s w block seq
    else s

/-- ACK (R405, R410, R412, R414): it answers the oldest message of its class. -/
def ack (hdr : MsgHeader) (answer : AckBody) (s : State) : State :=
  onMessage s hdr 4 (waits := serveWaits s) (fun s =>
    match s.twin.sendq.find? (fun m => m.cls == answer.cls && m.sent) with
    | none => s
    | some m =>
      let s : State := { s with twin := { s.twin with sendq := s.twin.sendq.erase m } }
      let w := m.did.bind (findWait s)
      if answer.cls = 6 then ackBulk s w m answer.ok
      else match w with
        | none => s
        | some w =>
          if answer.cls = 5 then ackRepl s w m answer.ok answer.seq
          else if m.args.headD 0 = 1 then ackMove s w (m.args.getD 2 0) answer.ok answer.seq
          else if answer.ok then s
          else refusePair (dropWait s w.did) w.did)

/-- Part of a block's data is performed in a slot; with its end the entry takes the slot and the sender's SEQ (R415,
R422). -/
def storeBlock (s : State) (t : OTable) (tensor block slot seq off : Nat) (bytes : List Byte) (jobtag : W32) : State :=
  let s := caused s jobtag 0xFFF (fun s => daWrite s (fun _ => 2) (slotDa t slot + off) (bytes.take (blockSize t - off))
    (List.replicate (bytes.length / 32 + 1) false))
  if off + bytes.length < blockSize t then s
  else notePeer (modEntry s t block (fun e => setRepl (setSeq (setSlot e slot) seq) true)) tensor block (fun e => setRepl e true)

/-- BULK (R415, R422): data of a FETCH, of a move, or of back-fill. Writes to a stack that is not READY wait (R80), and so
do those to a slot whose block is MOVING (R314). -/
def bulk (hdr : MsgHeader) (tensor block seq : Nat) (part : BlockPart) (s : State) : State :=
  let bytes := msgBytes hdr part.bytes
  let w := s.twin.waits.find? (fun w => w.op == 6 && w.count == 0 && w.tensor == tensor && w.blocks.headD 0 == block)
  match blockOf s tensor block with
  | none => onMessage s hdr 6 (fun s => ackMsg s hdr.jobtag 6 false 0)
  | some (t, e) =>
    let slot := match w with | some w => w.slot | none => eSlot e
    if slot = noSlot ∨ blockSize t ≤ part.offset ∨ rangeError s (slotDa t slot) (blockSize t) then
      onMessage s hdr 6 (fun s => ackMsg (touchBlock s tensor block) hdr.jobtag 6 false 0) (tensorWaits s tensor)
    else onMessage s hdr 6 (waits := tensorWaits s tensor || slotMoving s t tensor block slot
        || rangeWaits s (slotDa t slot) (blockSize t) true) (fun s =>
      let s := storeBlock (touchBlock s tensor block) t tensor block slot seq part.offset bytes hdr.jobtag
      let s := ackMsg s hdr.jobtag 6 true seq
      match w with
      | some w =>
        if part.offset + bytes.length < blockSize t then s
        else complete (resendBlock (dropWait s w.did) tensor block) w.did {}
      | none => s)

/-! ### TAKEOVER and QUERY (R416, R417) -/

/-- TAKEOVER (R408, R417): in SPLIT. No row of R407 declares the partner failed here, and which of them the event's SUB names
is a free value (log 9). -/
def takeover (ring : Fin 1024) (s : State) : State :=
  twinOp s ring 8 (fun s x =>
    if s.twin.st ≠ .split then refusePair s x.did
    else
      let d := draw s
      addWait (beginTakeover d.2 (1 + d.1.toNat % 3)) { did := x.did, op := 8, tensor := 0 })

/-- R416: one record of a QUERY. -/
def queryRec (s : State) (x : Session) : List Byte :=
  leBytes 4 x.sid.toNat ++ leBytes 4 x.tensor ++ leBytes 4 x.tokens.toNat
    ++ leBytes 4 (b2n x.ownedHere + 2 * b2n x.replicated + 4 * b2n x.resumable + 8 * b2n (hasLost s x.tensor))

/-- QUERY (R416). -/
def query (ring : Fin 1024) (s : State) : State :=
  twinOp s ring 9 (fun s x =>
    let held := s.twin.sessions.take (fld x.d.w2 31 0)
    let recs := held.map (queryRec s)
    let s := held.foldl (fun s y => touchEntries s y.tensor) s
    let bytes := recs.flatten ++ List.replicate 16 0xFF
    let dst := x.d.w1.toNat
    if bitOf x.d.w2 32 then complete (hostWriteOut s dst bytes (relaxedWrite s true)) x.did {}
    else
      let da := dst % 2 ^ 48
      if dst ≠ da ∨ rangeError s da bytes.length then complete s x.did { status := 0xC }
      else if rangeSealRefused s none da bytes.length true then
        complete (sealedRefuse s 2 ring.val da (dJobtag x.d)) x.did { status := 0xF }
      else complete (daWrite s (fun _ => 2) da bytes (List.replicate (bytes.length / 32 + 2) false)) x.did {})

/-- TWIN_RESERVED_OP (R416): ST_BADDESC, from the field rules. -/
def twinReservedOp (ring : Fin 1024) (s : State) : State :=
  handOver s ring (fun d => rCls d == 9 && (tOp d == 0 || decide (10 ≤ tOp d))) (fun r _ => r.s)

/-! ### Back-fill and recovery (R422, R423, R457) -/

/-- BACKFILL_BLOCK (R422, R451): the next block that the sink lacks. -/
def backfillBlock (s : State) : State :=
  if !(decide (s.twin.st = .syncSrc) || decide (s.twin.st = .syncDst) || (decide (s.twin.st = .paired) && s.twin.sync)) ∨ s.twin.hostless ∨ s.twin.link ≠ 2 ∨ core3Waits s then s
  else match s.twin.backlog with
    | [] => s
    | (tensor, block) :: rest =>
      if tensorWaits s tensor || blockWaits s tensor block then s else
      let skip := fun (s : State) => ({ s with twin := { s.twin with backlog := rest } } : State)
      match blockOf s tensor block with
      | none => skip s
      | some (t, e) =>
        let da := slotDa t (eSlot e)
        let s := touchBlock s tensor block
        if eSlot e = noSlot ∨ rangeError s da (blockSize t) then skip s
        else skip (if mayCross s da (blockSize t) (peerPkg s tensor block) then sendBlock s t tensor block e 0 else s)

/-- BACKFILL_COMPLETE (R402, R422, R423): the source copies its session records. -/
def backfillComplete (s : State) : State :=
  if !s.twin.backlog.isEmpty ∨ core3Waits s then s
  else match s.twin.st with
    | .syncSrc => setPair (copySessions s) .paired
    | .syncDst => setPair s .paired
    | .paired => if s.twin.sync then copySessions { s with twin := { s.twin with sync := false } } else s
    | _ => s

/-- RECOVERY (R457): the partner's image reaches a module in recovery, under the session set up for it. -/
def recovery (hdr : MsgHeader) (image : FwImage) (s : State) : State :=
  onMessage s hdr 7 (fun s =>
    if s.sec.recovering ∧ s.twin.hasKeys then { s with sec := { s.sec with fwImage := some image } } else s)

end Sys2Proof.Machine
end

