-- ==== Sys2Proof/Machine/Package.lean ====
section
/-! DEFINITION. Model packages (R440–R444) and the firmware update (R456). -/

namespace Sys2Proof.Machine

open Sys2Proof

/-! ### The layout of a package (R440–R442) -/

def pManLen (b : List Byte) : Nat := sliceNat b 8 8
def pManifest (b : List Byte) : List Byte := (b.drop 64).take (pManLen b)
def pEdSig (b : List Byte) : List Byte := (b.drop (64 + pManLen b)).take 64
def pMlSig (b : List Byte) : List Byte := (b.drop (128 + pManLen b)).take 3309
def pSigned (b : List Byte) : List Byte := b.take (64 + pManLen b)

def mId (m : List Byte) : Nat := sliceNat m 0 4
def mVersion (m : List Byte) : Nat := sliceNat m 4 4
def mSvn (m : List Byte) : Nat := sliceNat m 8 4
def mGrade (m : List Byte) : Nat := sliceNat m 12 1
def mNbind (m : List Byte) : Nat := sliceNat m 13 1
def mFlags (m : List Byte) : Nat := sliceNat m 14 2
def mNsect (m : List Byte) : Nat := sliceNat m 16 4
def mSeal (m : List Byte) (s : Nat) : Nat := sliceNat m (64 + 4 * s) 4
def mBind (m : List Byte) (i : Nat) : BitVec 384 := BitVec.ofNat 384 (sliceNat m (128 + 48 * i) 48)

/-- A section entry of the manifest. -/
structure Sect where
  type : Nat
  stack : Nat
  chan : Nat
  bank : Nat
  row0 : Nat
  offset : Nat
  len : Nat
  iv : List Byte
  tag : List Byte
  arg : Nat
  reserved : Bool

def sectAt (m : List Byte) (i : Nat) : Sect :=
  let e := (m.drop (896 + 64 * i)).take 64
  { type := sliceNat e 0 1, stack := sliceNat e 1 1, chan := sliceNat e 2 1, bank := sliceNat e 3 1
    row0 := sliceNat e 4 2, offset := sliceNat e 8 8, len := sliceNat e 16 8
    iv := (e.drop 24).take 12, tag := (e.drop 40).take 16, arg := sliceNat e 56 8
    reserved := sliceNat e 6 2 != 0 || sliceNat e 36 4 != 0 }

def sections (m : List Byte) : List Sect := (List.range (mNsect m)).map (sectAt m)

/-- R442: the fields of a SEQTAB's ARG. -/
def aEntry0 (a : Nat) : Nat := a % 64
def aNentry (a : Nat) : Nat := a / 2 ^ 6 % 128
def aOpw0 (a : Nat) : Nat := a / 2 ^ 13 % 64
def aNopw (a : Nat) : Nat := a / 2 ^ 19 % 128
def aCmd0 (a : Nat) : Nat := a / 2 ^ 26 % 1024
def aNcmd (a : Nat) : Nat := a / 2 ^ 36 % 2048

/-- Bytes of the entry words, padded to 32 B. -/
def seqPad (a : Nat) : Nat := (4 * aNentry a + 31) / 32 * 32

def sectBad (total : Nat) (x : Sect) : Bool :=
  x.reserved || x.len % 32 != 0 || decide (total < x.offset + x.len) || (match x.type with
    | 1 => decide (12 ≤ x.stack ∨ 32 ≤ x.chan ∨ 64 ≤ x.bank ∨ 2 ^ 25 < x.row0 * 2048 + x.len) || x.arg != 0
    | 2 => false
    | 3 => decide (12 ≤ x.stack ∨ 64 < aEntry0 x.arg + aNentry x.arg ∨ 64 < aOpw0 x.arg + aNopw x.arg
        ∨ 1024 < aCmd0 x.arg + aNcmd x.arg ∨ 2 ^ 47 ≤ x.arg)
        || x.len != seqPad x.arg + 16 * aNopw x.arg + 16 * aNcmd x.arg
    | _ => true)

/-- R440–R442: the format of header and manifest, for a package of `len` bytes. -/
def packageBad (b : List Byte) (len : Nat) : Bool :=
  let m := pManifest b
  let sig := 64 + pManLen b + 64 + 3328
  decide (b.length < 64) || decide (b.length ≠ len) || sliceNat b 0 4 != 0x4B474B50 || sliceNat b 4 2 != 1
    || sliceNat b 6 2 != 0 || sliceNat b 24 40 != 0 || sliceNat b 16 8 != len || decide (len < sig)
    || decide (m.length < 896) || pManLen b != 896 + 64 * mNsect m || decide (mNsect m = 0 ∨ 65536 < mNsect m)
    || decide (2 < mGrade m ∨ 16 < mNbind m ∨ 4 ≤ mFlags m) || sliceNat m 20 4 != 0 || sliceNat m 112 16 != 0
    || sliceNat b (128 + pManLen b + 3309) 19 != 0 || (sections m).any (sectBad len)

/-! ### One load or unload at a time (R443, R444) -/

def modPkg (s : State) (k : Nat) (f : Pkg → Pkg) : State := setPkg s k (f (pkgAt s k))

/-- SEC_STATUS.PKG_BUSY. -/
def pkgBusy (s : State) : Bool := s.sec.work.isSome || !s.sec.unloads.isEmpty

def setWork (s : State) (w : Option PkgWork) : State := { s with sec := { s.sec with work := w } }

/-- The cores that hold a program of a slot. -/
def slotCores (s : State) (k : Fin 4) : List Nat :=
  (s.cores.filter (fun p => p.2.sealedBy == some k)).map (·.1)

/-- R444 step 1: the slot begins to empty. -/
def beginUnload (s : State) (k : Fin 4) (err : Nat) (tag : W32) : State :=
  let s := (slotCores s k).foldl stopCore s
  let s := modPkg s k (fun p => { p with st := .unloading })
  setWork s (some { slot := k, loading := false, tag := tag, failErr := err })

/-- What follows the unloads (R435, R436, R438). -/
def runAfter (s : State) : State :=
  match s.sec.after with
  | none => s
  | some a =>
    let s : State := { s with sec := { s.sec with after := none } }
    match a with
    | .state f => { s with sec := { s.sec with fuse := some f } }
    | .decommission =>
      let s : State := { s with flash := { s.flash with owner := none } }
      let s := if s.sec.debug = .customer then changeDebug s .locked else s
      { s with sec := { s.sec with fuse := some { state := .decommissioned, reprov := false } } }
    | .vendor => changeDebug { s with flash := { s.flash with owner := none } } .vendor

/-- The next slot that waits to be unloaded. -/
def nextUnloadN : (fuel : Nat) → State → State
  | 0, s => s
  | n + 1, s =>
    if s.sec.work.isSome then s
    else match s.sec.unloads with
      | [] => runAfter s
      | k :: rest =>
        let s : State := { s with sec := { s.sec with unloads := rest } }
        if (pkgAt s k.val).st = .empty then nextUnloadN n s else beginUnload s k 0 (regGet s oPkgTag)

def nextUnload (s : State) : State := nextUnloadN (s.sec.unloads.length + 1) s

/-- R436, R438: every package is unloaded, then `after` follows. -/
def unloadAll (s : State) (after : Option After) : State :=
  nextUnload { s with sec := { s.sec with unloads := List.finRange 4, after := after } }

/-- R443: a load has failed before it changed anything. -/
def loadFails (s : State) (k : Fin 4) (err : Nat) (tag : W32) : State :=
  let s := modPkg (setWork s none) k (fun p => { p with st := .failed, err := err })
  nextUnload (event s 5 9 2 1 k.val (err + put (pkgAt s k).id.toNat 32) tag)

/-! ### LOAD (R443) -/

/-- The stack for a manifest stack (R443 step 4). -/
def xlatOf (s : State) (m : Nat) : Nat :=
  if m < 8 then regFld s oXlat0 (4 * m + 3) (4 * m) else regFld s oXlat1 (4 * (m - 8) + 3) (4 * (m - 8))

/-- The manifest stacks that a package uses. -/
def usedStacks (m : List Byte) : List Nat :=
  (List.range 12).filter (fun k => mSeal m k != 0
    || (sections m).any (fun x => x.stack == k && (x.type == 1 || x.type == 3)))

/-- The register words that a SEQTAB section fills on stack k, in order. -/
def seqOffsets (k a : Nat) : List Nat :=
  (List.range (aNentry a)).map (fun i => oSeqEntry k (aEntry0 a + i))
    ++ (List.range (4 * aNopw a)).map (fun i => oOpw k (aOpw0 a) + 4 * i)
    ++ (List.range (4 * aNcmd a)).map (fun i => oSeqMem k (aCmd0 a) + 4 * i)

/-- R443 step 4: whether the sealing is refused. -/
def sealFails (s : State) (k : Fin 4) (m : List Byte) : Bool :=
  let used := usedStacks m
  let dest := used.map (xlatOf s)
  dest.any (fun x => decide (12 ≤ x) || decide ((stackAt s x).st ≠ .ready) || !groupOnline s (x / 4))
    || decide (dest.eraseDups.length ≠ dest.length)
    || used.any (fun j => (List.range 32).any (fun c => (mSeal m j).testBit c && (match sealedSlot s (xlatOf s j) c with
        | some q => q != k
        | none => false)))
    || (sections m).any (fun x => x.type == 3 && (seqOffsets (xlatOf s x.stack) x.arg).any (fun o =>
        (List.finRange 4).any (fun q => q != k && (pkgAt s q.val).locked.contains o)))

/-- R443 steps 2 to 4: the ERR of the first check that fails, or the package key. -/
def checkPackage (s : State) (k : Fin 4) (b : List Byte) (len : Nat) : Nat ⊕ BitVec 256 :=
  let m := pManifest b
  match s.flash.owner with
  | none => .inl 3
  | some o =>
    if packageBad b len then .inl 1
    else if !(Config.ed25519Verify o.ed (pSigned b) (pEdSig b) && Config.mldsaVerify o.ml (pSigned b) (pMlSig b)) then .inl 2
    else if (mGrade m ≠ 2 ∧ mGrade m ≠ gradeCode s)
        ∨ (mNbind m ≠ 0 ∧ !(List.range (mNbind m)).any (fun i => mBind m i == deviceHash)) then .inl 4
    else if (mFlags m).testBit 0 ∧ s.link.ideLink ≠ 1 then .inl 10
    else if mSvn m < tget 0 s.flash.minSvn (mId m) then .inl 5
    else match Config.aesKwUnwrap o.wrap ((m.drop 24).take 40) with
      | none => .inl 2
      | some key => if sealFails s k m then .inl 6 else .inr key

/-- R443 step 5: accepted requests complete, the channels are sealed at one instant and cleared; those of an earlier load
of the slot are cleared with them. -/
def sealChannels (s : State) (k : Fin 4) (m : List Byte) : State :=
  let old := (pkgAt s k.val).sealMap
  let map : Table W32 := (usedStacks m).foldl (fun t j => tset 0 (xlatOf s j) (w32 (mSeal m j)) t) []
  let s := (List.range 12).foldl (fun s x =>
    if tget 0 map x = 0 ∨ (stackAt s x).st ≠ .ready then s else performAll x (stackAt s x).reqs.length s) s
  let s := modPkg s k (fun p => { p with sealMap := map })
  (List.range 12).foldl (fun s x => (List.range 32).foldl (fun s c =>
    if bitOf (tget 0 map x ||| tget 0 old x) c then clearChan s x c else s) s) s

/-- R443 steps 2 to 5, when the source has been read. -/
def startPackage (s : State) (w : PkgWork) (b : List Byte) (len : Nat) : State :=
  match checkPackage s w.slot b len with
  | .inl err => loadFails s w.slot err w.tag
  | .inr key =>
    let m := pManifest b
    let s := modPkg s w.slot (fun p => { p with
      st := .loading, err := 0, id := w32 (mId m), version := w32 (mVersion m), progress := 0, key := some key })
    let xlat := (List.range 12).map (xlatOf s)
    let holds := ((sections m).filter (fun x => x.type == 3)).map (fun x => xlat.getD x.stack 0)
    setWork (sealChannels s w.slot m) (some { w with bytes := some b, xlat := xlat, holds := holds.eraseDups })

/-- R443: the source, read from device memory; an address error, poison or a stack that does not answer fails it. A bank
that a stream holds answers at the next row boundary (R62): the load goes on then. -/
def readSource (s : State) (w : PkgWork) (da len : Nat) : State :=
  if rangeError s da len ∨ rangePaused s da len ∨ 2 ^ 48 ≤ da then loadFails s w.slot 8 w.tag
  else if rangeSealRefused s none da len false then loadFails (sealedRefuse s 2 w.slot.val da w.tag) w.slot 8 w.tag
  else if rangeWaits s da len then modPkg (setWork s (some w)) w.slot (fun p => { p with st := .loading, err := 0 })
  else
    let r := daRead s da len
    if anyPoison r.2.1 then loadFails r.2.2 w.slot 8 w.tag else startPackage r.2.2 w r.1 len

/-- The written slot. -/
def cmdSlot (v : W32) : Fin 4 := Fin.ofNat 4 (fld v 5 4)

def pkgSrc (s : State) : Nat := (regGet s oPkgSrcLo).toNat + put (regGet s oPkgSrcHi).toNat 32
def pkgLen (s : State) : Nat := (regGet s oPkgLenLo).toNat + put (regGet s oPkgLenHi).toNat 32

def cmdIgnored (s : State) : State := regSetBit s oSecStatus 8

/-- PKG_LOAD (R443): step 1, and the read of the source. -/
def pkgLoad (value : BitVec 32) (s : State) : State :=
  if pkgBusy s then cmdIgnored s
  else
    let k := cmdSlot value
    let w : PkgWork := { slot := k, loading := true, fromHost := bitOf value 8, tag := regGet s oPkgTag }
    let st := (pkgAt s k.val).st
    if st ≠ .empty ∧ st ≠ .failed then loadFails s k 9 w.tag
    else if s.otp.state = .decommissioned ∨ s.flash.owner.isNone ∨ s.sec.debug = .vendor then loadFails s k 3 w.tag
    else if w.fromHost then
      if !linkCarries s then loadFails s k 8 w.tag
      else
        let s := askHost s (pkgSrc s) (pkgLen s) .package
        modPkg (setWork s (some w)) k (fun p => { p with st := .loading, err := 0 })
    else readSource s w (pkgSrc s) (pkgLen s)

/-- R343, R443: the host's answer for a package. -/
def pkgHostData (s : State) (answer : HostAnswer) : State :=
  match s.sec.work with
  | some w =>
    if !w.loading ∨ w.bytes.isSome then s
    else match answer with
      | .data bytes false => startPackage s w bytes (pkgLen s)
      | _ => loadFails s w.slot 8 w.tag
  | none => s

/-! ### Sections (R443 step 6) -/

/-- R297, R442: WEIGHTS fill the columns of rows ROW0 on. -/
def writeWeights (s : State) (k : Nat) (x : Sect) (bytes : List Byte) : State :=
  ((chunks 2048 bytes).zipIdx).foldl (fun s p =>
    let l : Loc := { chan := x.chan, layer := x.bank / 4, bank := x.bank % 4, row := x.row0 + p.2 }
    farWritePiece s k l 0 p.1 (List.replicate 64 false) 2) s

/-- The cores that a PROGRAM section names are free, and no operation accepted before it names them (R212, R214). -/
def programReady (s : State) (b : List Byte) : Bool :=
  (imgCores b).all (fun n => coreFree (coreAt s n) && !s.coreOps.any (fun op => (opCores op).contains n))

/-- R442: a program of the slot is loaded, or the verifier rejects it, which CORE_VERR records with the load's tag (R228);
and whether it was loaded. -/
def writeSealed (s : State) (k : Fin 4) (x : Sect) (b : List Byte) (jobtag : W32) : State × Bool :=
  match verify { s := s, auth := some k, srclen := b.length } b with
  | some (code, index) => (recordVerr s code index jobtag, false)
  | none => ((imgCores b).foldl (fun s n =>
      modCore (unsealCore s n) n (fun c => writeProgram c b (some k) (w64 x.arg))) s, true)

/-- R442: a stack's sequence tables; the words written are locked for the slot. -/
def writeSeqtab (s : State) (k : Fin 4) (stack : Nat) (x : Sect) (b : List Byte) : State :=
  let offs := seqOffsets stack x.arg
  let ws := words32 (aNentry x.arg) b ++ words32 (4 * aNopw x.arg + 4 * aNcmd x.arg) (b.drop (seqPad x.arg))
  let s := (offs.zip ws).foldl (fun s p => regSet s p.1 (p.2 &&& w32 (regDef p.1).rw)) s
  modPkg s k (fun p => { p with locked := (p.locked ++ offs).eraseDups })

/-- R443 step 6: each locked entry's commands lie within the slot's locked commands. -/
def entriesLocked (s : State) (k : Fin 4) : Bool :=
  let locked := (pkgAt s k.val).locked
  (List.range 12).all (fun x => (List.range 64).all (fun e =>
    !locked.contains (oSeqEntry x e)
      || (List.range (entryLen s x e)).all (fun i => locked.contains (oSeqMem x ((entryStart s x e + i) % 1024)))))

/-- One section, and whether it succeeded. -/
def writeSection (s : State) (w : PkgWork) (key : BitVec 256) (b : List Byte) (x : Sect) : State × Bool :=
  match Config.aesGcmOpen key x.iv ((b.drop x.offset).take x.len) x.tag with
  | none => (s, false)
  | some plain =>
    if plain.length ≠ x.len then (s, false)
    else
      let stack := w.xlat.getD x.stack 0
      match x.type with
      | 1 => (writeWeights s stack x plain, true)
      | 2 => writeSealed s w.slot x plain w.tag
      | _ => (writeSeqtab s w.slot stack x plain, true)

/-- R443 step 6: the sections in manifest order, up to the first that fails. -/
def writeSections (s : State) (w : PkgWork) (key : BitVec 256) (b : List Byte) : List Sect → State × Bool
  | [] => (s, true)
  | x :: rest =>
    let r := writeSection s w key b x
    if r.2 then writeSections r.1 w key b rest else r

/-- R443 step 6: what a load waits for: free cores, and idle sequencers. -/
def loadWaits (s : State) (w : PkgWork) (key : BitVec 256) (b : List Byte) : Bool :=
  w.holds.any (fun k => seqRunning s k != 0)
    || regGet s oCfgEpoch == 0 || (sections (pManifest b)).any (fun x => x.type == 2
      && (match Config.aesGcmOpen key x.iv ((b.drop x.offset).take x.len) x.tag with
        | some p => !programReady s p
        | none => false))

/-- R443 step 7; the partner is told what the region holds (R451). -/
def packageLoaded (s : State) (w : PkgWork) (b : List Byte) : State :=
  let m := pManifest b
  let id := mId m
  let s := modPkg s w.slot (fun p => { p with
    st := .loaded, meas := some (Config.sha384 (b.take 64 ++ m))
    progress := w32 (((sections m).map (·.len)).sum / 2 ^ 20) })
  let s : State := if (mFlags m).testBit 1 then
      { s with flash := { s.flash with minSvn := tset 0 id (max (tget 0 s.flash.minSvn id) (mSvn m)) s.flash.minSvn } }
    else s
  nextUnload (retellTables (event (setWork s none) 0 9 2 0 w.slot.val (put id 32) w.tag))

/-- R443 step 6: the source of a load from device memory is read once more for the sections: `none` where it fails. -/
def sectionSource (s : State) (w : PkgWork) : Option (List Byte) × State :=
  let b := w.bytes.getD []
  if w.failErr ≠ 0 then (none, s)
  else if w.fromHost then (some b, s)
  else if rangeError s (pkgSrc s) b.length ∨ rangePaused s (pkgSrc s) b.length
      ∨ rangeSealRefused s none (pkgSrc s) b.length false then (none, s)
  else
    let r := daRead s (pkgSrc s) b.length
    if anyPoison r.2.1 then (none, r.2.2) else (some (b.take (64 + pManLen b) ++ r.1.drop (64 + pManLen b)), r.2.2)

/-- R443: a load whose source has not been read: one that is gone fails it, and one that waited is read. -/
def awaitSource (s : State) (w : PkgWork) : State :=
  if w.failErr ≠ 0 then loadFails s w.slot w.failErr w.tag
  else if w.fromHost then s
  else readSource s w (pkgSrc s) (pkgLen s)

/-- PKG_LOAD_COMPLETE (R443): steps 6 and 7; a source that is lost in step 6 unloads the slot. -/
def pkgLoadComplete (s : State) : State :=
  match s.sec.work with
  | none => s
  | some w =>
    if !w.loading then s
    else if w.bytes.isNone then awaitSource s w
    else
      match (pkgAt s w.slot.val).key with
      | none => s
      | some key =>
        if w.failErr = 0 ∧ !w.fromHost ∧ !rangePaused s (pkgSrc s) (w.bytes.getD []).length
            ∧ rangeWaits s (pkgSrc s) (w.bytes.getD []).length then s
        else
          let src := sectionSource s w
          match src.1 with
          | none => beginUnload src.2 w.slot 8 w.tag
          | some b =>
            if loadWaits src.2 w key b then s
            else
              let r := writeSections src.2 w key b (sections (pManifest b))
              if r.2 && entriesLocked r.1 w.slot then packageLoaded r.1 w b else beginUnload r.1 w.slot 7 w.tag

/-! ### UNLOAD (R444) -/

/-- PKG_UNLOAD (R444): an EMPTY slot has nothing to empty. -/
def pkgUnload (value : BitVec 32) (s : State) : State :=
  if pkgBusy s then cmdIgnored s
  else if (pkgAt s (cmdSlot value).val).st = .empty then s
  else beginUnload s (cmdSlot value) 0 (regGet s oPkgTag)

/-- PKG_CMD_RESERVED (R458): OP 3 is ignored. -/
def pkgCmdReserved (_ : BitVec 32) (s : State) : State := if pkgBusy s then cmdIgnored s else s

/-- R444 steps 1 and 2: cores of the slot that still run, or entries on its channels. -/
def unloadWaits (s : State) (k : Fin 4) : Bool :=
  (slotCores s k).any (fun n => match (coreAt s n).st with | .running => true | .stopping => true | _ => false)
    || (pkgAt s k.val).sealMap.any (fun p => (List.range 32).any (fun c =>
      bitOf p.2 c && decide ((chanAt s p.1 c).seq ≠ .idle)))

/-- R444 steps 3 to 6. -/
def emptySlot (s : State) (k : Fin 4) : State :=
  let s := (slotCores s k).foldl (fun s n => modCore (clearScratch s n) n (fun _ => {})) s
  let p := pkgAt s k.val
  let s := p.locked.foldl (fun s o => regSet s o 0) s
  let s := p.sealMap.foldl (fun s x => (List.range 32).foldl (fun s c => if bitOf x.2 c then clearChan s x.1 c else s) s) s
  setPkg s k.val {}

/-- PKG_UNLOAD_COMPLETE (R444): a failed load's slot ends FAILED (R443). -/
def pkgUnloadComplete (s : State) : State :=
  match s.sec.work with
  | none => s
  | some w =>
    if w.loading ∨ unloadWaits s w.slot then s
    else
      let id := (pkgAt s w.slot.val).id
      let s := emptySlot s w.slot
      let s := if w.failErr = 0 then event s 0 9 2 2 w.slot.val (put id.toNat 32) w.tag
        else event (modPkg s w.slot (fun p => { p with st := .failed, err := w.failErr })) 5 9 2 1 w.slot.val
          (w.failErr + put id.toNat 32) w.tag
      nextUnload (retellTables (setWork s none))

/-! ### Firmware update (R456) -/

def fwFails (s : State) (err : Nat) : State := { s with sec := { s.sec with fwState := 4, fwErr := err } }

/-- FW_GO (R456 step 1): the image in the window is checked, and the flash is then being written. The GO waits while control
core 3 restarts (R38), and while the link cannot carry the snoop of a line (R340, R357). -/
def fwGo (s : State) : State :=
  if s.sec.fwState = 1 ∨ s.sec.fwState = 2 then s
  else if core3Waits s then { s with sec := { s.sec with fwHeld := true } }
  else
    let off := regFld s oFwSrc 25 0
    let len := regFld s oFwLen 24 0
    if off % 64 ≠ 0 ∨ len = 0 ∨ 24 * 2 ^ 20 < len ∨ windowSize < off + len then fwFails s 5
    else if !linkCarries s && (linesOf off len).any (fun l => lineSnoops s l false) then
      { s with sec := { s.sec with fwHeld := true } }
    else
      let r := windowRead s off len
      let s := r.2
      let image : FwImage := { bytes := Config.fwBody r.1, edSig := Config.fwEdSig r.1, mlSig := Config.fwMlSig r.1 }
      if !Config.fwFormatOk image.bytes then fwFails s 1
      else if !imageSigned image then fwFails (event s 5 9 5 1 0) 2
      else if !imageCurrent s image then fwFails s 3
      else { s with sec := { s.sec with fwState := 2, fwErr := 0, fwImage := some image } }

/-- FW_UPDATE_DONE (R456 steps 2 and 3): the hash of the read-back agrees with the image, or the flash has failed, which is a
free value (log 67); then its image is incomplete (R457). -/
def fwUpdateDone (s : State) : State :=
  if s.sec.fwHeld then fwGo { s with sec := { s.sec with fwHeld := false } }
  else match s.sec.fwState, s.sec.fwImage with
  | 2, some i =>
    if core3Waits s then s
    else
      let d := draw s
      let s := d.2
      if bitOf d.1 0 then { flashImage s i with sec := { s.sec with fwState := 3, fwErr := 0, fwImage := none } }
      else { s with flash := { s.flash with imageValid := false }
                    sec := { s.sec with fwState := 4, fwErr := 4, fwImage := none } }
  | _, _ => s

/-- CONTROL_CORE_RESTART_DONE (R38–R40): what came for control core 3 while it restarted is taken up. -/
def controlCoreResumes (cc : Fin 4) (s : State) : State :=
  let again := (ctlAt s cc).st = 1
  let s := controlCoreRestartDone cc s
  if cc.val ≠ 3 ∨ ¬ again then s
  else
    let s := pairResumes s
    if s.sec.fwHeld then fwGo { s with sec := { s.sec with fwHeld := false } } else s

/-- SVN_COMMIT (R456): the fuse has 64 steps. -/
def svnCommit (s : State) : State :=
  { s with otp := { s.otp with svn := min 64 (max s.otp.svn s.flash.imageSvn) } }

end Sys2Proof.Machine
end

