-- ==== Sys2Proof/Machine/Attest.lean ====
section
/-! DEFINITION. SPDM (R433, R434), security states and debug levels (R435, R436, R438), and the pairing keys (R452). -/

namespace Sys2Proof.Machine

open Sys2Proof

/-! ### Connections (R433) -/

def spdmAt (s : State) : SpdmPort → Spdm
  | .host => s.sec.host | .mgmt => s.sec.mgmt | .wilril => s.sec.wilril

def setSpdm (s : State) (p : SpdmPort) (x : Spdm) : State :=
  match p with
  | .host => { s with sec := { s.sec with host := x } }
  | .mgmt => { s with sec := { s.sec with mgmt := x } }
  | .wilril => { s with sec := { s.sec with wilril := x } }

/-- R433: sessions at once. -/
def maxSessions : SpdmPort → Nat
  | .host => 4 | .mgmt => 2 | .wilril => 1

/-- The port carries messages: the host port in every training, the management interface while it is not busy (R38). -/
def portUp (s : State) (p : SpdmPort) : Bool :=
  s.bootDone && (match p with
    | .host => decide (s.link.st = .up)
    | .mgmt => (ctlAt s 3).st != 1
    | .wilril => s.twin.link == 2)

/-- A request at a port that carries no message now. The management interface answers in every power state while the input is
present (R510): busy, while control core 3 restarts (R38) and while no firmware runs to attest (log 79). -/
def portBusy (s : State) (p : SpdmPort) : State :=
  if s.power.inputPresent ∧ p = .mgmt then emit s (.mgmtBusy (mgmtAddress s)) else s

def spdmError (s : State) (p : SpdmPort) (what : String) : State := emit s (.spdmError p what)

/-- A request joins the transcript of its connection. -/
def hear (s : State) (p : SpdmPort) (body : List Byte) : State :=
  setSpdm s p { spdmAt s p with transcript := (spdmAt s p).transcript ++ body }

/-- An unsigned response. -/
def answer (s : State) (p : SpdmPort) (what : String) (payload : List Byte) : State :=
  hear (emit s (.spdm p what payload none)) p payload

/-- A response with an Ed25519 signature over the transcript hash. -/
def answerSigned (s : State) (p : SpdmPort) (what : String) (payload : List Byte) : State :=
  let s := hear s p payload
  let h := Config.sha384 (spdmAt s p).transcript
  let s := setSpdm s p { spdmAt s p with lastHash := some h }
  emit s (.spdm p what payload (some (Config.ed25519Sign (aliasKey s) (nBytes 48 h.toNat))))

/-- A request that needs a connection whose negotiation is done. -/
def negotiated (s : State) (p : SpdmPort) (act : State) : State :=
  if !portUp s p then portBusy s p else if (spdmAt s p).algs then act else spdmError s p "UnexpectedRequest"

/-- R433: the capabilities and the algorithms of the module. -/
def spdmCapabilities : List String :=
  ["CERT", "CHAL", "MEAS with signature", "KEY_EX", "ENCRYPT", "MAC", "HBEAT", "KEY_UPD", "MUT_AUTH"]
def spdmAlgorithms : List String :=
  ["base asymmetric EdDSA Ed25519", "base hash SHA-384", "DHE secp384r1", "AEAD AES-256-GCM", "measurement hash SHA-384"]

/-- GET_VERSION (R433): the connection begins anew. -/
def getVersion (port : SpdmPort) (body : List (BitVec 8)) (s : State) : State :=
  if !portUp s port then portBusy s port
  else
    let s := setSpdm s port { spdmAt s port with
      version := true, caps := false, algs := false, transcript := body, lastHash := none }
    answer s port "VERSION" (Config.spdmEncode ["1.2"])

/-- GET_CAPABILITIES (R433). -/
def getCapabilities (port : SpdmPort) (body : List (BitVec 8)) (s : State) : State :=
  if !portUp s port then portBusy s port
  else if !(spdmAt s port).version then spdmError s port "UnexpectedRequest"
  else answer (hear (setSpdm s port { spdmAt s port with caps := true }) port body) port "CAPABILITIES"
    (Config.spdmEncode spdmCapabilities)

/-- NEGOTIATE_ALGORITHMS (R433). -/
def negotiateAlgorithms (port : SpdmPort) (body : List (BitVec 8)) (s : State) : State :=
  if !portUp s port then portBusy s port
  else if !(spdmAt s port).caps then spdmError s port "UnexpectedRequest"
  else answer (hear (setSpdm s port { spdmAt s port with algs := true }) port body) port "ALGORITHMS"
    (Config.spdmEncode spdmAlgorithms)

/-- GET_DIGESTS (R433): slot 0 holds the one chain. -/
def getDigests (port : SpdmPort) (body : List (BitVec 8)) (s : State) : State :=
  negotiated s port (answer (hear s port body) port "DIGESTS" (nBytes 48 (Config.sha384 (certChain s)).toNat))

/-- GET_CERTIFICATE (R433). -/
def getCertificate (port : SpdmPort) (slot off len : Nat) (body : List (BitVec 8)) (s : State) : State :=
  negotiated s port (if slot = 0 then answer (hear s port body) port "CERTIFICATE" ((certChain s).drop off |>.take len)
    else spdmError s port "InvalidRequest")

/-- R431: the measurements of every index that holds one. -/
def allMeasurements (s : State) : List Byte :=
  ([1, 2, 3, 4, 16, 17, 18, 19].filterMap (measAt s)).flatMap (fun m => nBytes 48 m.toNat)

/-- CHALLENGE (R433). -/
def challenge (port : SpdmPort) (body : List (BitVec 8)) (s : State) : State :=
  negotiated s port (answerSigned (hear s port body) port "CHALLENGE_AUTH" (allMeasurements s))

/-- GET_MEASUREMENTS (R431, R433): one index, or all of them. -/
def getMeasurements (port : SpdmPort) (index : Nat) (body : List (BitVec 8)) (s : State) : State :=
  negotiated s port (
    if index = 0xFF then answerSigned (hear s port body) port "MEASUREMENTS" (allMeasurements s)
    else match measAt s index with
      | some m => answerSigned (hear s port body) port "MEASUREMENTS" (nBytes 48 m.toNat)
      | none => spdmError s port "InvalidRequest")

/-- The lowest session number that is free. -/
def freeSession (x : Spdm) : Nat := ((List.range 5).find? (fun n => !x.sessions.any (fun p => p.1 == n))).getD 0

/-- KEY_EXCHANGE (R433): the session's secret comes from the two shares (R429). -/
def keyExchange (port : SpdmPort) (body : List (BitVec 8)) (s : State) : State :=
  negotiated s port (
    let x := spdmAt s port
    if maxSessions port ≤ x.sessions.length then spdmError s port "SessionLimitExceeded"
    else
      let n := freeSession x
      let d := drawSecret s
      let secret := Config.hkdf (Config.ecdheShared d.1 (Config.spdmShare body)) [0x20]
      let s := setSpdm d.2 port { x with sessions := x.sessions ++ [(n, false)], secrets := tset 0 n secret x.secrets }
      answerSigned (hear s port body) port "KEY_EXCHANGE_RSP" (nBytes 2 n ++ Config.ecdhePublic d.1))

/-- An established session of the port. -/
def inSession (s : State) (p : SpdmPort) (sid : Nat) : Bool := (spdmAt s p).sessions.contains (sid, true)

/-- FINISH (R433). -/
def finish (port : SpdmPort) (sid : Nat) (body : List (BitVec 8)) (s : State) : State :=
  negotiated s port (
    let x := spdmAt s port
    if x.sessions.contains (sid, false) then
      let s := setSpdm s port { x with sessions := x.sessions.map (fun p => if p.1 = sid then (sid, true) else p) }
      answer (hear s port body) port "FINISH_RSP" []
    else spdmError s port "InvalidRequest")

/-- A request inside an established session. -/
def sessionOp (s : State) (p : SpdmPort) (sid : Nat) (act : State → State) : State :=
  if !portUp s p then portBusy s p else if inSession s p sid then act s else spdmError s p "InvalidSession"

/-- SPDM_HEARTBEAT (R433). -/
def spdmHeartbeat (port : SpdmPort) (sid : Nat) (s : State) : State :=
  sessionOp s port sid (fun s => emit s (.spdm port "HEARTBEAT_ACK" [] none))

/-- KEY_UPDATE (R433). -/
def keyUpdate (port : SpdmPort) (sid : Nat) (s : State) : State :=
  sessionOp s port sid (fun s =>
    let x := spdmAt s port
    emit (setSpdm s port { x with
      keyGen := x.keyGen + 1, secrets := tset 0 sid (derive (tget 0 x.secrets sid) [0x21]) x.secrets })
      (.spdm port "KEY_UPDATE_ACK" [] none))

/-- END_SESSION (R433). -/
def endSession (port : SpdmPort) (sid : Nat) (s : State) : State :=
  sessionOp s port sid (fun s =>
    emit (setSpdm s port { spdmAt s port with
      sessions := (spdmAt s port).sessions.filter (fun p => p.1 != sid), secrets := tset 0 sid 0 (spdmAt s port).secrets })
      (.spdm port "END_SESSION_ACK" [] none))

/-- UNSUPPORTED_SPDM_REQUEST (R433, R434). -/
def unsupportedSpdmRequest (port : SpdmPort) (_ : Nat) (s : State) : State :=
  if portUp s port then spdmError s port "UnsupportedRequest" else portBusy s port

/-! ### Vendor-defined requests (R434) -/

/-- PQ_SIGN (R434): over the transcript hash that the last Ed25519 signature of the connection covers. -/
def pqSign (port : SpdmPort) (s : State) : State :=
  negotiated s port (match (spdmAt s port).lastHash with
    | some h => emit s (.spdm port "PQ_SIGN" (Config.mldsaSign (aliasPqKey s) (nBytes 48 h.toNat)) none)
    | none => spdmError s port "UnexpectedRequest")

/-- PQ_CERT (R434). -/
def pqCert (port : SpdmPort) (off len : Nat) (s : State) : State :=
  negotiated s port (if len ≤ 1024 then emit s (.spdm port "PQ_CERT" ((pqChain s).drop off |>.take len) none)
    else spdmError s port "InvalidRequest")

/-- NONCE (R434): it replaces any earlier one. -/
def nonce (port : SpdmPort) (s : State) : State :=
  negotiated s port (
    let v := Config.drbg s.free
    let s : State := { s with free := s.free + 1, sec := { s.sec with nonce := some v } }
    emit s (.spdm port "NONCE" (nBytes 32 v.toNat) none))

/-! ### Tokens and state commands (R435, R436, R438) -/

/-- The bytes that the signatures of a token or command cover. -/
def signedBytes (code : Nat) (x : Signed) : List Byte := nBytes 1 code ++ nBytes 32 x.nonce.toNat ++ nBytes 48 x.device.toNat

/-- R434, R436: the latest nonce, this device, and both signatures under a pair of keys. -/
def signedBy (s : State) (ed ml : List Byte) (code : Nat) (x : Signed) : Bool :=
  s.sec.nonce == some x.nonce && x.device == deviceHash
    && Config.ed25519Verify ed (signedBytes code x) x.edSig && Config.mldsaVerify ml (signedBytes code x) x.mlSig

def ownerSigned (s : State) (code : Nat) (x : Signed) : Bool :=
  match s.flash.owner with | some o => signedBy s o.ed o.ml code x | none => false

def joranoSigned (s : State) (code : Nat) (x : Signed) : Bool := signedBy s Config.joranoEd Config.joranoMl code x

/-- A nonce is used once. -/
def useNonce (s : State) : State := { s with sec := { s.sec with nonce := none } }

def success (s : State) (p : SpdmPort) : State := emit s (.spdm p "SUCCESS" [] none)

/-- A failed signature is logged (R497). -/
def badSignature (s : State) (p : SpdmPort) (sub : Nat) : State := spdmError (event s 5 9 5 sub 0) p "InvalidRequest"

/-- A change of state or level that has not taken effect yet keeps further ones out. -/
def changePending (s : State) : Bool := s.sec.fuse.isSome || s.sec.after.isSome

/-- DBG_UNLOCK (R438, R439). -/
def dbgUnlock (port : SpdmPort) (token : Signed) (s : State) : State :=
  negotiated s port (
    let refused := spdmError s port "InvalidRequest"
    if changePending s then refused
    else match token.level with
      | 0 =>
        if s.sec.nonce = some token.nonce ∧ token.device = deviceHash then
          success (changeDebug (useNonce s) .locked) port
        else refused
      | 1 =>
        if s.otp.state = .decommissioned then refused
        else if ownerSigned s 1 token then success (changeDebug (useNonce s) .customer) port
        else badSignature s port 2
      | 2 =>
        if s.otp.state = .deployed then refused
        else if joranoSigned s 2 token then unloadAll (success (useNonce s) port) (some .vendor)
        else badSignature s port 2
      | _ => refused)

/-- R434: a state command travels in a secured session. -/
def stateCmd (s : State) (p : SpdmPort) (sid : Nat) (act : State → State) : State :=
  sessionOp s p sid (fun s => if changePending s then spdmError s p "InvalidRequest" else act s)

/-- INSTALL_OWNER (R436). -/
def installOwner (port : SpdmPort) (sid : Nat) (owner : OwnerKeys) (ideReq : Bool) (s : State) : State :=
  stateCmd s port sid (fun s =>
    if s.otp.state ≠ .provisioning ∨ s.sec.debug = .vendor then spdmError s port "InvalidRequest"
    else unloadAll (success { s with flash := { s.flash with owner := some owner, ideReq := ideReq } } port) none)

/-- DEPLOY (R435, R436). -/
def deploy (port : SpdmPort) (sid : Nat) (cmd : Signed) (s : State) : State :=
  stateCmd s port sid (fun s =>
    if s.otp.state ≠ .provisioning ∨ s.sec.debug = .vendor ∨ s.flash.owner.isNone then spdmError s port "InvalidRequest"
    else if !ownerSigned s 0x11 cmd then badSignature s port 3
    else unloadAll (success (useNonce s) port) (some (.state { state := .deployed, reprov := false })))

/-- DECOMMISSION (R435, R436): unsigned in PROVISIONING before an owner is installed. -/
def decommission (port : SpdmPort) (sid : Nat) (cmd : Signed) (s : State) : State :=
  stateCmd s port sid (fun s =>
    let free := decide (s.otp.state = .provisioning) && s.flash.owner.isNone
    if s.otp.state = .decommissioned then spdmError s port "InvalidRequest"
    else if !free && !ownerSigned s 0x12 cmd then badSignature s port 3
    else unloadAll (success (if free then s else useNonce s) port) (some .decommission))

/-- REPROVISION (R435, R436). -/
def reprovision (port : SpdmPort) (sid : Nat) (cmd : Signed) (s : State) : State :=
  stateCmd s port sid (fun s =>
    if s.otp.state ≠ .decommissioned ∨ 3 ≤ s.otp.reprov then spdmError s port "InvalidRequest"
    else if !joranoSigned s 0x13 cmd then badSignature s port 3
    else
      let s := success (useNonce s) port
      { s with sec := { s.sec with fuse := some { state := .provisioning, reprov := true } } })

/-- The rows of R435's table: the fuses after a write of `f`, if the table has that change. -/
def fuseRow (o : Otp) (f : FuseWrite) : Option Otp :=
  match o.state, f.state, f.reprov with
  | .provisioning, .deployed, false => some { o with state := .deployed }
  | .provisioning, .decommissioned, false => some { o with state := .decommissioned }
  | .deployed, .decommissioned, false => some { o with state := .decommissioned }
  | .decommissioned, .provisioning, true =>
    if o.reprov < 3 then some { o with state := .provisioning, reprov := o.reprov + 1 } else none
  | _, _, _ => none

/-- FUSE_WRITE_COMPLETE (R435): the new state takes effect; the fuses take no change that the table does not have. -/
def fuseWriteComplete (s : State) : State :=
  match s.sec.fuse with
  | none => s
  | some f =>
    match fuseRow s.otp f with
    | some o => event { s with sec := { s.sec with fuse := none }, otp := o } 5 9 4 (secCode f.state) 0
    | none => { s with sec := { s.sec with fuse := none } }

/-- R452: KEY_UPDATE is due after 2^30 messages or one hour. -/
def keyUpdateDue (s : State) : Bool :=
  decide (2 ^ 30 ≤ s.twin.keyMsgs) || decide (3600000000000 ≤ (s.time - s.twin.keySince).toNat)

/-- R452: the next key of a direction. -/
def nextKey (k : BitVec 256) : BitVec 256 := (Config.hkdf (nBytes 32 k.toNat) [0x11]).setWidth 256

/-- PAIRING_KEY_UPDATE (R452). -/
def pairingKeyUpdate (s : State) : State :=
  match s.twin.keys with
  | none => s
  | some k =>
    if keyUpdateDue s then
      let s := takeKeys s (some { tx := nextKey k.tx, rx := nextKey k.rx })
      { s with twin := { s.twin with keyGen := s.twin.keyGen + 1 } }
    else s

end Sys2Proof.Machine
end

