-- ==== Sys2Proof/Machine/RegRead.lean ====
section
/-! DEFINITION. What a read of a register returns (R12, R13, R28): stored bits, with the status fields of the register maps
of every chapter composed from the state. A WO field reads 0, an RS field reads its staged value. -/

namespace Sys2Proof.Machine

open Sys2Proof

/-! ### HUB_ and the MSI-X structures (R30, R42, R394, R398) -/

/-- R30. -/
def hubGrade (s : State) : Nat := gradeCode s + put (1200 - s.fuses.absent.length) 16

/-- R42. -/
def ccStatus (s : State) (n : Nat) : Nat :=
  let c := ctlAt s n
  c.st + put c.restarts 8 + put c.lastCause 16 + put (b2n (regBit s (oCcStatus n) 24)) 24

/-- R394: word w of the MSI-X table: address, data and vector control of an entry. -/
def msixWord (s : State) (w : Nat) : Nat :=
  let e := msixAt s (w / 4)
  match w % 4 with
  | 0 => e.addrLo.toNat
  | 1 => e.addrHi.toNat
  | 2 => e.data.toNat
  | _ => b2n e.masked

/-- R394: 32 pending bits. -/
def msixPba (s : State) (w : Nat) : Nat := ofBits ((List.range 32).map (fun i => (msixAt s (32 * w + i)).pend))

def hubRead (s : State) (o : Nat) : Nat :=
  if o = oHubGrade then hubGrade s
  else if 0x100 ≤ o ∧ o < 0x110 then ccStatus s ((o - 0x100) / 4)
  else if o = oCfgStatus then (regGet s o).toNat + b2n (cfgBusy s)
  else if oMsixTable ≤ o ∧ o < oMsixTable + 16 * 1025 then msixWord s ((o - oMsixTable) / 4)
  else if oMsixPba ≤ o ∧ o < oMsixPba + 4 * 33 then msixPba s ((o - oMsixPba) / 4)
  else (regGet s o).toNat

/-! ### CORE_ (R31, R227, R264) -/

/-- R31: word w of row r. -/
def presentWord (s : State) (r w : Nat) : Nat :=
  ofBits ((List.range (if w = 3 then 4 else 32)).map (fun i => corePresent s (r * 100 + 32 * w + i)))

def coreStCode : CoreSt → Nat
  | .empty => 1 | .loading => 2 | .loaded => 3 | .running => 4 | .stopping => 5 | .trapped => 6

def taskStCode : TaskSt → Nat
  | .ended => 0 | .ready => 1 | .blocked => 2

/-- R227 BLOCKQ. -/
def blockQueue (t : Task) : Nat :=
  match t.block with
  | some (.src q) => q
  | some (.dst q) => q
  | _ => 0

def coreState (c : Core) : Nat :=
  let bits := fun (f : Task → Bool) => ofBits ((List.range 4).map (fun t => f (taskAt c t)))
  coreStCode c.st + put (bits (fun t => decide (t.st ≠ .ended))) 8 + put (bits (fun t => decide (t.st = .blocked))) 12
    + put c.current 16

def coreTask (t : Task) : Nat :=
  t.pc + put t.loops.length 12 + put (taskStCode t.st) 16 + put (if t.st = .blocked then blockQueue t else 0) 20

def coreFill (c : Core) (w : Nat) : Nat :=
  (List.range 4).foldl (fun a k => a + put (visible c (4 * w + k)).length (8 * k)) 0

/-- R264 CORE_ENG_STATE. -/
def engState (c : Core) : Nat := b2n (!c.matq.isEmpty) + put (b2n (!c.vecq.isEmpty)) 1 + put c.q14rsv 4

/-- The page of a present core; R450: CORE_PARAM_LIVE of a sealed core reads 0. -/
def corePage (s : State) (n o : Nat) : Nat :=
  let c := coreAt s n
  if o = 0 then coreState c
  else if o = 4 then c.prog.toNat
  else if 0x20 ≤ o ∧ o < 0x30 then coreTask (taskAt c ((o - 0x20) / 4))
  else if 0x30 ≤ o ∧ o < 0x40 then coreFill c ((o - 0x30) / 4)
  else if o = cEngState then engState c
  else if 0x100 ≤ o ∧ o < 0x200 then (tget 0 c.image ((o - 0x100) / 4)).toNat
  else if 0x200 ≤ o ∧ o < 0x300 then (if c.sealedBy.isSome then 0 else (pGet c ((o - 0x200) / 4)).toNat)
  else (regGet s (oCore n o)).toNat

def coreRead (s : State) (o : Nat) : Nat :=
  if oCorePresent ≤ o ∧ o < oCorePresent + 0xC0 then presentWord s ((o - oCorePresent) / 16) ((o - oCorePresent) % 16 / 4)
  else if 0x201000 ≤ o ∧ o < 0x201000 + 1200 * 0x400 then
    let n := (o - 0x201000) / 0x400
    if corePresent s n then corePage s n ((o - 0x201000) % 0x400) else 0
  else (regGet s o).toNat

/-! ### STK_ (R81, R89, R127) -/

def stackStCode : StackSt → Nat
  | .off => 0 | .loading => 1 | .ready => 2 | .selfRefresh => 3 | .clearing => 4 | .failed => 5

/-- R81. -/
def stkStatus (s : State) (k : Nat) : Nat :=
  let st := stackAt s k
  stackStCode st.st + put st.band 4 + put (b2n st.refresh2x) 8 + put (b2n st.overMax) 9 + put (b2n st.sensorsLost) 10
    + put (b2n (regBit s (oStk k 0) 11)) 11 + put (if st.sensorsLost then 0 else unsignedOf 8 st.temp) 16

def spareStCode : SpareSt → Nat
  | .clean => 0 | .migrating => 1 | .layerSpared => 2 | .remapping => 3 | .remapped => 4 | .degraded => 5

/-- R127: word w of channel c. -/
def spareWord (s : State) (k c w : Nat) : Nat :=
  let ch := chanAt s k c
  if w = 0 then
    spareStCode ch.spSt
      + put (match ch.spSt with | .migrating => ch.spLayer | .layerSpared => ch.spLayer | _ => 0) 4
      + put (match ch.spSt with | .migrating => ch.progress | .remapping => ch.progress | _ => 0) 8
  else ch.spares.foldl (fun a p => a + put (p.2 + 64) (8 * p.1)) 0

def stkRead (s : State) (o : Nat) : Nat :=
  if 0x4C0000 ≤ o then (regGet s o).toNat
  else
    let k := (o - 0x400000) / 0x10000
    let p := o % 0x10000
    if p = 0 then stkStatus s k
    else if p = kPasrForced then forcedMask s k
    else if 0x200 ≤ p ∧ p < 0x300 then spareWord s k ((p - 0x200) / 8) (p % 8 / 4)
    else (regGet s o).toNat

/-! ### QRN_ and DMA_ (R179, R291, R292) -/

def qrnRead (s : State) (o : Nat) : Nat :=
  if 0x501000 ≤ o ∧ o < 0x501C00 ∧ o % 0x100 = qSeqStatus then
    (regGet s o).toNat % 2 + put (seqRunning s ((o - 0x501000) / 0x100)) 8
  else (regGet s o).toNat

def dmaStCode : DmaSt → Nat
  | .idle => 0 | .fetch => 1 | .run => 2 | .paced => 3 | .arrWait => 4 | .halted => 5

/-- The DA of the descriptor in hand; 0 for a copied head. -/
def dmaCurDa (ch : DmaCh) : Nat := (ch.cur.bind (·.da)).getD 0

def dmaPage (s : State) (g o : Nat) : Nat :=
  let ch := dmaAt s g
  let stored := (regGet s (oDma g o)).toNat
  if o = dStatus then dmaStCode ch.st + put ch.cause 4 + put ch.pending.length 8 + stored
  else if o = 0x10 then dmaCurDa ch % 2 ^ 32
  else if o = 0x14 then dmaCurDa ch / 2 ^ 32
  else if o = 0x18 then (chanJobtag s g).toNat
  else if o = 0x1C then (match ch.cur with | some c => c.block | none => 0) + put ch.links 16
  else stored

def dmaRead (s : State) (o : Nat) : Nat :=
  if o < 0x604000 then dmaPage s ((o - 0x600000) / 0x100) (o % 0x100)
  else if o = oSluStatus then s.sluices.length
  else (regGet s o).toNat

/-! ### RING_, LNK_ and TWN_ (R396, R362, R428) -/

def ringStCode : RingSt → Nat
  | .disabled => 0 | .running => 1 | .stalled => 2 | .draining => 3

def ringRead (s : State) (o : Nat) : Nat :=
  let n := (o - 0x700000) / 0x400
  let r := ringAt s n
  let p := o % 0x400
  if p = rStatus then r.fetchPos + put (ringStCode r.st) 16 + (regGet s o).toNat
  else if p = 0x20 then r.cqTail
  else if p = 0x24 then (s.admitted.filter (fun a => a.ring == n)).length
  else (regGet s o).toNat

def linkStCode : LinkSt → Nat
  | .down => 0 | .training => 1 | .up => 2 | .recovery => 3 | .warmEntry => 4 | .warm => 5

def linkModeCode : LinkMode → Nat
  | .pcie => 0 | .cxl2 => 1 | .cxl3 => 2

def lnkRead (s : State) (o : Nat) : Nat :=
  let l := s.link
  if o = oLnkStatus then
    linkStCode l.st + put (linkModeCode l.mode) 4 + put l.rate 8 + put l.width 12 + put (b2n l.cfgOnly) 16
      + (regGet s o).toNat
  else if o = oIdeCtl then b2n (ideRequired s)
  else if o = oIdeStatus then
    l.ideLink + put l.ideSel.toNat 4 + put (b2n (l.cxlIde != 0)) 12 + put l.cxlIde 13 + (regGet s o).toNat
  else (regGet s o).toNat

/-- R425: the µs of a SPLIT or of a takeover that is under way. -/
def outageRunning (s : State) : Nat :=
  (match s.twin.splitSince with | some t => (s.time - t).toNat / 1000 | none => 0)
    + (match s.twin.takeover with | some (t, false) => (s.time - t).toNat / 1000 | _ => 0)

def twnRead (s : State) (o : Nat) : Nat :=
  let t := s.twin
  if o = oTwnStatus then
    pstateCode t.st + put t.link 4 + put t.peerSlot 8 + put (b2n s.pins.pairAliveIn) 11 + put t.cause 16
      + (regGet s o).toNat
  else if o = oTwnCfg then (regGet s o).toNat + myPos s
  else if o = oTwnEpoch then s.flash.pairEpoch % 2 ^ 16 + put (if t.st = .unpaired then 0 else t.peerEpoch % 2 ^ 16) 16
  else if o = oTwnPeer then t.peerGrade.getD 0 + put (b2n t.peerGrade.isSome) 2
  else if o = oReplPend then min (t.sendq.filter (fun m => m.cls == 5 && m.sent)).length 65535
  else if o = oSyncLeft then t.backlog.length
  else if o = oOutage then min ((regGet s o).toNat + outageRunning s) (2 ^ 32 - 1)
  else (regGet s o).toNat

/-! ### SEC_ (R458) -/

def secStatus (s : State) : Nat :=
  secCode s.otp.state + put (dbgCode s.sec.debug) 2 + put s.sec.boot 4 + put (b2n s.flash.owner.isSome) 6
    + put (b2n (pkgBusy s)) 7 + put (b2n (regBit s oSecStatus 8)) 8 + put s.otp.svn 16 + put s.otp.reprov 24

def pkgStCode : PkgSt → Nat
  | .empty => 0 | .loading => 1 | .loaded => 2 | .unloading => 3 | .failed => 4

/-- SEC_PKG_STATE: word w of slot k. -/
def pkgWord (p : Pkg) (w : Nat) : Nat :=
  match w with
  | 0 => pkgStCode p.st + put p.err 8
  | 1 => p.id.toNat
  | 2 => p.version.toNat
  | _ => p.progress.toNat

def secRead (s : State) (o : Nat) : Nat :=
  if o = oSecStatus then secStatus s
  else if o = oSecPolicy then policyWord s
  else if 0xA00040 ≤ o ∧ o < 0xA00080 then pkgWord (pkgAt s ((o - 0xA00040) / 16)) (o % 16 / 4)
  else if 0xA00100 ≤ o ∧ o < 0xA00200 then
    (if o % 0x40 / 4 < 12 then (tget 0 (pkgAt s ((o - 0xA00100) / 0x40)).sealMap (o % 0x40 / 4)).toNat else 0)
  else if o = oFwStatus then s.sec.fwState + put s.sec.fwErr 8 + put s.flash.imageSvn 16
  else (regGet s o).toNat

/-! ### PWR_ and THM_ (R486, R487) -/

def powerStCode : PowerSt → Nat
  | .off => 0 | .active => 1 | .idle => 2 | .standby => 3 | .braking => 4

def pwrRead (s : State) (o : Nat) : Nat :=
  if o = oPwrState then powerStCode s.power.st + put (b2n s.power.braked) 3 + (regGet s o).toNat
  else if o = oPwrInput then s.power.vinRead % 65536 + put (min (pinAvg s) 65535) 16
  else if oPwrDom 0 0 ≤ o ∧ o < oPwrDom 38 0 then
    let d := (o - oPwrDom 0 0) / 8
    if o % 8 = 4 then min (domPower s d) 65535 else if d = 0 then 65535 else (regGet s o).toNat
  else (regGet s o).toNat

/-- R487: a THM_SENSOR register. -/
def sensorWord (x : Sensor) : Nat :=
  unsignedOf 8 x.temp + put (b2n x.valid) 8 + put (b2n x.fast) 9 + put (b2n x.votedOut) 10

/-- The hottest valid sensor of a range, as a field; 0 with none. -/
def classMax (s : State) (lo n : Nat) : Nat :=
  match hottest s ((List.range n).map (· + lo)) with
  | some p => unsignedOf 8 p.2
  | none => 0

/-- R480: a throttle step, or the force of OVER_MAX, is in force. -/
def throttling (s : State) : Bool :=
  s.power.thermal.any (fun p => p.2 != 0) || (List.range 12).any (fun k => (stackAt s k).overMax)

/-- R480: THERM_ALERT; above the lid maximum too (R487). -/
def thermAlert (s : State) : Bool :=
  throttling s || ((sensorAt s 215).valid && decide (70 < (sensorAt s 215).temp))

def thmRead (s : State) (o : Nat) : Nat :=
  if o < 0xC00000 + 4 * 216 then sensorWord (sensorAt s ((o - 0xC00000) / 4))
  else if o = oThmStatus then
    classMax s 0 96 + put (classMax s 96 112) 8 + put (classMax s 208 7) 16 + put (b2n (throttling s)) 24
      + put (b2n (thermAlert s)) 25
  else (regGet s o).toNat

/-! ### LOG_ and the event log read window (R496, R503) -/

/-- R496: a record as its 64 bytes, little-endian. -/
def recNat (r : Rec) : Nat :=
  r.time.toNat
    + put (r.lseq.toNat + put r.cls 32 + put (b2n r.coalesced) 36 + put (b2n r.summary) 37 + put r.source 40
        + put r.sub 48 + put r.kind 56) 64
    + put (r.jobtag.toNat + put (r.tag % 4096) 32 + put (r.unit % 65536) 48) 128
    + put (r.count % 2 ^ 32 + put (r.span % 2 ^ 32) 32) 192
    + put r.payload.toNat 256

/-- 32-bit word w of a record. -/
def recWord (r : Rec) (w : Nat) : Nat := recNat r / 2 ^ (32 * w) % 2 ^ 32

/-- The record at a place of a table; 0 where none has been written. -/
def recAt (t : Table Rec) (i w : Nat) : Nat := match t.find? (fun p => p.1 == i) with | some p => recWord p.2 w | none => 0

def logRead (s : State) (o : Nat) : Nat :=
  if o = oLogTimeLo then fld s.time 31 0
  else if o = oLogTimeHi then s.log.timeHi.toNat
  else if o = oLogInit then s.phase + put s.lastReset 4
  else if o = oLogStatus then s.log.wptr + (regGet s o).toNat + put s.log.ingress.length 17
  else if 0xD00100 ≤ o ∧ o < 0xD00300 then recAt s.log.first ((o - 0xD00100) / 64) (o % 64 / 4)
  else if 0xE00000 ≤ o then recAt s.log.ring ((o - 0xE00000) / 64) (o % 64 / 4)
  else (regGet s o).toNat

/-! ### The whole of register space (R27) -/

/-- The value of the register word at a 4 B-aligned BAR0 offset. -/
def regRead (s : State) (o : Nat) : W32 :=
  w32 (if o < 0x100000 then hubRead s o
    else if o < 0x200000 then 0
    else if o < 0x400000 then coreRead s o
    else if o < 0x500000 then stkRead s o
    else if o < 0x600000 then qrnRead s o
    else if o < 0x700000 then dmaRead s o
    else if o < 0x800000 then ringRead s o
    else if o < 0x900000 then lnkRead s o
    else if o < 0xA00000 then twnRead s o
    else if o < 0xB00000 then secRead s o
    else if o < 0xC00000 then pwrRead s o
    else if o < 0xD00000 then thmRead s o
    else if o < 0x1000000 then logRead s o else 0)

/-- What a read leaves: LOG_TIME_LO latches (R503). -/
def afterRead (s : State) (o : Nat) : State := if o = oLogTimeLo then logTimeRead s else s

/-- Bytes of register space, read word by word in ascending order. -/
def barReadN : (fuel : Nat) → (o last : Nat) → State → List Byte × State
  | 0, _, _, s => ([], s)
  | n + 1, o, last, s =>
    if last ≤ o then ([], s)
    else
      let r := barReadN n (o + 4) last (afterRead s o)
      (leBytes 4 (regRead s o).toNat ++ r.1, r.2)

/-- The bytes of a range; a range that is not whole words reads the words that it touches. -/
def barRead (s : State) (o len : Nat) : List Byte × State :=
  let first := o / 4 * 4
  let r := barReadN (len / 4 + 2) first (o + len) s
  ((r.1.drop (o - first)).take len, r.2)

end Sys2Proof.Machine
end

