-- ==== Sys2Proof/Machine/RegWrite.lean ====
section
/-! DEFINITION. What a write of a register does (R12, R13, R28): the fields of the register maps by their access types, and
the registers whose write is an action or is stored otherwise. -/

namespace Sys2Proof.Machine

open Sys2Proof

/-! ### Access types (R12, R13) -/

/-- RW and RS bits take the written value, RW1C bits written 1 are cleared, every other bit stays. -/
def writtenBits (d : RegDef) (old v : W32) : W32 :=
  let m := w32 d.rw ||| w32 d.rs
  (old &&& ~~~m &&& ~~~(v &&& w32 d.w1c)) ||| (v &&& m)

def plainWrite (s : State) (o : Nat) (v : W32) : State := regSet s o (writtenBits (regDef o) (regGet s o) v)

/-- A plain write of a value one of whose fields is stored otherwise: below `lo` or above `hi` as `d`. -/
def storedAs (v : W32) (hi lo least most d : Nat) : W32 :=
  if fld v hi lo < least ∨ most < fld v hi lo then setFld v hi lo d else v

/-- R486: a field clamped into a range. -/
def clamped (v : W32) (hi lo least most : Nat) : W32 := setFld v hi lo (max least (min most (fld v hi lo)))

/-! ### The blocks -/

/-- R394: word w of the MSI-X table. -/
def msixWrite (s : State) (w : Nat) (v : W32) : State :=
  let n := w / 4
  let e := msixAt s n
  match w % 4 with
  | 0 => setMsix s n { e with addrLo := v &&& 0xFFFFFFFC }
  | 1 => setMsix s n { e with addrHi := v }
  | 2 => setMsix s n { e with data := v }
  | _ =>
    if bitOf v 0 then setMsix s n { e with masked := true }
    else if h : n < 1025 then msixUnmask ⟨n, h⟩ s else s

def hubWrite (s : State) (o : Nat) (v : W32) : State :=
  if o = oCfgCtl then cfgCtlWrite s v
  else if oMsixTable ≤ o ∧ o < oMsixTable + 16 * 1025 then msixWrite s ((o - oMsixTable) / 4) v
  else plainWrite s o v

/-- The page of an absent core ignores writes (R28). -/
def coreWrite (s : State) (o : Nat) (v : W32) : State :=
  if 0x201000 ≤ o ∧ o < 0x201000 + 1200 * 0x400 then
    let p := (o - 0x201000) % 0x400
    if !corePresent s ((o - 0x201000) / 0x400) then s
    else if p = cCtl2 then plainWrite s o (storedAs v 15 0 1 65535 2048)
    else if p = cTrap0 then (if bitOf v 31 then regSetFld s o 31 30 0 else s)
    else plainWrite s o v
  else plainWrite s o v

def stkWrite (s : State) (o : Nat) (v : W32) : State :=
  let p := o % 0x10000
  if 0x4C0000 ≤ o then plainWrite s o v
  else if p = kSched then plainWrite s o (storedAs v 4 0 1 31 16)
  else if p = kScrub then plainWrite s o (storedAs v 7 0 1 255 24)
  else if p = kSpareReq then spareReq s (Fin.ofNat 12 ((o - 0x400000) / 0x10000)) v
  else if p = kFlipCtl then flipArm (Fin.ofNat 12 ((o - 0x400000) / 0x10000)) v s
  else plainWrite s o v

def qrnWrite (s : State) (o : Nat) (v : W32) : State :=
  if (tableStack o).isSome then seqTableWrite o v s
  else if o = oPk1Ctl then (if bitOf v 0 then pk1Enable s else pk1Disable s)
  else if o = oPk1Db then pk1Doorbell (BitVec.ofNat 16 (fld v 15 0)) s
  else if o = oPk1Status then (if bitOf v 16 then pk1Skip s else s)
  else plainWrite s o v

/-- R285, R291: HOLD, and the actions; more than one act as ABORT alone, and HOLD 0 acts as ABORT on a halted channel. -/
def dmaCtlWrite (s : State) (g : Fin 64) (v : W32) : State :=
  let s := plainWrite s (oDma g dCtl) v
  if bitOf v 10 || (bitOf v 8 && bitOf v 9) || (decide ((dmaAt s g).st = .halted) && !bitOf v 0) then abort g s
  else if bitOf v 8 then resume g s
  else if bitOf v 9 then skip g s
  else s

def dmaWrite (s : State) (o : Nat) (v : W32) : State :=
  if o < 0x604000 then
    let g : Fin 64 := Fin.ofNat 64 ((o - 0x600000) / 0x100)
    let p := o % 0x100
    if p = dCtl then dmaCtlWrite s g v
    else if p = dStartHi then go g v s
    else plainWrite s o v
  else plainWrite s o v

def ringWrite (s : State) (o : Nat) (v : W32) : State :=
  let n : Fin 1024 := Fin.ofNat 1024 ((o - 0x700000) / 0x400)
  let p := o % 0x400
  if h : p / 4 < 5 then ringConfigWrite n ⟨p / 4, h⟩ v s
  else if p = rCtl then ringCtlWrite s n v
  else if p = rIrq then ringIrqWrite s n v
  else plainWrite s o v

/-- R362, R453: LNK_IDE_CTL is fixed while the owner's policy requires IDE. -/
def lnkWrite (s : State) (o : Nat) (v : W32) : State :=
  if o = oLnkCtl then plainWrite s o (storedAs (storedAs v 10 8 1 4 4) 23 16 1 255 20)
  else if o = oIdeCtl then
    (if s.flash.ideReq ∧ s.otp.state = .deployed then s else hostFlush (plainWrite s o v))
  else plainWrite s o v

/-- R458: SEC_PKG_CMD by its OP. -/
def pkgCmdWrite (s : State) (v : W32) : State :=
  match fld v 1 0 with
  | 0 => if pkgBusy s then cmdIgnored s else s
  | 1 => pkgLoad v s
  | 2 => pkgUnload v s
  | _ => pkgCmdReserved v s

def secWrite (s : State) (o : Nat) (v : W32) : State :=
  if o = oPkgCmd then pkgCmdWrite s v
  else if o = oFwCtl then
    let s := if bitOf v 0 then fwGo s else s
    if bitOf v 1 then svnCommit s else s
  else plainWrite s o v

/-- R486: the fields of PWR_CTL are stored, then REQ acts. -/
def pwrCtlWrite (s : State) (v : W32) : State :=
  let s := plainWrite s oPwrCtl v
  match fld v 1 0 with
  | 1 => reqActive s
  | 2 => reqStandby s
  | _ => s

def pwrWrite (s : State) (o : Nat) (v : W32) : State :=
  if o = oPwrCap then plainWrite s o (clamped v 8 0 150 450)
  else if o = oPwrCtl then pwrCtlWrite s v
  else if o = oBrakeCtl then plainWrite s o (clamped v 7 0 12 255)
  else if oPwrTok 0 ≤ o ∧ o ≤ oPwrTok 2 then pwrTok (Fin.ofNat 3 ((o - oPwrTok 0) / 4)) v s
  else plainWrite s o v

def thmWrite (s : State) (o : Nat) (v : W32) : State :=
  if o = oThmCtl then plainWrite s o (storedAs v 4 0 3 31 10) else plainWrite s o v

/-- R503, R495: a FAULT whose cause persists is not cleared. -/
def logStatusWrite (s : State) (v : W32) : State :=
  let s := plainWrite s oLogStatus (v &&& w32 0x8000)
  if bitOf v 16 then faultClear s else s

/-- R498, R503: LOG_CNT_CLR. -/
def cntClrWrite (s : State) (v : W32) : State :=
  let s := if bitOf v 0 then clearPerf s else s
  if bitOf v 1 then clearErr s else s

def logWrite (s : State) (o : Nat) (v : W32) : State :=
  if o = oLogCtl then plainWrite s o (storedAs v 23 16 1 255 1)
  else if o = oLogStatus then logStatusWrite s v
  else if o = oLogCntClr then cntClrWrite s v
  else if o = oTraceSize then plainWrite s o (storedAs v 5 0 12 34 20)
  else plainWrite s o v

/-! ### The whole of register space (R27, R29) -/

/-- A write of the register word at a BAR0 offset; nothing lies at an offset that is no word's. -/
def barWrite (s : State) (o : Nat) (v : W32) : State :=
  if o % 4 ≠ 0 then s
  else if o < 0x100000 then hubWrite s o v
  else if o < 0x200000 then s
  else if o < 0x400000 then coreWrite s o v
  else if o < 0x500000 then stkWrite s o v
  else if o < 0x600000 then qrnWrite s o v
  else if o < 0x700000 then dmaWrite s o v
  else if o < 0x800000 then ringWrite s o v
  else if o < 0x900000 then lnkWrite s o v
  else if o < 0xA00000 then plainWrite s o v
  else if o < 0xB00000 then secWrite s o v
  else if o < 0xC00000 then pwrWrite s o v
  else if o < 0xD00000 then thmWrite s o v
  else if o < 0xE00000 then logWrite s o v
  else s

/-- REGISTER_WRITE (R12). -/
def registerWrite (off : Nat) (value : BitVec 32) (s : State) : State := barWrite s off value

/-- The whole words of a byte range, in ascending order (log 62). -/
def wordsOf (o : Nat) (bs : List Byte) : List (Nat × W32) :=
  let skip := (4 - o % 4) % 4
  let body := bs.drop skip
  ((words32 (body.length / 4) body).zipIdx).map (fun p => (o + skip + 4 * p.2, p.1))

/-- Register words written in ascending address order (R289). -/
def barWriteBytes (s : State) (o : Nat) (bs : List Byte) : State :=
  (wordsOf o bs).foldl (fun s p => barWrite s p.1 p.2) s

end Sys2Proof.Machine
end

