-- ==== Sys2Proof/Machine/Sluice.lean ====
section
/-! DEFINITION. The sluice (R288–R290), and the answers to reads of host memory (R343). -/

namespace Sys2Proof.Machine

open Sys2Proof

/-- The side of a transfer that has a device address: the destination of a host source. -/
def sluiceDa (d : Desc) : Nat := if dSas d then d.w2.toNat else d.w1.toNat
def sluiceHost (d : Desc) : Nat := if dSas d then d.w1.toNat else d.w2.toNat

/-- R289: a register transfer that is not made of whole words. -/
def regMisaligned (s : State) (d : Desc) : Bool :=
  match daKind s (sluiceDa d) with
  | .reg off => off % 4 != 0 || dBlklen d % 4 != 0
  | _ => false

/-- R447: the sluice holds no authority, so a sealed scratchpad is not read. -/
def sluiceSealed (s : State) (d : Desc) : Bool :=
  !dSas d && rangeSealRefused s none (sluiceDa d) (dBlklen d) false

/-- Bytes read for a host destination: their source faults at its first poisoned line (log 47). -/
def sluiceRead (s : State) (d : Desc) : List Byte × Bool × State :=
  match daKind s (sluiceDa d) with
  | .reg off => let r := barRead s off (dBlklen d); (r.1, false, r.2)
  | _ =>
    let r := daRead s (sluiceDa d) (dBlklen d)
    let n := cleanBytes (sluiceDa d) r.2.1 (dBlklen d)
    (r.1.take n, decide (n < dBlklen d), r.2.2)

/-- Bytes from the host are written at their device address. -/
def sluiceStore (s : State) (d : Desc) (bs : List Byte) : State :=
  match daKind s (sluiceDa d) with
  | .reg off => barWriteBytes s off bs
  | _ => daWrite s (fun _ => 2) (sluiceDa d) bs []

def setSluice (s : State) (id : Nat) (f : Sluice → Sluice) : State :=
  { s with sluices := s.sluices.map (fun (x : Sluice) => if x.id = id then f x else x) }

/-- The outcome of a transfer is known. -/
def sluiceStatus (s : State) (id status : Nat) : State := setSluice s id (fun x => { x with status := some status })

/-- R277, R289: what is wrong with a transfer before any byte moves. -/
def sluiceFault (s : State) (d : Desc) : Option Nat :=
  if regMisaligned s d then some 1
  else if sluiceSealed s d then some 5
  else if arrivalBad d d.w2.toNat (dBlklen d) then some 7
  else none

/-- R343, R290: the host's answer for a transfer; a host source with poison or an error moves no byte. -/
def sluiceHostData (s : State) (id : Nat) (answer : HostAnswer) : State :=
  match s.sluices.find? (fun x => x.id == id) with
  | none => s
  | some x =>
    if x.status.isSome ∨ x.got.isSome then s
    else match sluiceFault s x.d with
      | some c => sluiceStatus s id (causeStatus c)
      | none =>
        match answer with
        | .error => sluiceStatus s id 0xC
        | .data _ true => sluiceStatus s id 0xB
        | .data bs false =>
          if rangeWaits s (sluiceDa x.d) (dBlklen x.d) true then setSluice s id (fun x => { x with got := some bs })
          else sluiceStatus (caused s (dJobtag x.d) 0xFFF (fun s => sluiceStore s x.d (bs.take (dBlklen x.d)))) id 0

/-- The ring that a transfer came from. -/
def sluiceRing (s : State) (x : Sluice) : Nat := ringOf s x.did

/-- R290: an earlier transfer of the same ring has no completion yet. -/
def sluiceBehind (s : State) (x : Sluice) : Bool :=
  (s.sluices.takeWhile (fun y => y.id != x.id)).any (fun y => sluiceRing s y == sluiceRing s x)

/-- The CAUSE that a fault status stands for (R283, R384). -/
def statusCause (status : Nat) : Nat :=
  match status with
  | 0xC => 1 | 0xB => 2 | 0xD => 3 | 0xF => 5 | 0x11 => 7 | _ => 0

/-- A transfer ends: counts, the fault's event, and its completion. -/
def endSluice (s : State) (x : Sluice) (status : Nat) : State :=
  let ring := sluiceRing s x
  let cause := statusCause status
  let s : State := { s with
    sluices := s.sluices.filter (fun y => y.id != x.id)
    link := { s.link with reads := s.link.reads.filter (fun p => p.2 != .sluice x.id) } }
  let s := countIf (count s oSluCnt) (status != 0) oSluErrCnt
  let s := if status = 0xF then sealedRefuse s 3 ring (sluiceDa x.d) (dJobtag x.d) else s
  let s := if status = 0 then s else event s (haltClass cause) 5 1 status ring 0 (dJobtag x.d)
  complete s x.did { status := status, info0 := if status = 0 then 0 else dTch x.d + put cause 8, done := b2n (status == 0) }

/-- R277: the arrival of a transfer; it waits for a place of Q12. -/
def sluiceArrival (s : State) (x : Sluice) : Option State :=
  if dArr x.d then pushQ12 s (dAcore x.d) (arrivalEntry x.d (x.d.w2.toNat) (dBlklen x.d)) else some s

/-- A transfer whose outcome is known ends, an ST_OK once its arrival is pushed. -/
def settleSluice (s : State) (x : Sluice) (status : Nat) : State :=
  if status ≠ 0 then endSluice s x status
  else match sluiceArrival s x with
    | some s => endSluice s x 0
    | none => sluiceStatus s x.id 0

/-- Bytes from the host that waited for their destination (R62, R80) are written. -/
def storeLate (s : State) (x : Sluice) (bs : List Byte) : State :=
  if rangeWaits s (sluiceDa x.d) (dBlklen x.d) true then s
  else settleSluice (caused s (dJobtag x.d) 0xFFF (fun s => sluiceStore s x.d (bs.take (dBlklen x.d)))) x 0

/-- A transfer towards host memory is performed. -/
def runSluice (s : State) (x : Sluice) : State :=
  match sluiceFault s x.d with
  | some c => settleSluice s x (causeStatus c)
  | none =>
    let r := sluiceRead s x.d
    let s := r.2.2
    let s := if r.1.isEmpty then s else hostWriteOut s (sluiceHost x.d) r.1 (relaxedWrite s (!dBar x.d))
    settleSluice s x (if r.2.1 then 0xB else 0)

/-- SLUICE_COMPLETE (R290): in order of acceptance within a ring. A host source without an answer has timed out (R284); a
host destination needs the link. -/
def sluiceComplete (xfer : Nat) (s : State) : State :=
  match s.sluices.find? (fun x => x.id == xfer) with
  | none => s
  | some x =>
    if sluiceBehind s x then s
    else match x.status with
      | some status => settleSluice s x status
      | none =>
        match x.got with
        | some bs => storeLate s x bs
        | none =>
          if dSas x.d then settleSluice s x 0xD
          else if linkCarries s && !rangeWaits s (sluiceDa x.d) (dBlklen x.d) then runSluice s x else s

/-- HOST_MEMORY_READ_RESPONSE (R343): the read named by the tag is answered. -/
def hostMemoryReadResponse (tag : Nat) (answer : HostAnswer) (s : State) : State :=
  match (s.link.reads.find? (fun p => p.1 == tag)).map (·.2) with
  | none => s
  | some who =>
    let s : State := { s with link := { s.link with reads := tdel tag s.link.reads } }
    match who with
    | .dma g => dmaHostData s g tag answer
    | .sluice id => sluiceHostData s id answer
    | .package => pkgHostData s answer

end Sys2Proof.Machine
end

