-- ==== Sys2Proof/Machine/HostPort.lean ====
section
/-! DEFINITION. Requests from the host and its peers (R336, R339, R340, R346, R354–R356), and the IEEE 1149.1 port (R438,
R447, R509). -/

namespace Sys2Proof.Machine

open Sys2Proof

/-! ### How a request is received -/

inductive Received where
  | perform | refuse | drop
  deriving DecidableEq, Repr

/-- R354: the request travels in a stream in the Secure state. -/
def inSecureStream (s : State) (a : HostAttr) : Bool :=
  match a.stream with
  | some k => bitOf s.link.ideSel k.val
  | none => a.secure && s.link.ideLink == 1

/-- R336, R354: Unsupported Request; R355: a request of an Insecure selective stream is dropped; a link that is not UP
brings none. -/
def received (s : State) (a : HostAttr) : Received :=
  if s.link.st ≠ .up then .drop
  else if (match a.stream with | some k => !bitOf s.link.ideSel k.val | none => false) then .drop
  else if s.link.cfgOnly || (ideRequired s && !inSecureStream s a) then .refuse
  else .perform

/-- R339: the size of a range. -/
def spaceSize : HostSpace → Nat
  | .bar0 => 0x1000000
  | .bar2 => 0x400000
  | .window => windowSize

/-! ### Posted writes (R346) -/

/-- R366: a doorbell page has two doorbells. -/
def bar2Write (s : State) (o : Nat) (v : W32) : State :=
  let n : Fin 1024 := Fin.ofNat 1024 (o / 4096)
  if o % 4096 = 0 then sqTail n v s
  else if o % 4096 = 8 then cqHead n v s
  else s

/-- R340, R341, R356: a write of the window; the host's own write-back leaves it no copy. -/
def windowHostWrite (s : State) (off : Nat) (bs : List Byte) (writeBack : Bool) : State :=
  if s.link.mode ≠ .pcie ∧ writeBack then
    let s := (linesOf off bs.length).foldl (fun s l => setLine s l .i) s
    { s with window := mwrite s.window off bs }
  else windowWrite s off bs

/-- HOST_POSTED_WRITE (R346): performed as it arrives; bytes beyond the range reach nothing. -/
def hostPostedWrite (space : HostSpace) (off : Nat) (data : List (BitVec 8)) (attr : HostAttr) (s : State) : State :=
  match received s attr with
  | .drop => s
  | .refuse => emit s (.unsupported attr.tag)
  | .perform =>
    if spaceSize space < off + data.length then emit s (.unsupported attr.tag)
    else match space with
      | .bar0 => barWriteBytes s off data
      | .bar2 => (wordsOf off data).foldl (fun s p => bar2Write s p.1 p.2) s
      | .window => windowHostWrite s off data attr.exclusive

/-! ### Reads (R346) -/

/-- R340: the host's copy of a line that it reads. -/
def hostCopy (exclusive : Bool) (s : State) (line : Nat) : State :=
  if s.link.mode = .pcie then s
  else if exclusive then setLine s line .em
  else if tget .i s.link.window line = .em then s else setLine s line .s

/-- R362: while the link is down its registers can be read over the management interface (log 81). -/
def mgmtReads (s : State) (space : HostSpace) (off len : Nat) : Bool :=
  space == .bar0 && decide (s.link.st ≠ .up) && portUp s .mgmt && decide (0x800000 ≤ off) && decide (off + len ≤ 0x800020)

/-- HOST_READ (R346, R366): answered from registers or the window; a doorbell page reads 0. While the link is down, the read of
the link registers is the management interface's (R362). -/
def hostRead (space : HostSpace) (off len : Nat) (attr : HostAttr) (s : State) : State :=
  match received s attr with
  | .drop => if mgmtReads s space off len then let r := barRead s off len; emit r.2 (.completion attr.tag r.1) else s
  | .refuse => emit s (.unsupported attr.tag)
  | .perform =>
    if spaceSize space < off + len then emit s (.unsupported attr.tag)
    else match space with
      | .bar0 => let r := barRead s off len; emit r.2 (.completion attr.tag r.1)
      | .bar2 => emit s (.completion attr.tag (zeros len))
      | .window =>
        emit ((linesOf off len).foldl (hostCopy attr.exclusive) s) (.completion attr.tag (mread s.window off len))

/-! ### JTAG (R438, R447, R509) -/

/-- What a debug level permits of an address: DRAM outside sealed channels and scratchpads of unsealed cores; the
window for VENDOR only. -/
def jtagRange (s : State) (da len : Nat) : Bool :=
  !rangeError s da len
    && (decide (s.sec.debug = .vendor)
      || (units32 da len).all (fun p => match daKind s (p.1 % 2 ^ 48) with | .window _ => false | _ => true))

def jtagAnswer (s : State) (bs : List Byte) : State := emit s (.jtag bs)

/-- R447: a read of the sealed region returns 0, counts and logs. -/
def jtagSealed (s : State) (da len : Nat) : State := jtagAnswer (sealedRefuse s 4 0 da) (zeros len)

/-- A read that waits for a stream or a stack has no answer yet (R62, R80). -/
def jtagRead (s : State) (da len : Nat) : State :=
  if !jtagRange s da len then jtagAnswer s (zeros len)
  else if rangeWaits s da len then s
  else if rangeSealRefused s none da len false then jtagSealed s da len
  else let r := daRead s da len; jtagAnswer r.2.2 r.1

/-- A write of sealed DRAM is refused; the scratchpad of a sealed core is not the level's to write (R438). -/
def jtagWrite (s : State) (da : Nat) (data : List Byte) : State :=
  if !jtagRange s da data.length ∨ rangeWaits s da data.length true ∨ (daKind s da = .dram ∧ regGet s oCfgEpoch = 0) then s
  else if rangeSealRefused s none da data.length true then sealedRefuse s 4 0 da
  else if rangeSealRefused s none da data.length false then s
  else daWrite s (fun _ => 2) da data []

/-- R438: what the level permits. -/
def jtagPermitted (s : State) (access : JtagAccess) : State :=
  match access with
  | .bypass => jtagAnswer s []
  | .idcode => let d := draw s; jtagAnswer d.2 (leBytes 4 d.1.toNat)
  | .readReg o => jtagAnswer (afterRead s (o / 4 * 4)) (leBytes 4 (regRead s (o / 4 * 4)).toNat)
  | .writeReg o v => barWrite s o v
  | .readMem da len => jtagRead s da len
  | .writeMem da data => jtagWrite s da data
  | .readImem n i =>
    if !corePresent s n ∨ (coreAt s n).sealedBy.isSome then jtagAnswer s (zeros 16)
    else jtagAnswer s (leBytes 16 (tget 0 (coreAt s n).imem i.val).toNat)
  | .writeImem n i w =>
    if !corePresent s n ∨ (coreAt s n).sealedBy.isSome then s
    else modCore s n (fun c => { c with imem := tset 0 i.val w c.imem, imemErr := tdel i.val c.imemErr })
  | .arwyn => if s.sec.debug = .vendor then jtagAnswer s [] else s

/-- JTAG_ACCESS (R438, R509): the port is unpowered in STANDBY and OFF; at LOCKED only its bypass and identification
registers answer. -/
def jtagAccess (access : JtagAccess) (s : State) : State :=
  match s.power.st with
  | .standby => s
  | .off => s
  | _ =>
    match s.sec.debug, access with
    | .locked, .bypass => jtagPermitted s access
    | .locked, .idcode => jtagPermitted s access
    | .locked, _ => s
    | _, _ => jtagPermitted s access

end Sys2Proof.Machine
end

