-- ==== Sys2Proof/Machine/Matrix.lean ====
section
/-! DEFINITION. The matrix unit (R230–R239). -/

namespace Sys2Proof.Machine

open Sys2Proof

/-- MMA (R236), MSCL (R235), MLDC (R231): the issue. -/
def mma (core : Fin 1200) (s : State) : State := engIssue s core 5 0
def mscl (core : Fin 1200) (s : State) : State := engIssue s core 5 1
def mldc (core : Fin 1200) (s : State) : State := engIssue s core 5 2

/-! ### Formats -/

def fp8 (f : Nat) : Bool := f == 3 || f == 4
def mx8to12 (f : Nat) : Bool := decide (8 ≤ f ∧ f ≤ 12)
def mx6or4 (f : Nat) : Bool := decide (10 ≤ f ∧ f ≤ 12)
def isMx (f : Nat) : Bool := decide (8 ≤ f ∧ f ≤ 13)

/-- R233: the accepted pairs. -/
def mmaPair (a b : Nat) : Bool :=
  (fp8 a && fp8 b) || (fp8 a && mx8to12 b) || (mx8to12 a && fp8 b) || (mx8to12 a && mx8to12 b)
    || (a == 13 && b == 13) || (a == 2 && b == 2)

/-- R239: the cclk with a k-step, K ÷ r. -/
def mmaSteps (a b kb : Nat) : Nat := if mx6or4 a && mx6or4 b then 16 * kb else if a = 2 then 64 * kb else 32 * kb

/-- Bits and FMT of the output tile (R232, R236). -/
def tileBits (outfmt : Nat) : Nat := if outfmt = 0 then 32 else if outfmt = 1 then 16 else 8

/-! ### Checks (R262) -/

def mmaFault (c : Core) (e : EngInstr) : Option Nat :=
  let a := engSrc e 0
  let b := engSrc e 1
  let o := engSrc e 2
  let kb := mKb e.word
  firstFault [
    (1, !mmaPair (eFmt a) (eFmt b)),
    (2, decide (8 * eLen a < 512 * kb * fmtBits (eFmt a)) || decide (8 * eLen b < 512 * kb * fmtBits (eFmt b))
      || (mFin e.word && decide (eLen o < 32 * tileBits (mOutfmt e.word)))),
    (3, mFin e.word && (handleOverlap o a || handleOverlap o b)),
    (5, (isMx (eFmt a) && decide (c.mat.saKb = 0 ∨ c.mat.saKb < kb))
      || (isMx (eFmt b) && decide (c.mat.sbKb = 0 ∨ c.mat.sbKb < kb)))]

def msclFault (e : EngInstr) : Option Nat :=
  let bad := fun i => engUses e i && eFmt (engSrc e i) != 0
  let short := fun i => engUses e i && decide (eLen (engSrc e i) < 16 * mKb e.word)
  firstFault [(1, bad 0 || bad 1), (2, short 0 || short 1)]

def mldcFault (e : EngInstr) : Option Nat :=
  firstFault [(1, eFmt (engSrc e 0) != 1), (2, decide (eLen (engSrc e 0) < 1024))]

/-! ### Arithmetic (R238) -/

/-- The exact sum of the products of one block, from element `k` on. -/
def dot (a b : Nat → FV) : (n k : Nat) → FV → FV
  | 0, _, acc => acc
  | n + 1, k, acc => dot a b n (k + 1) (acc.add ((a k).mul (b k)))

/-- One block added to an accumulator element: the new value and its MAT_ flags. -/
def mmaBlock (acc : W32) (partialSum scale : FV) : W32 × Nat :=
  let p := round32 true (partialSum.mul scale)
  let r := add32 true acc p.1
  let bad := (dec32 p.1).isNan || ((dec32 r.1).isNan && !(dec32 acc).isNan)
  (r.1, (if bad then vsMatNan else 0) + (if p.2 || r.2 then vsMatOvf else 0))

/-- The E8M0 scale of a row and block, or 1 for an operand without scales. -/
def scaleOf (mx : Bool) (scales : List Byte) (kb row block : Nat) : FV :=
  if mx then decE8M0 (scales.getD (row * kb + block) 0).toNat else .one

/-- All blocks of one element, in ascending order. -/
def mmaElem (a b : Nat → FV) (scale : Nat → FV) : (n block : Nat) → W32 → Nat → W32 × Nat
  | 0, _, acc, fl => (acc, fl)
  | n + 1, block, acc, fl =>
    let r := mmaBlock acc (dot a b 32 (32 * block) .zero) (scale block)
    mmaElem a b scale n (block + 1) r.1 (fl ||| r.2)

/-- The accumulator after an MMA, with the flags raised. -/
def mmaTile (s : State) (n : Nat) (m : MatUnit) (e : EngInstr) (acc : Table W32) : Table W32 × Nat :=
  let a := engSrc e 0
  let b := engSrc e 1
  let kb := mKb e.word
  let el := fun (h : W64) (row k : Nat) =>
    fmtValue (eFmt h) (elemGet s n (eOff h) (fmtBits (eFmt h)) (row * (32 * kb) + k))
  (List.range 256).foldl (fun (r : Table W32 × Nat) x =>
    let scale := fun blk => (scaleOf (isMx (eFmt a)) m.sa m.saKb (x / 16) blk).mul
      (scaleOf (isMx (eFmt b)) m.sb m.sbKb (x % 16) blk)
    let v := mmaElem (el a (x / 16)) (el b (x % 16)) scale kb 0 (tget 0 acc x) r.2
    (tset 0 x v.1 r.1, v.2)) (acc, 0)

/-- Output conversion of one element: bits and MAT_SAT. -/
def tileElem (outfmt : Nat) (sat : Bool) (v : W32) : Nat × Nat :=
  if outfmt = 0 then (v.toNat, 0)
  else
    let r := if outfmt = 1 then toBf16 sat (dec32 v) else toE4M3 sat (dec32 v)
    (r.1, if r.2 && sat then vsMatSat else 0)

/-! ### Completion -/

def accOf (m : MatUnit) (one : Bool) : Table W32 := if one then m.acc1 else m.acc0
def accPoison (m : MatUnit) (one : Bool) : Bool := if one then m.poison1 else m.poison0

def setAcc (m : MatUnit) (one : Bool) (t : Table W32) (poison : Bool) : MatUnit :=
  if one then { m with acc1 := t, poison1 := poison } else { m with acc0 := t, poison0 := poison }

/-- R236: an MMA's work on its accumulator. -/
def mmaRun (s : State) (n : Nat) (e : EngInstr) : State :=
  let m := (coreAt s n).mat
  let a := engSrc e 0
  let b := engSrc e 1
  let one := mAcc1 e.word
  let kb := mKb e.word
  let acc := if mZero e.word then [] else accOf m one
  let r := mmaTile s n m e acc
  let poison := (!mZero e.word && accPoison m one)
    || linesPoison s n (eOff a) (64 * kb * fmtBits (eFmt a)) || linesPoison s n (eOff b) (64 * kb * fmtBits (eFmt b))
  let s := modCore s n (fun c => { c with mat := setAcc c.mat one r.1 poison })
  countBy (orVstat s n (r.2 + (if poison then vsPoison else 0))) (oCore n cMatCnt) (mmaSteps (eFmt a) (eFmt b) kb)

/-- R236: the accumulator, converted to OUTFMT, is copied into the output buffer. -/
def mmaCopyOut (s : State) (n : Nat) (e : EngInstr) : State :=
  let m := (coreAt s n).mat
  let fmt := mOutfmt e.word
  let tile := (List.range 256).map (fun i => tileElem fmt (mSat e.word) (tget 0 (accOf m (mAcc1 e.word)) i))
  let s := modCore s n (fun c => { c with
    mat := { c.mat with out := tile.flatMap (fun v => leBytes (tileBits fmt / 8) v.1) } })
  orVstat s n (tile.foldl (fun a v => a ||| v.2) 0)

/-- R236: the output buffer is written to the region of SRC2, and the tile's handle arrives in Q14. -/
def mmaWriteOut (s : State) (n : Nat) (e : EngInstr) : State :=
  let m := (coreAt s n).mat
  let fmt := mOutfmt e.word
  let poison := accPoison m (mAcc1 e.word)
  let s := writeElems s n (eOff (engSrc e 2)) (tileBits fmt) ((List.range 256).map (fun i =>
    { i := i, bits := sliceNat m.out (tileBits fmt / 8 * i) (tileBits fmt / 8), poison := poison }))
  modCore s n (fun c => { qPush c 14 (mkHandle (eOff (engSrc e 2)) (32 * tileBits fmt) (fmt + 1) poison (iTag e.word)) with
    q14rsv := c.q14rsv - 1 })

/-- R236: the tile leaves the accumulator. -/
def mmaFinish (s : State) (n : Nat) (e : EngInstr) : State := mmaWriteOut (mmaCopyOut s n e) n e

/-- R235: the scales of one side. -/
def msclSide (s : State) (n kb : Nat) (h : W64) : List Byte := scratchRead s n (eOff h) (16 * kb)

def msclRun (s : State) (n : Nat) (e : EngInstr) : State :=
  let kb := mKb e.word
  let poison := (engUses e 0 && linesPoison s n (eOff (engSrc e 0)) (16 * kb))
    || (engUses e 1 && linesPoison s n (eOff (engSrc e 1)) (16 * kb))
  modCore s n (fun c =>
    let m := c.mat
    let m := if engUses e 0 then { m with sa := msclSide s n kb (engSrc e 0), saKb := kb } else m
    let m := if engUses e 1 then { m with sb := msclSide s n kb (engSrc e 1), sbKb := kb } else m
    { c with mat := { m with poison0 := m.poison0 || poison, poison1 := m.poison1 || poison } })

def mldcRun (s : State) (n : Nat) (e : EngInstr) : State :=
  let h := engSrc e 0
  let t := (List.range 256).foldl (fun t i => tset 0 i (w32 (elemGet s n (eOff h) 32 i)) t) ([] : Table W32)
  modCore s n (fun c => { c with mat := setAcc c.mat (mAcc1 e.word) t (linesPoison s n (eOff h) 1024) })

/-- The instruction at the matrix unit's head leaves it. -/
def matPop (s : State) (n : Nat) : State := modCore s n (fun c => { c with matq := c.matq.drop 1 })

def isFinMma (e : EngInstr) : Bool := iOp e.word == 0 && mFin e.word

/-- MMA_COMPLETE (R236): the head is an MMA with FIN. -/
def mmaComplete (core : Fin 1200) (s : State) : State :=
  let n := core.val
  match (coreAt s n).matq with
  | [] => s
  | e :: _ =>
    if isFinMma e && !coreHeld s n then
      let s := matPop s n
      match mmaFault (coreAt s n) e with
      | some code => engTrap (modCore s n (fun c => { c with q14rsv := c.q14rsv - 1 })) n code e
      | none => settleCore (mmaFinish (mmaRun s n e) n e) n
    else s

/-- What is wrong with a MAT instruction as it starts. -/
def matFault (c : Core) (e : EngInstr) : Option Nat :=
  match iOp e.word with
  | 0 => mmaFault c e
  | 1 => msclFault e
  | _ => mldcFault e

def matRun (s : State) (n : Nat) (e : EngInstr) : State :=
  match iOp e.word with
  | 0 => mmaRun s n e
  | 1 => msclRun s n e
  | _ => mldcRun s n e

/-- MATRIX_INSTRUCTION_COMPLETE (R239): the head is an MMA without FIN, an MSCL or an MLDC. -/
def matrixInstructionComplete (core : Fin 1200) (s : State) : State :=
  let n := core.val
  match (coreAt s n).matq with
  | [] => s
  | e :: _ =>
    if isFinMma e || coreHeld s n then s
    else
      let s := matPop s n
      match matFault (coreAt s n) e with
      | some code => engTrap s n code e
      | none => settleCore (matRun s n e) n

end Sys2Proof.Machine
end

