-- ==== Sys2Proof/Machine/Scalar.lean ====
section
/-! DEFINITION. The SCALAR class (R203). -/

namespace Sys2Proof.Machine

open Sys2Proof

/-- An operation that writes P[PD]. -/
def scalarP (s : State) (core op : Nat) (g : State → Fetch → W32) : State :=
  issue s core 1 op waitOf (fun s f => retire s f (fun c => pSet c (iPd f.w) (g s f)))

/-- A two-operand operation of R203. -/
def scalar2 (s : State) (core op : Nat) (g : W32 → W32 → W32) : State :=
  scalarP s core op (fun _ f => g (pGet f.c (iPa f.w)) (pGet f.c (iPb f.w)))

/-- An operation on P[PA] and IMM. -/
def scalarI (s : State) (core op : Nat) (g : W32 → W32 → W32) : State :=
  scalarP s core op (fun _ f => g (pGet f.c (iPa f.w)) (iImm f.w))

/-- An operation that writes F[FD]. -/
def scalarF (s : State) (core op : Nat) (g : Fetch → Bool) : State :=
  issue s core 1 op waitOf (fun s f =>
    modCore s f.n (fun c => modTask c f.t (fun t => advance (fSet t (iFd f.w) (g f)))))

/-- IMM[4:0], a shift amount. -/
def shAmount (imm : W32) : Nat := fld imm 4 0

def movi (core : Fin 1200) (s : State) : State := scalarI s core 0 (fun _ i => i)
def mov (core : Fin 1200) (s : State) : State := scalar2 s core 1 (fun a _ => a)
def add (core : Fin 1200) (s : State) : State := scalar2 s core 2 (fun a b => a + b)
def addi (core : Fin 1200) (s : State) : State := scalarI s core 3 (fun a i => a + i)
def sub (core : Fin 1200) (s : State) : State := scalar2 s core 4 (fun a b => a - b)
def mul (core : Fin 1200) (s : State) : State := scalar2 s core 5 (fun a b => a * b)
def and (core : Fin 1200) (s : State) : State := scalar2 s core 6 (fun a b => a &&& b)
def or (core : Fin 1200) (s : State) : State := scalar2 s core 7 (fun a b => a ||| b)
def xor (core : Fin 1200) (s : State) : State := scalar2 s core 8 (fun a b => a ^^^ b)
def shl (core : Fin 1200) (s : State) : State := scalarI s core 9 (fun a i => a <<< shAmount i)
def shr (core : Fin 1200) (s : State) : State := scalarI s core 10 (fun a i => a >>> shAmount i)
def sar (core : Fin 1200) (s : State) : State := scalarI s core 11 (fun a i => a.sshiftRight (shAmount i))
def minu (core : Fin 1200) (s : State) : State := scalar2 s core 12 (fun a b => if a.toNat ≤ b.toNat then a else b)
def maxu (core : Fin 1200) (s : State) : State := scalar2 s core 13 (fun a b => if a.toNat ≤ b.toNat then b else a)

/-- CMP, CMPI: F[FD] = COND. -/
def cmp (core : Fin 1200) (s : State) : State :=
  scalarF s core 14 (fun f => condHolds (iCond f.w) (pGet f.c (iPa f.w)) (pGet f.c (iPb f.w)))

def cmpi (core : Fin 1200) (s : State) : State :=
  scalarF s core 15 (fun f => condHolds (iCond f.w) (pGet f.c (iPa f.w)) (iImm f.w))

/-- LIDX (R202): the iteration of a loop level, 0 the innermost. -/
def lidx (core : Fin 1200) (s : State) : State :=
  scalarP s core 16 (fun _ f => match f.task.loops[fld (iImm f.w) 1 0]? with | some l => l.iter | none => 0)

def coreid (core : Fin 1200) (s : State) : State := scalarP s core 17 (fun _ f => w32 f.n)

/-- TIME: the low 32 bits of the module timestamp. -/
def time (core : Fin 1200) (s : State) : State := scalarP s core 18 (fun s _ => w32 s.time.toNat)

def fset (core : Fin 1200) (s : State) : State := scalarF s core 19 (fun f => bitOf (iImm f.w) 0)

end Sys2Proof.Machine
end

