-- ==== Sys2Proof/Machine/Exec.lean ====
section
/-! DEFINITION. The meaning of each command as an outcome: the state that its operation leaves, with the queue of waiting
commands as it was. One definition per row of the opcode table. -/

namespace Sys2Proof.Machine

open Sys2Proof

/-- Any command but those below has run: it leaves the queue (log 11), the fuses of manufacture (R2) and those of R435
and R456 as they were. -/
def ran (s t : State) : Host.Outcome State Fault Refusal :=
  .next { t with pending := s.pending, fuses := s.fuses, otp := s.otp }

/-- A command through which SVN_COMMIT can be written has run: the SVN fuse alone may rise, within its 64 steps (R456). -/
def ranSvn (s t : State) : Host.Outcome State Fault Refusal :=
  .next { t with
    pending := s.pending, fuses := s.fuses
    otp := { s.otp with svn := max s.otp.svn (min 64 t.otp.svn) } }

/-- A fuse write has completed (R435): the SVN stays. -/
def burned (s t : State) : Host.Outcome State Fault Refusal :=
  .next { t with pending := s.pending, fuses := s.fuses, otp := { t.otp with svn := s.otp.svn } }

/-- POWER_UP. -/
def execPowerUp (vin : Nat) (s : State) : Host.Outcome State Fault Refusal := ran s (powerUp vin s)

/-- POWER_SEQUENCE_STEP. -/
def execPowerSequenceStep (s : State) : Host.Outcome State Fault Refusal := ran s (powerSequenceStep s)

/-- MGMT_POWER_ON. -/
def execMgmtPowerOn (s : State) : Host.Outcome State Fault Refusal := ran s (mgmtPowerOn s)

/-- INPUT_LOST. -/
def execInputLost (s : State) : Host.Outcome State Fault Refusal := ran s (inputLost s)

/-- RAIL_POWER_GOOD_LOST. -/
def execRailPowerGoodLost (rail : Rail) (s : State) : Host.Outcome State Fault Refusal := ran s (railPowerGoodLost rail s)

/-- INPUT_CUT_THRESHOLD. -/
def execInputCutThreshold (vin : Nat) (s : State) : Host.Outcome State Fault Refusal := ran s (inputCutThreshold vin s)

/-- SUPPLY_FAULT_TIMEOUT. -/
def execSupplyFaultTimeout (vin : Nat) (s : State) : Host.Outcome State Fault Refusal := ran s (supplyFaultTimeout vin s)

/-- HARDWARE_TRIP. -/
def execHardwareTrip (s : State) : Host.Outcome State Fault Refusal := ran s (hardwareTrip s)

/-- RESET_N_ASSERTED. -/
def execResetNAsserted (s : State) : Host.Outcome State Fault Refusal := ran s (resetNAsserted s)

/-- MGMT_MODULE_RESET. -/
def execMgmtModuleReset (s : State) : Host.Outcome State Fault Refusal := ran s (mgmtModuleReset s)

/-- HOT_RESET. -/
def execHotReset (s : State) : Host.Outcome State Fault Refusal := ran s (hotReset s)

/-- FUNCTION_LEVEL_RESET. -/
def execFunctionLevelReset (s : State) : Host.Outcome State Fault Refusal := ran s (functionLevelReset s)

/-- INIT_PHASE_COMPLETE. -/
def execInitPhaseComplete (s : State) : Host.Outcome State Fault Refusal := ran s (initPhaseComplete s)

/-- BOOT_ROM. -/
def execBootRom (s : State) : Host.Outcome State Fault Refusal := ran s (bootRom s)

/-- RECOVERY_PARTNER_TIMEOUT. -/
def execRecoveryPartnerTimeout (s : State) : Host.Outcome State Fault Refusal := ran s (recoveryPartnerTimeout s)

/-- RECOVERY_IMAGE_ACCEPTED. -/
def execRecoveryImageAccepted (image : FwImage) (fromPartner : Bool) (s : State) : Host.Outcome State Fault Refusal :=
  ran s (recoveryImageAccepted image fromPartner s)

/-- WATCHDOG_EXPIRY. -/
def execWatchdogExpiry (cc : Fin 4) (s : State) : Host.Outcome State Fault Refusal := ran s (watchdogExpiry cc s)

/-- FIRMWARE_ASSERTION. -/
def execFirmwareAssertion (cc : Fin 4) (s : State) : Host.Outcome State Fault Refusal := ran s (firmwareAssertion cc s)

/-- CONTROL_CORE_FETCH_ERROR. -/
def execControlCoreFetchError (cc : Fin 4) (s : State) : Host.Outcome State Fault Refusal :=
  ran s (controlCoreFetchError cc s)

/-- CONTROL_CORE_RESTART_DONE. -/
def execControlCoreRestartDone (cc : Fin 4) (s : State) : Host.Outcome State Fault Refusal :=
  ran s (controlCoreResumes cc s)

/-- FAR_PATH_REQUEST. -/
def execFarPathRequest (port : Fin 5) (src : Nat) (auth : Option (Fin 4)) (da : Nat) (req : FarOp) (s : State) : Host.Outcome State Fault Refusal :=
  ran s (farPathRequest port src auth da req s)

/-- URGENCY_AGEING. -/
def execUrgencyAgeing (stack : Fin 12) (s : State) : Host.Outcome State Fault Refusal := ran s (urgencyAgeing stack s)

/-- SCHEDULER_GRANT. -/
def execSchedulerGrant (stack : Fin 12) (s : State) : Host.Outcome State Fault Refusal := ran s (schedulerGrant stack s)

/-- PAGE_IDLE_PRECHARGE. -/
def execPageIdlePrecharge (stack : Fin 12) (chan : Fin 32) (bank : Fin 68) (s : State) : Host.Outcome State Fault Refusal :=
  ran s (pageIdlePrecharge stack chan bank s)

/-- REFRESH_DUE. -/
def execRefreshDue (stack : Fin 12) (chan : Fin 32) (bank : Fin 68) (s : State) : Host.Outcome State Fault Refusal :=
  ran s (refreshDue stack chan bank s)

/-- REFRESH_REPAY. -/
def execRefreshRepay (stack : Fin 12) (chan : Fin 32) (bank : Fin 68) (s : State) : Host.Outcome State Fault Refusal :=
  ran s (refreshRepay stack chan bank s)

/-- SENSOR_SAMPLE. -/
def execSensorSample (sensor : Fin 216) (reading : Option Int) (s : State) : Host.Outcome State Fault Refusal :=
  ran s (sensorSample sensor reading s)

/-- CHANNEL_DELAY_SWITCH. -/
def execChannelDelaySwitch (stack : Fin 12) (chan : Fin 32) (s : State) : Host.Outcome State Fault Refusal :=
  ran s (channelDelaySwitch stack chan s)

/-- OVER_MAX_TIMEOUT. -/
def execOverMaxTimeout (stack : Fin 12) (s : State) : Host.Outcome State Fault Refusal := ran s (overMaxTimeout stack s)

/-- THROTTLE_STEP. -/
def execThrottleStep (target : ThermalUnit) (s : State) : Host.Outcome State Fault Refusal := ran s (throttleStep target s)

/-- THROTTLE_UNDO. -/
def execThrottleUndo (target : ThermalUnit) (s : State) : Host.Outcome State Fault Refusal := ran s (throttleUndo target s)

/-- BRAKE_COMPLETE. -/
def execBrakeComplete (s : State) : Host.Outcome State Fault Refusal := ran s (brakeComplete s)

/-- POWER_MEASUREMENT. -/
def execPowerMeasurement (vin pin : Nat) (s : State) : Host.Outcome State Fault Refusal := ran s (powerMeasurement vin pin s)

/-- GOVERNOR_PERIOD. -/
def execGovernorPeriod (s : State) : Host.Outcome State Fault Refusal := ran s (governorPeriod s)

/-- RATE_LIMITER_WINDOW. -/
def execRateLimiterWindow (domain : Fin 38) (power : Nat) (s : State) : Host.Outcome State Fault Refusal :=
  ran s (rateLimiterWindow domain power s)

/-- CLOCK_RELOCK. -/
def execClockRelock (clock : ClockId) (s : State) : Host.Outcome State Fault Refusal := ran s (clockRelock clock s)

/-- PWR_TOK. -/
def execPwrTok (role : Fin 3) (add : BitVec 32) (s : State) : Host.Outcome State Fault Refusal := ran s (pwrTok role add s)

/-- IDLE_ENTRY. -/
def execIdleEntry (s : State) : Host.Outcome State Fault Refusal := ran s (idleEntry s)

/-- IDLE_WAKE. -/
def execIdleWake (s : State) : Host.Outcome State Fault Refusal := ran s (idleWake s)

/-- REQ_STANDBY. -/
def execReqStandby (s : State) : Host.Outcome State Fault Refusal := ran s (reqStandby s)

/-- REQ_ACTIVE. -/
def execReqActive (s : State) : Host.Outcome State Fault Refusal := ran s (reqActive s)

/-- MGMT_WAKE. -/
def execMgmtWake (s : State) : Host.Outcome State Fault Refusal := ran s (mgmtWake s)

/-- STANDBY_EXIT_COMPLETE. -/
def execStandbyExitComplete (s : State) : Host.Outcome State Fault Refusal := ran s (standbyExitComplete s)

/-- ENTRY_END_TIMEOUT. -/
def execEntryEndTimeout (stack : Fin 12) (s : State) : Host.Outcome State Fault Refusal := ran s (entryEndTimeout stack s)

/-- CLEARING_COMPLETE. -/
def execClearingComplete (stack : Fin 12) (s : State) : Host.Outcome State Fault Refusal := ran s (clearingComplete stack s)

/-- STACK_LOADING_COMPLETE. -/
def execStackLoadingComplete (stack : Fin 12) (initOk : Bool) (failed : List Nat) (s : State) : Host.Outcome State Fault Refusal :=
  ran s (stackLoadingComplete stack initOk failed s)

/-- BASE_DIE_SELF_CHECK_FAULT. -/
def execBaseDieSelfCheckFault (stack : Fin 12) (s : State) : Host.Outcome State Fault Refusal :=
  ran s (baseDieSelfCheckFault stack s)

/-- STACK_CONTROLLER_TIMEOUT. -/
def execStackControllerTimeout (stack : Fin 12) (s : State) : Host.Outcome State Fault Refusal :=
  ran s (stackControllerTimeout stack s)

/-- REPAIR. -/
def execRepair (stack : Fin 12) (chan : Fin 32) (bank : Fin 68) (s : State) : Host.Outcome State Fault Refusal :=
  ran s (repair stack chan bank s)

/-- MID_ROW_REPAIR. -/
def execMidRowRepair (stack : Fin 12) (chan : Fin 32) (bank : Fin 68) (s : State) : Host.Outcome State Fault Refusal :=
  ran s (midRowRepair stack chan bank s)

/-- PATROL_SCRUB_READ. -/
def execPatrolScrubRead (stack : Fin 12) (s : State) : Host.Outcome State Fault Refusal := ran s (patrolScrubRead stack s)

/-- SCRUB_DEFER_TIMEOUT. -/
def execScrubDeferTimeout (stack : Fin 12) (s : State) : Host.Outcome State Fault Refusal :=
  ran s (scrubDeferTimeout stack s)

/-- MIGRATION_ROW_COPY. -/
def execMigrationRowCopy (stack : Fin 12) (chan : Fin 32) (s : State) : Host.Outcome State Fault Refusal :=
  ran s (migrationRowCopy stack chan s)

/-- MIGRATION_SWITCHOVER. -/
def execMigrationSwitchover (stack : Fin 12) (chan : Fin 32) (s : State) : Host.Outcome State Fault Refusal :=
  ran s (migrationSwitchover stack chan s)

/-- QUERN_ROW_BOUNDARY_TIMEOUT. -/
def execQuernRowBoundaryTimeout (stack : Fin 12) (chan : Fin 32) (bank : Fin 64) (s : State) : Host.Outcome State Fault Refusal :=
  ran s (quernRowBoundaryTimeout stack chan bank s)

/-- BANK_REMAP_COPY. -/
def execBankRemapCopy (stack : Fin 12) (chan : Fin 32) (s : State) : Host.Outcome State Fault Refusal :=
  ran s (bankRemapCopy stack chan s)

/-- BANK_REMAP_COMPLETE. -/
def execBankRemapComplete (stack : Fin 12) (chan : Fin 32) (s : State) : Host.Outcome State Fault Refusal :=
  ran s (bankRemapComplete stack chan s)

/-- SPARE_REQ_MIGRATE. -/
def execSpareReqMigrate (stack : Fin 12) (chan : Fin 32) (layer : Fin 16) (s : State) : Host.Outcome State Fault Refusal :=
  ran s (spareReqMigrate stack chan layer s)

/-- SPARE_REQ_REMAP. -/
def execSpareReqRemap (stack : Fin 12) (chan : Fin 32) (layer : Fin 16) (bank : Fin 4) (s : State) : Host.Outcome State Fault Refusal :=
  ran s (spareReqRemap stack chan layer bank s)

/-- SPARE_REQ_RESERVED. -/
def execSpareReqReserved (stack : Fin 12) (chan : Fin 32) (s : State) : Host.Outcome State Fault Refusal :=
  ran s (spareReqReserved stack chan s)

/-- SPARE_REQ_NO_ACTION. -/
def execSpareReqNoAction (stack : Fin 12) (s : State) : Host.Outcome State Fault Refusal := ran s (spareReqNoAction stack s)

/-- FLIP_ARM. -/
def execFlipArm (stack : Fin 12) (value : BitVec 32) (s : State) : Host.Outcome State Fault Refusal :=
  ran s (flipArm stack value s)

/-- QUERN_JOB_START. -/
def execQuernJobStart (stack : Fin 12) (chan : Fin 32) (s : State) : Host.Outcome State Fault Refusal :=
  ran s (quernJobStart stack chan s)

/-- SEQ_NOP. -/
def execSeqNop (stack : Fin 12) (chan : Fin 32) (s : State) : Host.Outcome State Fault Refusal := ran s (seqNop stack chan s)

/-- SEQ_NOP_WAIT_DONE. -/
def execSeqNopWaitDone (stack : Fin 12) (chan : Fin 32) (s : State) : Host.Outcome State Fault Refusal :=
  ran s (seqNopWaitDone stack chan s)

/-- ACT. -/
def execAct (stack : Fin 12) (chan : Fin 32) (s : State) : Host.Outcome State Fault Refusal := ran s (act stack chan s)

/-- OPW. -/
def execOpw (stack : Fin 12) (chan : Fin 32) (s : State) : Host.Outcome State Fault Refusal := ran s (opw stack chan s)

/-- BCAST. -/
def execBcast (stack : Fin 12) (chan : Fin 32) (s : State) : Host.Outcome State Fault Refusal := ran s (bcast stack chan s)

/-- BCAST_DONE. -/
def execBcastDone (stack : Fin 12) (chan : Fin 32) (s : State) : Host.Outcome State Fault Refusal :=
  ran s (bcastDone stack chan s)

/-- STRM. -/
def execStrm (stack : Fin 12) (chan : Fin 32) (s : State) : Host.Outcome State Fault Refusal := ran s (strm stack chan s)

/-- TREE. -/
def execTree (stack : Fin 12) (chan : Fin 32) (s : State) : Host.Outcome State Fault Refusal := ran s (tree stack chan s)

/-- SYNC. -/
def execSync (stack : Fin 12) (chan : Fin 32) (s : State) : Host.Outcome State Fault Refusal := ran s (sync stack chan s)

/-- SYNC_MET. -/
def execSyncMet (stack : Fin 12) (chan : Fin 32) (s : State) : Host.Outcome State Fault Refusal :=
  ran s (syncMet stack chan s)

/-- PRE. -/
def execPre (stack : Fin 12) (chan : Fin 32) (s : State) : Host.Outcome State Fault Refusal := ran s (pre stack chan s)

/-- END. -/
def execEndCmd (stack : Fin 12) (chan : Fin 32) (s : State) : Host.Outcome State Fault Refusal := ran s (endCmd stack chan s)

/-- ENTRY_END. -/
def execEntryEnd (stack : Fin 12) (chan : Fin 32) (s : State) : Host.Outcome State Fault Refusal :=
  ran s (entryEnd stack chan s)

/-- BROADCAST_PREFETCH. -/
def execBroadcastPrefetch (stack : Fin 12) (chan : Fin 32) (s : State) : Host.Outcome State Fault Refusal :=
  ran s (broadcastPrefetch stack chan s)

/-- MULTICAST_DELIVERY. -/
def execMulticastDelivery (group : Nat) (s : State) : Host.Outcome State Fault Refusal := ran s (multicastDelivery group s)

/-- MULTICAST_WAIT_TIMEOUT. -/
def execMulticastWaitTimeout (group : Nat) (s : State) : Host.Outcome State Fault Refusal :=
  ran s (multicastWaitTimeout group s)

/-- BANK_ADMISSION. -/
def execBankAdmission (stack : Fin 12) (chan : Fin 32) (s : State) : Host.Outcome State Fault Refusal :=
  ran s (bankAdmission stack chan s)

/-- ROW_BOUNDARY. -/
def execRowBoundary (stack : Fin 12) (chan : Fin 32) (bank : Fin 64) (s : State) : Host.Outcome State Fault Refusal :=
  ran s (rowBoundary stack chan bank s)

/-- COLUMN_DELIVERED. -/
def execColumnDelivered (stack : Fin 12) (chan : Fin 32) (bank : Fin 64) (s : State) : Host.Outcome State Fault Refusal :=
  ran s (columnDelivered stack chan bank s)

/-- DRAIN_STALL_RELEASE. -/
def execDrainStallRelease (stack : Fin 12) (chan : Fin 32) (bank : Fin 64) (s : State) : Host.Outcome State Fault Refusal :=
  ran s (drainStallRelease stack chan bank s)

/-- EXPONENT_STEP_DONE. -/
def execExponentStepDone (stack : Fin 12) (chan : Fin 32) (bank : Fin 64) (s : State) : Host.Outcome State Fault Refusal :=
  ran s (exponentStepDone stack chan bank s)

/-- TREE_OUTPUT_UNIT. -/
def execTreeOutputUnit (stack : Fin 12) (chan : Fin 32) (tree : Nat) (s : State) : Host.Outcome State Fault Refusal :=
  ran s (treeOutputUnit stack chan tree s)

/-- TAILRACE_ADDR_ERROR. -/
def execTailraceAddrError (stack : Fin 12) (chan : Fin 32) (s : State) : Host.Outcome State Fault Refusal :=
  ran s (tailraceAddrError stack chan s)

/-- QUERN_JOB_COMPLETE. -/
def execQuernJobComplete (job : Nat) (s : State) : Host.Outcome State Fault Refusal := ran s (quernJobComplete job s)

/-- QUERN_ARRIVAL_RELEASE. -/
def execQuernArrivalRelease (job : Nat) (s : State) : Host.Outcome State Fault Refusal := ran s (quernArrivalRelease job s)

/-- SEQ_TABLE_WRITE. -/
def execSeqTableWrite (off : Nat) (value : BitVec 32) (s : State) : Host.Outcome State Fault Refusal :=
  ran s (seqTableWrite off value s)

/-- PK1_ENABLE. -/
def execPk1Enable (s : State) : Host.Outcome State Fault Refusal := ran s (pk1Enable s)

/-- PK1_DISABLE. -/
def execPk1Disable (s : State) : Host.Outcome State Fault Refusal := ran s (pk1Disable s)

/-- PK1_DOORBELL. -/
def execPk1Doorbell (last : BitVec 16) (s : State) : Host.Outcome State Fault Refusal := ran s (pk1Doorbell last s)

/-- PK1_LINE. -/
def execPk1Line (s : State) : Host.Outcome State Fault Refusal := ran s (pk1Line s)

/-- PK1_SKIP. -/
def execPk1Skip (s : State) : Host.Outcome State Fault Refusal := ran s (pk1Skip s)

/-- PNOP. -/
def execPnop (stack : Fin 12) (chan : Fin 32) (s : State) : Host.Outcome State Fault Refusal := ran s (pnop stack chan s)

/-- PACT. -/
def execPact (stack : Fin 12) (chan : Fin 32) (bank : Fin 64) (row : Nat) (s : State) : Host.Outcome State Fault Refusal :=
  ran s (pact stack chan bank row s)

/-- PPRE. -/
def execPpre (stack : Fin 12) (chan : Fin 32) (bank : Fin 64) (s : State) : Host.Outcome State Fault Refusal :=
  ran s (ppre stack chan bank s)

/-- PLOAD. -/
def execPload (stack : Fin 12) (chan : Fin 32) (bank : Fin 64) (slot : Fin 128) (s : State) : Host.Outcome State Fault Refusal :=
  ran s (pload stack chan bank slot s)

/-- PMAC. -/
def execPmac (stack : Fin 12) (chan : Fin 32) (word : BitVec 64) (s : State) : Host.Outcome State Fault Refusal :=
  ran s (pmac stack chan word s)

/-- NOP. -/
def execNop (core : Fin 1200) (s : State) : Host.Outcome State Fault Refusal := ran s (nop core s)

/-- LOOP. -/
def execLoop (core : Fin 1200) (s : State) : Host.Outcome State Fault Refusal := ran s (loop core s)

/-- BREAK. -/
def execBreakLoop (core : Fin 1200) (s : State) : Host.Outcome State Fault Refusal := ran s (breakLoop core s)

/-- JUMP. -/
def execJump (core : Fin 1200) (s : State) : Host.Outcome State Fault Refusal := ran s (jump core s)

/-- YIELD. -/
def execYieldTask (core : Fin 1200) (s : State) : Host.Outcome State Fault Refusal := ran s (yieldTask core s)

/-- TEND. -/
def execTend (core : Fin 1200) (s : State) : Host.Outcome State Fault Refusal := ran s (tend core s)

/-- STRAP. -/
def execStrap (core : Fin 1200) (s : State) : Host.Outcome State Fault Refusal := ran s (strap core s)

/-- BKPT. -/
def execBkpt (core : Fin 1200) (s : State) : Host.Outcome State Fault Refusal := ran s (bkpt core s)

/-- RESERVED_ENCODING_FETCH. -/
def execReservedEncodingFetch (core : Fin 1200) (s : State) : Host.Outcome State Fault Refusal :=
  ran s (reservedEncodingFetch core s)

/-- MOVI. -/
def execMovi (core : Fin 1200) (s : State) : Host.Outcome State Fault Refusal := ran s (movi core s)

/-- MOV. -/
def execMov (core : Fin 1200) (s : State) : Host.Outcome State Fault Refusal := ran s (mov core s)

/-- ADD. -/
def execAdd (core : Fin 1200) (s : State) : Host.Outcome State Fault Refusal := ran s (add core s)

/-- ADDI. -/
def execAddi (core : Fin 1200) (s : State) : Host.Outcome State Fault Refusal := ran s (addi core s)

/-- SUB. -/
def execSub (core : Fin 1200) (s : State) : Host.Outcome State Fault Refusal := ran s (sub core s)

/-- MUL. -/
def execMul (core : Fin 1200) (s : State) : Host.Outcome State Fault Refusal := ran s (mul core s)

/-- AND. -/
def execAnd (core : Fin 1200) (s : State) : Host.Outcome State Fault Refusal := ran s (and core s)

/-- OR. -/
def execOr (core : Fin 1200) (s : State) : Host.Outcome State Fault Refusal := ran s (or core s)

/-- XOR. -/
def execXor (core : Fin 1200) (s : State) : Host.Outcome State Fault Refusal := ran s (xor core s)

/-- SHL. -/
def execShl (core : Fin 1200) (s : State) : Host.Outcome State Fault Refusal := ran s (shl core s)

/-- SHR. -/
def execShr (core : Fin 1200) (s : State) : Host.Outcome State Fault Refusal := ran s (shr core s)

/-- SAR. -/
def execSar (core : Fin 1200) (s : State) : Host.Outcome State Fault Refusal := ran s (sar core s)

/-- MINU. -/
def execMinu (core : Fin 1200) (s : State) : Host.Outcome State Fault Refusal := ran s (minu core s)

/-- MAXU. -/
def execMaxu (core : Fin 1200) (s : State) : Host.Outcome State Fault Refusal := ran s (maxu core s)

/-- CMP. -/
def execCmp (core : Fin 1200) (s : State) : Host.Outcome State Fault Refusal := ran s (cmp core s)

/-- CMPI. -/
def execCmpi (core : Fin 1200) (s : State) : Host.Outcome State Fault Refusal := ran s (cmpi core s)

/-- LIDX. -/
def execLidx (core : Fin 1200) (s : State) : Host.Outcome State Fault Refusal := ran s (lidx core s)

/-- COREID. -/
def execCoreid (core : Fin 1200) (s : State) : Host.Outcome State Fault Refusal := ran s (coreid core s)

/-- TIME. -/
def execTime (core : Fin 1200) (s : State) : Host.Outcome State Fault Refusal := ran s (time core s)

/-- FSET. -/
def execFset (core : Fin 1200) (s : State) : Host.Outcome State Fault Refusal := ran s (fset core s)

/-- PUSHH. -/
def execPushh (core : Fin 1200) (s : State) : Host.Outcome State Fault Refusal := ran s (pushh core s)

/-- PUSHV. -/
def execPushv (core : Fin 1200) (s : State) : Host.Outcome State Fault Refusal := ran s (pushv core s)

/-- POPV. -/
def execPopv (core : Fin 1200) (s : State) : Host.Outcome State Fault Refusal := ran s (popv core s)

/-- DROP. -/
def execDrop (core : Fin 1200) (s : State) : Host.Outcome State Fault Refusal := ran s (drop core s)

/-- DUP. -/
def execDup (core : Fin 1200) (s : State) : Host.Outcome State Fault Refusal := ran s (dup core s)

/-- MOVE. -/
def execMove (core : Fin 1200) (s : State) : Host.Outcome State Fault Refusal := ran s (move core s)

/-- SPLIT. -/
def execSplit (core : Fin 1200) (s : State) : Host.Outcome State Fault Refusal := ran s (split core s)

/-- HLEN. -/
def execHlen (core : Fin 1200) (s : State) : Host.Outcome State Fault Refusal := ran s (hlen core s)

/-- QTEST. -/
def execQtest (core : Fin 1200) (s : State) : Host.Outcome State Fault Refusal := ran s (qtest core s)

/-- QCOUNT. -/
def execQcount (core : Fin 1200) (s : State) : Host.Outcome State Fault Refusal := ran s (qcount core s)

/-- LD. -/
def execLd (core : Fin 1200) (s : State) : Host.Outcome State Fault Refusal := ran s (ld core s)

/-- LD_COMPLETE. -/
def execLdComplete (core : Fin 1200) (xfer : Nat) (s : State) : Host.Outcome State Fault Refusal :=
  ran s (ldEnds core xfer s)

/-- ST. -/
def execSt (core : Fin 1200) (s : State) : Host.Outcome State Fault Refusal := ran s (st core s)

/-- ST_PERFORMED. -/
def execStPerformed (core : Fin 1200) (xfer : Nat) (s : State) : Host.Outcome State Fault Refusal :=
  ran s (stEnds core xfer s)

/-- FENCE. -/
def execFence (core : Fin 1200) (s : State) : Host.Outcome State Fault Refusal := ran s (fence core s)

/-- SIGNAL. -/
def execSignal (core : Fin 1200) (s : State) : Host.Outcome State Fault Refusal := ran s (signal core s)

/-- SIGNAL_DELIVERED. -/
def execSignalDelivered (core : Fin 1200) (task : Fin 4) (s : State) : Host.Outcome State Fault Refusal :=
  ran s (signalDelivered core task s)

/-- POST. -/
def execPost (core : Fin 1200) (s : State) : Host.Outcome State Fault Refusal := ran s (post core s)

/-- DMAP. -/
def execDmap (core : Fin 1200) (s : State) : Host.Outcome State Fault Refusal := ran s (dmap core s)

/-- EVENT. -/
def execEvent (core : Fin 1200) (s : State) : Host.Outcome State Fault Refusal := ran s (eventInstr core s)

/-- MMA. -/
def execMma (core : Fin 1200) (s : State) : Host.Outcome State Fault Refusal := ran s (mma core s)

/-- MMA_COMPLETE. -/
def execMmaComplete (core : Fin 1200) (s : State) : Host.Outcome State Fault Refusal := ran s (mmaComplete core s)

/-- MSCL. -/
def execMscl (core : Fin 1200) (s : State) : Host.Outcome State Fault Refusal := ran s (mscl core s)

/-- MLDC. -/
def execMldc (core : Fin 1200) (s : State) : Host.Outcome State Fault Refusal := ran s (mldc core s)

/-- VOP. -/
def execVop (core : Fin 1200) (s : State) : Host.Outcome State Fault Refusal := ran s (vop core s)

/-- VQMX. -/
def execVqmx (core : Fin 1200) (s : State) : Host.Outcome State Fault Refusal := ran s (vqmx core s)

/-- CHAIN. -/
def execChain (core : Fin 1200) (s : State) : Host.Outcome State Fault Refusal := ran s (chain core s)

/-- GATHER. -/
def execGather (core : Fin 1200) (s : State) : Host.Outcome State Fault Refusal := ran s (gather core s)

/-- SCATTER. -/
def execScatter (core : Fin 1200) (s : State) : Host.Outcome State Fault Refusal := ran s (scatter core s)

/-- COMPRESS. -/
def execCompress (core : Fin 1200) (s : State) : Host.Outcome State Fault Refusal := ran s (compress core s)

/-- EXPAND. -/
def execExpand (core : Fin 1200) (s : State) : Host.Outcome State Fault Refusal := ran s (expand core s)

/-- VECTOR_COMPLETE. -/
def execVectorComplete (core : Fin 1200) (s : State) : Host.Outcome State Fault Refusal := ran s (vectorComplete core s)

/-- TASK_READY. -/
def execTaskReady (core : Fin 1200) (task : Fin 4) (s : State) : Host.Outcome State Fault Refusal :=
  ran s (taskReadies core task s)

/-- TASK_SWITCH. -/
def execTaskSwitch (core : Fin 1200) (s : State) : Host.Outcome State Fault Refusal := ran s (taskSwitch core s)

/-- DEADLOCK. -/
def execDeadlock (core : Fin 1200) (s : State) : Host.Outcome State Fault Refusal := ran s (deadlock core s)

/-- STOP_DRAIN_COMPLETE. -/
def execStopDrainComplete (core : Fin 1200) (s : State) : Host.Outcome State Fault Refusal :=
  ran s (stopDrains core s)

/-- LOAD. -/
def execLoad (ring : Fin 1024) (s : State) : Host.Outcome State Fault Refusal := ran s (load ring s)

/-- PROGRAM_LOAD_CORE_WRITE. -/
def execProgramLoadCoreWrite (core : Fin 1200) (s : State) : Host.Outcome State Fault Refusal :=
  ran s (programLoadCoreWrite core s)

/-- LAUNCH. -/
def execLaunch (ring : Fin 1024) (s : State) : Host.Outcome State Fault Refusal := ran s (launch ring s)

/-- STOP_REQUEST. -/
def execStopRequest (ring : Fin 1024) (s : State) : Host.Outcome State Fault Refusal := ran s (stopRequest ring s)

/-- PATCH. -/
def execPatch (ring : Fin 1024) (s : State) : Host.Outcome State Fault Refusal := ran s (patch ring s)

/-- DMA. -/
def execDma (ring : Fin 1024) (s : State) : Host.Outcome State Fault Refusal := ran s (dma ring s)

/-- QUERN. -/
def execQuern (ring : Fin 1024) (s : State) : Host.Outcome State Fault Refusal := ran s (quern ring s)

/-- FENCE_DESCRIPTOR. -/
def execFenceDescriptor (ring : Fin 1024) (s : State) : Host.Outcome State Fault Refusal := ran s (fenceDescriptor ring s)

/-- FENCE_RELEASE. -/
def execFenceRelease (ring : Fin 1024) (s : State) : Host.Outcome State Fault Refusal := ran s (fenceRelease ring s)

/-- EVENT_DESCRIPTOR. -/
def execEventDescriptor (ring : Fin 1024) (s : State) : Host.Outcome State Fault Refusal := ran s (eventDescriptor ring s)

/-- CHECK. -/
def execCheck (ring : Fin 1024) (s : State) : Host.Outcome State Fault Refusal := ran s (check ring s)

/-- COMMIT. -/
def execCommit (ring : Fin 1024) (s : State) : Host.Outcome State Fault Refusal := ran s (commit ring s)

/-- DISCARD. -/
def execDiscard (ring : Fin 1024) (s : State) : Host.Outcome State Fault Refusal := ran s (discard ring s)

/-- CONFIG_RESERVED_OP. -/
def execConfigReservedOp (ring : Fin 1024) (s : State) : Host.Outcome State Fault Refusal := ran s (configReservedOp ring s)

/-- EPOCH_BOUNDARY. -/
def execEpochBoundary (s : State) : Host.Outcome State Fault Refusal := ran s (epochBoundary s)

/-- HUB_CFG_CHECK. -/
def execHubCfgCheck (s : State) : Host.Outcome State Fault Refusal := ran s (hubCfgCheck s)

/-- HUB_CFG_COMMIT. -/
def execHubCfgCommit (s : State) : Host.Outcome State Fault Refusal := ran s (hubCfgCommit s)

/-- HUB_CFG_DISCARD. -/
def execHubCfgDiscard (s : State) : Host.Outcome State Fault Refusal := ran s (hubCfgDiscard s)

/-- SQ_TAIL. -/
def execSqTail (ring : Fin 1024) (value : BitVec 32) (s : State) : Host.Outcome State Fault Refusal :=
  ran s (sqTail ring value s)

/-- CQ_HEAD. -/
def execCqHead (ring : Fin 1024) (value : BitVec 32) (s : State) : Host.Outcome State Fault Refusal :=
  ran s (cqHead ring value s)

/-- RING_SLOT_FETCH. -/
def execRingSlotFetch (ring : Fin 1024) (slots : List Desc) (s : State) : Host.Outcome State Fault Refusal :=
  ran s (ringSlotFetch ring slots s)

/-- SLOT_REREAD. -/
def execSlotReread (ring : Fin 1024) (slot : Desc) (s : State) : Host.Outcome State Fault Refusal :=
  ran s (slotReread ring slot s)

/-- RING_STALL. -/
def execRingStall (ring : Fin 1024) (s : State) : Host.Outcome State Fault Refusal := ran s (ringStall ring s)

/-- IRQ_TIME_TRIGGER. -/
def execIrqTimeTrigger (ring : Fin 1024) (s : State) : Host.Outcome State Fault Refusal := ran s (irqTimeTrigger ring s)

/-- MSIX_UNMASK. -/
def execMsixUnmask (vector : Fin 1025) (s : State) : Host.Outcome State Fault Refusal := ran s (msixUnmask vector s)

/-- RING_ENABLE. -/
def execRingEnable (ring : Fin 1024) (value : BitVec 32) (s : State) : Host.Outcome State Fault Refusal :=
  ran s (ringEnable ring value s)

/-- RING_DISABLE. -/
def execRingDisable (ring : Fin 1024) (value : BitVec 32) (s : State) : Host.Outcome State Fault Refusal :=
  ran s (ringDisable ring value s)

/-- RING_CONFIG_WRITE. -/
def execRingConfigWrite (ring : Fin 1024) (reg : Fin 5) (value : BitVec 32) (s : State) : Host.Outcome State Fault Refusal :=
  ran s (ringConfigWrite ring reg value s)

/-- DMA_START_TAKEN. -/
def execDmaStartTaken (g : Fin 64) (s : State) : Host.Outcome State Fault Refusal := ran s (dmaStartTaken g s)

/-- DESCRIPTOR_FETCH_RESPONSE. -/
def execDescriptorFetchResponse (g : Fin 64) (s : State) : Host.Outcome State Fault Refusal :=
  ran s (descriptorFetchResponse g s)

/-- DMA_BLOCK_ISSUE. -/
def execDmaBlockIssue (g : Fin 64) (s : State) : Host.Outcome State Fault Refusal := ran s (dmaBlockIssue g s)

/-- FILL_WORD_REREAD. -/
def execFillWordReread (g : Fin 64) (s : State) : Host.Outcome State Fault Refusal := ran s (fillWordReread g s)

/-- PACED_RELEASE. -/
def execPacedRelease (g : Fin 64) (s : State) : Host.Outcome State Fault Refusal := ran s (pacedRelease g s)

/-- ARR_WAIT_RELEASE. -/
def execArrWaitRelease (g : Fin 64) (s : State) : Host.Outcome State Fault Refusal := ran s (arrWaitRelease g s)

/-- DMA_DESCRIPTOR_COMPLETE. -/
def execDmaDescriptorComplete (g : Fin 64) (s : State) : Host.Outcome State Fault Refusal :=
  ran s (dmaDescriptorComplete g s)

/-- DMA_HALT_SETTLED. -/
def execDmaHaltSettled (g : Fin 64) (s : State) : Host.Outcome State Fault Refusal := ran s (dmaHaltSettled g s)

/-- DMA_RESPONSE_TIMEOUT. -/
def execDmaResponseTimeout (g : Fin 64) (s : State) : Host.Outcome State Fault Refusal := ran s (dmaResponseTimeout g s)

/-- LATE_RESPONSE. -/
def execLateResponse (g : Fin 64) (s : State) : Host.Outcome State Fault Refusal := ran s (lateResponse g s)

/-- RESUME. -/
def execResume (g : Fin 64) (s : State) : Host.Outcome State Fault Refusal := ran s (resume g s)

/-- SKIP. -/
def execSkip (g : Fin 64) (s : State) : Host.Outcome State Fault Refusal := ran s (skip g s)

/-- ABORT. -/
def execAbort (g : Fin 64) (s : State) : Host.Outcome State Fault Refusal := ran s (abort g s)

/-- GO. -/
def execGo (g : Fin 64) (value : BitVec 32) (s : State) : Host.Outcome State Fault Refusal := ran s (go g value s)

/-- SLUICE_COMPLETE. -/
def execSluiceComplete (xfer : Nat) (s : State) : Host.Outcome State Fault Refusal := ran s (sluiceComplete xfer s)

/-- RECEIVER_DETECTED. -/
def execReceiverDetected (refclk : Bool) (s : State) : Host.Outcome State Fault Refusal := ran s (receiverDetected refclk s)

/-- L0_REACHED. -/
def execL0Reached (rate width : Nat) (cxlAccepted : Bool) (s : State) : Host.Outcome State Fault Refusal :=
  ran s (l0Reached rate width cxlAccepted s)

/-- TRAINING_ABORTED. -/
def execTrainingAborted (s : State) : Host.Outcome State Fault Refusal := ran s (trainingAborted s)

/-- RECOVERY_ENTERED. -/
def execRecoveryEntered (s : State) : Host.Outcome State Fault Refusal := ran s (recoveryEntered s)

/-- RECOVERY_EXIT. -/
def execRecoveryExit (s : State) : Host.Outcome State Fault Refusal := ran s (recoveryExit s)

/-- RECOVERY_TIMEOUT. -/
def execRecoveryTimeout (s : State) : Host.Outcome State Fault Refusal := ran s (recoveryTimeout s)

/-- LINK_DOWN. -/
def execLinkDown (s : State) : Host.Outcome State Fault Refusal := ran s (linkDown s)

/-- WARM_SELF_RESET_COMPLETE. -/
def execWarmSelfResetComplete (s : State) : Host.Outcome State Fault Refusal := ran s (warmSelfResetComplete s)

/-- IDE_INTEGRITY_FAILURE. -/
def execIdeIntegrityFailure (selective : Option (Fin 4)) (s : State) : Host.Outcome State Fault Refusal :=
  ran s (ideIntegrityFailure selective s)

/-- IDE_KM. -/
def execIdeKm (change : IdeChange) (s : State) : Host.Outcome State Fault Refusal := ran s (ideKm change s)

/-- CONFIG_REQUEST. -/
def execConfigRequest (reg : Nat) (write : Option (BitVec 32)) (s : State) : Host.Outcome State Fault Refusal :=
  ran s (configRequest reg write s)

/-- HOST_POSTED_WRITE. -/
def execHostPostedWrite (space : HostSpace) (off : Nat) (data : List (BitVec 8)) (attr : HostAttr) (s : State) : Host.Outcome State Fault Refusal :=
  ranSvn s (hostPostedWrite space off data attr s)

/-- HOST_READ. -/
def execHostRead (space : HostSpace) (off len : Nat) (attr : HostAttr) (s : State) : Host.Outcome State Fault Refusal :=
  ran s (hostRead space off len attr s)

/-- HOST_LINE_SNOOP. -/
def execHostLineSnoop (line : Nat) (s : State) : Host.Outcome State Fault Refusal := ran s (hostLineSnoop line s)

/-- WILRIL_LINK_UP. -/
def execWilrilLinkUp (s : State) : Host.Outcome State Fault Refusal := ran s (wilrilLinkUp s)

/-- WILRIL_RETRAIN_TIMEOUT. -/
def execWilrilRetrainTimeout (s : State) : Host.Outcome State Fault Refusal := ran s (wilrilRetrainTimeout s)

/-- PAIRING_COMPLETE. -/
def execPairingComplete (s : State) : Host.Outcome State Fault Refusal := ran s (pairingComplete s)

/-- HEARTBEAT_TIMER. -/
def execHeartbeatTimer (s : State) : Host.Outcome State Fault Refusal := ran s (heartbeatTimer s)

/-- HEARTBEAT. -/
def execHeartbeat (hdr : MsgHeader) (hb : Heartbeat) (s : State) : Host.Outcome State Fault Refusal :=
  ran s (heartbeat hdr hb s)

/-- CONTROL. -/
def execControl (hdr : MsgHeader) (body : ControlBody) (s : State) : Host.Outcome State Fault Refusal :=
  ran s (control hdr body s)

/-- OWNER_UPD. -/
def execOwnerUpd (hdr : MsgHeader) (tensor block : Nat) (msg : OwnerMsg) (s : State) : Host.Outcome State Fault Refusal :=
  ran s (ownerUpd hdr tensor block msg s)

/-- ACK. -/
def execAck (hdr : MsgHeader) (answer : AckBody) (s : State) : Host.Outcome State Fault Refusal := ran s (ack hdr answer s)

/-- REPL_MESSAGE. -/
def execReplMessage (hdr : MsgHeader) (tensor block seq sid tokens : Nat) (part : ReplPart) (s : State) :
    Host.Outcome State Fault Refusal :=
  ran s (replMessage hdr tensor block seq sid tokens part s)

/-- BULK. -/
def execBulk (hdr : MsgHeader) (tensor block seq : Nat) (part : BlockPart) (s : State) : Host.Outcome State Fault Refusal :=
  ran s (bulk hdr tensor block seq part s)

/-- RECOVERY. -/
def execRecovery (hdr : MsgHeader) (image : FwImage) (s : State) : Host.Outcome State Fault Refusal :=
  ran s (recovery hdr image s)

/-- HEARTBEAT_TIMEOUT. -/
def execHeartbeatTimeout (s : State) : Host.Outcome State Fault Refusal := ran s (heartbeatTimeout s)

/-- PAIR_ALIVE_FALL. -/
def execPairAliveFall (s : State) : Host.Outcome State Fault Refusal := ran s (pairAliveFall s)

/-- PAIR_ALIVE_LOW_TIMEOUT. -/
def execPairAliveLowTimeout (s : State) : Host.Outcome State Fault Refusal := ran s (pairAliveLowTimeout s)

/-- TAKEOVER_COMPLETE. -/
def execTakeoverComplete (s : State) : Host.Outcome State Fault Refusal := ran s (takeoverComplete s)

/-- BACKFILL_BLOCK. -/
def execBackfillBlock (s : State) : Host.Outcome State Fault Refusal := ran s (backfillBlock s)

/-- BACKFILL_COMPLETE. -/
def execBackfillComplete (s : State) : Host.Outcome State Fault Refusal := ran s (backfillComplete s)

/-- REGISTER. -/
def execRegister (ring : Fin 1024) (s : State) : Host.Outcome State Fault Refusal := ran s (register ring s)

/-- UNREGISTER. -/
def execUnregister (ring : Fin 1024) (s : State) : Host.Outcome State Fault Refusal := ran s (unregister ring s)

/-- SESSION. -/
def execSession (ring : Fin 1024) (s : State) : Host.Outcome State Fault Refusal := ran s (session ring s)

/-- REPL. -/
def execRepl (ring : Fin 1024) (s : State) : Host.Outcome State Fault Refusal := ran s (repl ring s)

/-- OWN. -/
def execOwn (ring : Fin 1024) (s : State) : Host.Outcome State Fault Refusal := ran s (own ring s)

/-- FETCH. -/
def execFetch (ring : Fin 1024) (s : State) : Host.Outcome State Fault Refusal := ran s (fetch ring s)

/-- HANDOVER. -/
def execHandover (ring : Fin 1024) (s : State) : Host.Outcome State Fault Refusal := ran s (handover ring s)

/-- TAKEOVER. -/
def execTakeover (ring : Fin 1024) (s : State) : Host.Outcome State Fault Refusal := ran s (takeover ring s)

/-- QUERY. -/
def execQuery (ring : Fin 1024) (s : State) : Host.Outcome State Fault Refusal := ran s (query ring s)

/-- GET_VERSION. -/
def execGetVersion (port : SpdmPort) (body : List (BitVec 8)) (s : State) : Host.Outcome State Fault Refusal :=
  ran s (getVersion port body s)

/-- GET_CAPABILITIES. -/
def execGetCapabilities (port : SpdmPort) (body : List (BitVec 8)) (s : State) : Host.Outcome State Fault Refusal :=
  ran s (getCapabilities port body s)

/-- NEGOTIATE_ALGORITHMS. -/
def execNegotiateAlgorithms (port : SpdmPort) (body : List (BitVec 8)) (s : State) : Host.Outcome State Fault Refusal :=
  ran s (negotiateAlgorithms port body s)

/-- GET_DIGESTS. -/
def execGetDigests (port : SpdmPort) (body : List (BitVec 8)) (s : State) : Host.Outcome State Fault Refusal :=
  ran s (getDigests port body s)

/-- GET_CERTIFICATE. -/
def execGetCertificate (port : SpdmPort) (slot off len : Nat) (body : List (BitVec 8)) (s : State) : Host.Outcome State Fault Refusal :=
  ran s (getCertificate port slot off len body s)

/-- CHALLENGE. -/
def execChallenge (port : SpdmPort) (body : List (BitVec 8)) (s : State) : Host.Outcome State Fault Refusal :=
  ran s (challenge port body s)

/-- GET_MEASUREMENTS. -/
def execGetMeasurements (port : SpdmPort) (index : Nat) (body : List (BitVec 8)) (s : State) : Host.Outcome State Fault Refusal :=
  ran s (getMeasurements port index body s)

/-- KEY_EXCHANGE. -/
def execKeyExchange (port : SpdmPort) (body : List (BitVec 8)) (s : State) : Host.Outcome State Fault Refusal :=
  ran s (keyExchange port body s)

/-- FINISH. -/
def execFinish (port : SpdmPort) (sid : Nat) (body : List (BitVec 8)) (s : State) : Host.Outcome State Fault Refusal :=
  ran s (finish port sid body s)

/-- SPDM_HEARTBEAT. -/
def execSpdmHeartbeat (port : SpdmPort) (sid : Nat) (s : State) : Host.Outcome State Fault Refusal :=
  ran s (spdmHeartbeat port sid s)

/-- KEY_UPDATE. -/
def execKeyUpdate (port : SpdmPort) (sid : Nat) (s : State) : Host.Outcome State Fault Refusal :=
  ran s (keyUpdate port sid s)

/-- PAIRING_KEY_UPDATE. -/
def execPairingKeyUpdate (s : State) : Host.Outcome State Fault Refusal := ran s (pairingKeyUpdate s)

/-- END_SESSION. -/
def execEndSession (port : SpdmPort) (sid : Nat) (s : State) : Host.Outcome State Fault Refusal :=
  ran s (endSession port sid s)

/-- UNSUPPORTED_SPDM_REQUEST. -/
def execUnsupportedSpdmRequest (port : SpdmPort) (code : Nat) (s : State) : Host.Outcome State Fault Refusal :=
  ran s (unsupportedSpdmRequest port code s)

/-- PQ_SIGN. -/
def execPqSign (port : SpdmPort) (s : State) : Host.Outcome State Fault Refusal := ran s (pqSign port s)

/-- PQ_CERT. -/
def execPqCert (port : SpdmPort) (off len : Nat) (s : State) : Host.Outcome State Fault Refusal :=
  ran s (pqCert port off len s)

/-- NONCE. -/
def execNonce (port : SpdmPort) (s : State) : Host.Outcome State Fault Refusal := ran s (nonce port s)

/-- DBG_UNLOCK. -/
def execDbgUnlock (port : SpdmPort) (token : Signed) (s : State) : Host.Outcome State Fault Refusal :=
  ran s (dbgUnlock port token s)

/-- INSTALL_OWNER. -/
def execInstallOwner (port : SpdmPort) (sid : Nat) (owner : OwnerKeys) (ideReq : Bool) (s : State) : Host.Outcome State Fault Refusal :=
  ran s (installOwner port sid owner ideReq s)

/-- DEPLOY. -/
def execDeploy (port : SpdmPort) (sid : Nat) (cmd : Signed) (s : State) : Host.Outcome State Fault Refusal :=
  ran s (deploy port sid cmd s)

/-- DECOMMISSION. -/
def execDecommission (port : SpdmPort) (sid : Nat) (cmd : Signed) (s : State) : Host.Outcome State Fault Refusal :=
  ran s (decommission port sid cmd s)

/-- REPROVISION. -/
def execReprovision (port : SpdmPort) (sid : Nat) (cmd : Signed) (s : State) : Host.Outcome State Fault Refusal :=
  ran s (reprovision port sid cmd s)

/-- FUSE_WRITE_COMPLETE. -/
def execFuseWriteComplete (s : State) : Host.Outcome State Fault Refusal := burned s (fuseWriteComplete s)

/-- PKG_LOAD. -/
def execPkgLoad (value : BitVec 32) (s : State) : Host.Outcome State Fault Refusal := ran s (pkgLoad value s)

/-- PKG_LOAD_COMPLETE. -/
def execPkgLoadComplete (s : State) : Host.Outcome State Fault Refusal := ran s (pkgLoadComplete s)

/-- PKG_UNLOAD. -/
def execPkgUnload (value : BitVec 32) (s : State) : Host.Outcome State Fault Refusal := ran s (pkgUnload value s)

/-- PKG_UNLOAD_COMPLETE. -/
def execPkgUnloadComplete (s : State) : Host.Outcome State Fault Refusal := ran s (pkgUnloadComplete s)

/-- PKG_CMD_RESERVED. -/
def execPkgCmdReserved (value : BitVec 32) (s : State) : Host.Outcome State Fault Refusal := ran s (pkgCmdReserved value s)

/-- FW_GO. -/
def execFwGo (s : State) : Host.Outcome State Fault Refusal := ran s (fwGo s)

/-- FW_UPDATE_DONE. -/
def execFwUpdateDone (s : State) : Host.Outcome State Fault Refusal := ran s (fwUpdateDone s)

/-- SVN_COMMIT. -/
def execSvnCommit (s : State) : Host.Outcome State Fault Refusal := ranSvn s (svnCommit s)

/-- LOG_RECORD_WRITE. -/
def execLogRecordWrite (s : State) : Host.Outcome State Fault Refusal := ran s (logRecordWrite s)

/-- COALESCE_WINDOW_END. -/
def execCoalesceWindowEnd (entry : Nat) (s : State) : Host.Outcome State Fault Refusal := ran s (coalesceWindowEnd entry s)

/-- ALARM_GAP_END. -/
def execAlarmGapEnd (cls : Fin 8) (s : State) : Host.Outcome State Fault Refusal := ran s (alarmGapEnd cls s)

/-- CLEAR_PERF. -/
def execClearPerf (s : State) : Host.Outcome State Fault Refusal := ran s (clearPerf s)

/-- CLEAR_ERR. -/
def execClearErr (s : State) : Host.Outcome State Fault Refusal := ran s (clearErr s)

/-- FAULT_CLEAR. -/
def execFaultClear (s : State) : Host.Outcome State Fault Refusal := ran s (faultClear s)

/-- LOG_TIME_READ. -/
def execLogTimeRead (s : State) : Host.Outcome State Fault Refusal := ran s (logTimeRead s)

/-- TRACE_RECORD_WRITE. -/
def execTraceRecordWrite (s : State) : Host.Outcome State Fault Refusal := ran s (traceRecordWrite s)

/-- REGISTER_WRITE. -/
def execRegisterWrite (off : Nat) (value : BitVec 32) (s : State) : Host.Outcome State Fault Refusal :=
  ranSvn s (registerWrite off value s)

/-- WILRIL_LINK_DOWN. -/
def execWilrilLinkDown (s : State) : Host.Outcome State Fault Refusal := ran s (wilrilLinkDown s)

/-- HOST_MEMORY_READ_RESPONSE. -/
def execHostMemoryReadResponse (tag : Nat) (answer : HostAnswer) (s : State) : Host.Outcome State Fault Refusal :=
  ranSvn s (hostMemoryReadResponse tag answer s)

/-- MATRIX_INSTRUCTION_COMPLETE. -/
def execMatrixInstructionComplete (core : Fin 1200) (s : State) : Host.Outcome State Fault Refusal :=
  ran s (matrixInstructionComplete core s)

/-- INSTRUCTION_FETCH_UE. -/
def execInstructionFetchUe (core : Fin 1200) (s : State) : Host.Outcome State Fault Refusal :=
  ran s (instructionFetchUe core s)

/-- RESET_N_RELEASED. -/
def execResetNReleased (s : State) : Host.Outcome State Fault Refusal := ran s (resetNReleased s)

/-- JTAG_ACCESS. -/
def execJtagAccess (access : JtagAccess) (s : State) : Host.Outcome State Fault Refusal := ranSvn s (jtagAccess access s)

/-- RESERVED_CLASS_DESCRIPTOR. -/
def execReservedClassDescriptor (ring : Fin 1024) (s : State) : Host.Outcome State Fault Refusal :=
  ran s (reservedClassDescriptor ring s)

/-- TWIN_RESERVED_OP. -/
def execTwinReservedOp (ring : Fin 1024) (s : State) : Host.Outcome State Fault Refusal := ran s (twinReservedOp ring s)

/-- RESERVED_WILRIL_MESSAGE. -/
def execReservedWilrilMessage (hdr : MsgHeader) (s : State) : Host.Outcome State Fault Refusal :=
  ran s (reservedWilrilMessage hdr s)

end Sys2Proof.Machine
end

