-- ==== Sys2Proof/Machine/Dispatch.lean ====
section
/-! DEFINITION. The dispatch: one arm per command. -/

namespace Sys2Proof.Machine

open Sys2Proof

def exec (i : Instr) (s : State) : Host.Outcome State Fault Refusal :=
  match i with
  | .powerUp vin => Sys2Proof.Machine.execPowerUp vin s
  | .powerSequenceStep => Sys2Proof.Machine.execPowerSequenceStep s
  | .mgmtPowerOn => Sys2Proof.Machine.execMgmtPowerOn s
  | .inputLost => Sys2Proof.Machine.execInputLost s
  | .railPowerGoodLost rail => Sys2Proof.Machine.execRailPowerGoodLost rail s
  | .inputCutThreshold vin => Sys2Proof.Machine.execInputCutThreshold vin s
  | .supplyFaultTimeout vin => Sys2Proof.Machine.execSupplyFaultTimeout vin s
  | .hardwareTrip => Sys2Proof.Machine.execHardwareTrip s
  | .resetNAsserted => Sys2Proof.Machine.execResetNAsserted s
  | .mgmtModuleReset => Sys2Proof.Machine.execMgmtModuleReset s
  | .hotReset => Sys2Proof.Machine.execHotReset s
  | .functionLevelReset => Sys2Proof.Machine.execFunctionLevelReset s
  | .initPhaseComplete => Sys2Proof.Machine.execInitPhaseComplete s
  | .bootRom => Sys2Proof.Machine.execBootRom s
  | .recoveryPartnerTimeout => Sys2Proof.Machine.execRecoveryPartnerTimeout s
  | .recoveryImageAccepted image fromPartner => Sys2Proof.Machine.execRecoveryImageAccepted image fromPartner s
  | .watchdogExpiry cc => Sys2Proof.Machine.execWatchdogExpiry cc s
  | .firmwareAssertion cc => Sys2Proof.Machine.execFirmwareAssertion cc s
  | .controlCoreFetchError cc => Sys2Proof.Machine.execControlCoreFetchError cc s
  | .controlCoreRestartDone cc => Sys2Proof.Machine.execControlCoreRestartDone cc s
  | .farPathRequest port src auth da req => Sys2Proof.Machine.execFarPathRequest port src auth da req s
  | .urgencyAgeing stack => Sys2Proof.Machine.execUrgencyAgeing stack s
  | .schedulerGrant stack => Sys2Proof.Machine.execSchedulerGrant stack s
  | .pageIdlePrecharge stack chan bank => Sys2Proof.Machine.execPageIdlePrecharge stack chan bank s
  | .refreshDue stack chan bank => Sys2Proof.Machine.execRefreshDue stack chan bank s
  | .refreshRepay stack chan bank => Sys2Proof.Machine.execRefreshRepay stack chan bank s
  | .sensorSample sensor reading => Sys2Proof.Machine.execSensorSample sensor reading s
  | .channelDelaySwitch stack chan => Sys2Proof.Machine.execChannelDelaySwitch stack chan s
  | .overMaxTimeout stack => Sys2Proof.Machine.execOverMaxTimeout stack s
  | .throttleStep target => Sys2Proof.Machine.execThrottleStep target s
  | .throttleUndo target => Sys2Proof.Machine.execThrottleUndo target s
  | .brakeComplete => Sys2Proof.Machine.execBrakeComplete s
  | .powerMeasurement vin pin => Sys2Proof.Machine.execPowerMeasurement vin pin s
  | .governorPeriod => Sys2Proof.Machine.execGovernorPeriod s
  | .rateLimiterWindow domain power => Sys2Proof.Machine.execRateLimiterWindow domain power s
  | .clockRelock clock => Sys2Proof.Machine.execClockRelock clock s
  | .pwrTok role add => Sys2Proof.Machine.execPwrTok role add s
  | .idleEntry => Sys2Proof.Machine.execIdleEntry s
  | .idleWake => Sys2Proof.Machine.execIdleWake s
  | .reqStandby => Sys2Proof.Machine.execReqStandby s
  | .reqActive => Sys2Proof.Machine.execReqActive s
  | .mgmtWake => Sys2Proof.Machine.execMgmtWake s
  | .standbyExitComplete => Sys2Proof.Machine.execStandbyExitComplete s
  | .entryEndTimeout stack => Sys2Proof.Machine.execEntryEndTimeout stack s
  | .clearingComplete stack => Sys2Proof.Machine.execClearingComplete stack s
  | .stackLoadingComplete stack initOk failed => Sys2Proof.Machine.execStackLoadingComplete stack initOk failed s
  | .baseDieSelfCheckFault stack => Sys2Proof.Machine.execBaseDieSelfCheckFault stack s
  | .stackControllerTimeout stack => Sys2Proof.Machine.execStackControllerTimeout stack s
  | .repair stack chan bank => Sys2Proof.Machine.execRepair stack chan bank s
  | .midRowRepair stack chan bank => Sys2Proof.Machine.execMidRowRepair stack chan bank s
  | .patrolScrubRead stack => Sys2Proof.Machine.execPatrolScrubRead stack s
  | .scrubDeferTimeout stack => Sys2Proof.Machine.execScrubDeferTimeout stack s
  | .migrationRowCopy stack chan => Sys2Proof.Machine.execMigrationRowCopy stack chan s
  | .migrationSwitchover stack chan => Sys2Proof.Machine.execMigrationSwitchover stack chan s
  | .quernRowBoundaryTimeout stack chan bank => Sys2Proof.Machine.execQuernRowBoundaryTimeout stack chan bank s
  | .bankRemapCopy stack chan => Sys2Proof.Machine.execBankRemapCopy stack chan s
  | .bankRemapComplete stack chan => Sys2Proof.Machine.execBankRemapComplete stack chan s
  | .spareReqMigrate stack chan layer => Sys2Proof.Machine.execSpareReqMigrate stack chan layer s
  | .spareReqRemap stack chan layer bank => Sys2Proof.Machine.execSpareReqRemap stack chan layer bank s
  | .spareReqReserved stack chan => Sys2Proof.Machine.execSpareReqReserved stack chan s
  | .spareReqNoAction stack => Sys2Proof.Machine.execSpareReqNoAction stack s
  | .flipArm stack value => Sys2Proof.Machine.execFlipArm stack value s
  | .quernJobStart stack chan => Sys2Proof.Machine.execQuernJobStart stack chan s
  | .seqNop stack chan => Sys2Proof.Machine.execSeqNop stack chan s
  | .seqNopWaitDone stack chan => Sys2Proof.Machine.execSeqNopWaitDone stack chan s
  | .act stack chan => Sys2Proof.Machine.execAct stack chan s
  | .opw stack chan => Sys2Proof.Machine.execOpw stack chan s
  | .bcast stack chan => Sys2Proof.Machine.execBcast stack chan s
  | .bcastDone stack chan => Sys2Proof.Machine.execBcastDone stack chan s
  | .strm stack chan => Sys2Proof.Machine.execStrm stack chan s
  | .tree stack chan => Sys2Proof.Machine.execTree stack chan s
  | .sync stack chan => Sys2Proof.Machine.execSync stack chan s
  | .syncMet stack chan => Sys2Proof.Machine.execSyncMet stack chan s
  | .pre stack chan => Sys2Proof.Machine.execPre stack chan s
  | .endCmd stack chan => Sys2Proof.Machine.execEndCmd stack chan s
  | .entryEnd stack chan => Sys2Proof.Machine.execEntryEnd stack chan s
  | .broadcastPrefetch stack chan => Sys2Proof.Machine.execBroadcastPrefetch stack chan s
  | .multicastDelivery group => Sys2Proof.Machine.execMulticastDelivery group s
  | .multicastWaitTimeout group => Sys2Proof.Machine.execMulticastWaitTimeout group s
  | .bankAdmission stack chan => Sys2Proof.Machine.execBankAdmission stack chan s
  | .rowBoundary stack chan bank => Sys2Proof.Machine.execRowBoundary stack chan bank s
  | .columnDelivered stack chan bank => Sys2Proof.Machine.execColumnDelivered stack chan bank s
  | .drainStallRelease stack chan bank => Sys2Proof.Machine.execDrainStallRelease stack chan bank s
  | .exponentStepDone stack chan bank => Sys2Proof.Machine.execExponentStepDone stack chan bank s
  | .treeOutputUnit stack chan tree => Sys2Proof.Machine.execTreeOutputUnit stack chan tree s
  | .tailraceAddrError stack chan => Sys2Proof.Machine.execTailraceAddrError stack chan s
  | .quernJobComplete job => Sys2Proof.Machine.execQuernJobComplete job s
  | .quernArrivalRelease job => Sys2Proof.Machine.execQuernArrivalRelease job s
  | .seqTableWrite off value => Sys2Proof.Machine.execSeqTableWrite off value s
  | .pk1Enable => Sys2Proof.Machine.execPk1Enable s
  | .pk1Disable => Sys2Proof.Machine.execPk1Disable s
  | .pk1Doorbell last => Sys2Proof.Machine.execPk1Doorbell last s
  | .pk1Line => Sys2Proof.Machine.execPk1Line s
  | .pk1Skip => Sys2Proof.Machine.execPk1Skip s
  | .pnop stack chan => Sys2Proof.Machine.execPnop stack chan s
  | .pact stack chan bank row => Sys2Proof.Machine.execPact stack chan bank row s
  | .ppre stack chan bank => Sys2Proof.Machine.execPpre stack chan bank s
  | .pload stack chan bank slot => Sys2Proof.Machine.execPload stack chan bank slot s
  | .pmac stack chan word => Sys2Proof.Machine.execPmac stack chan word s
  | .nop core => Sys2Proof.Machine.execNop core s
  | .loop core => Sys2Proof.Machine.execLoop core s
  | .breakLoop core => Sys2Proof.Machine.execBreakLoop core s
  | .jump core => Sys2Proof.Machine.execJump core s
  | .yieldTask core => Sys2Proof.Machine.execYieldTask core s
  | .tend core => Sys2Proof.Machine.execTend core s
  | .strap core => Sys2Proof.Machine.execStrap core s
  | .bkpt core => Sys2Proof.Machine.execBkpt core s
  | .reservedEncodingFetch core => Sys2Proof.Machine.execReservedEncodingFetch core s
  | .movi core => Sys2Proof.Machine.execMovi core s
  | .mov core => Sys2Proof.Machine.execMov core s
  | .add core => Sys2Proof.Machine.execAdd core s
  | .addi core => Sys2Proof.Machine.execAddi core s
  | .sub core => Sys2Proof.Machine.execSub core s
  | .mul core => Sys2Proof.Machine.execMul core s
  | .and core => Sys2Proof.Machine.execAnd core s
  | .or core => Sys2Proof.Machine.execOr core s
  | .xor core => Sys2Proof.Machine.execXor core s
  | .shl core => Sys2Proof.Machine.execShl core s
  | .shr core => Sys2Proof.Machine.execShr core s
  | .sar core => Sys2Proof.Machine.execSar core s
  | .minu core => Sys2Proof.Machine.execMinu core s
  | .maxu core => Sys2Proof.Machine.execMaxu core s
  | .cmp core => Sys2Proof.Machine.execCmp core s
  | .cmpi core => Sys2Proof.Machine.execCmpi core s
  | .lidx core => Sys2Proof.Machine.execLidx core s
  | .coreid core => Sys2Proof.Machine.execCoreid core s
  | .time core => Sys2Proof.Machine.execTime core s
  | .fset core => Sys2Proof.Machine.execFset core s
  | .pushh core => Sys2Proof.Machine.execPushh core s
  | .pushv core => Sys2Proof.Machine.execPushv core s
  | .popv core => Sys2Proof.Machine.execPopv core s
  | .drop core => Sys2Proof.Machine.execDrop core s
  | .dup core => Sys2Proof.Machine.execDup core s
  | .move core => Sys2Proof.Machine.execMove core s
  | .split core => Sys2Proof.Machine.execSplit core s
  | .hlen core => Sys2Proof.Machine.execHlen core s
  | .qtest core => Sys2Proof.Machine.execQtest core s
  | .qcount core => Sys2Proof.Machine.execQcount core s
  | .ld core => Sys2Proof.Machine.execLd core s
  | .ldComplete core xfer => Sys2Proof.Machine.execLdComplete core xfer s
  | .st core => Sys2Proof.Machine.execSt core s
  | .stPerformed core xfer => Sys2Proof.Machine.execStPerformed core xfer s
  | .fence core => Sys2Proof.Machine.execFence core s
  | .signal core => Sys2Proof.Machine.execSignal core s
  | .signalDelivered core task => Sys2Proof.Machine.execSignalDelivered core task s
  | .post core => Sys2Proof.Machine.execPost core s
  | .dmap core => Sys2Proof.Machine.execDmap core s
  | .event core => Sys2Proof.Machine.execEvent core s
  | .mma core => Sys2Proof.Machine.execMma core s
  | .mmaComplete core => Sys2Proof.Machine.execMmaComplete core s
  | .mscl core => Sys2Proof.Machine.execMscl core s
  | .mldc core => Sys2Proof.Machine.execMldc core s
  | .vop core => Sys2Proof.Machine.execVop core s
  | .vqmx core => Sys2Proof.Machine.execVqmx core s
  | .chain core => Sys2Proof.Machine.execChain core s
  | .gather core => Sys2Proof.Machine.execGather core s
  | .scatter core => Sys2Proof.Machine.execScatter core s
  | .compress core => Sys2Proof.Machine.execCompress core s
  | .expand core => Sys2Proof.Machine.execExpand core s
  | .vectorComplete core => Sys2Proof.Machine.execVectorComplete core s
  | .taskReady core task => Sys2Proof.Machine.execTaskReady core task s
  | .taskSwitch core => Sys2Proof.Machine.execTaskSwitch core s
  | .deadlock core => Sys2Proof.Machine.execDeadlock core s
  | .stopDrainComplete core => Sys2Proof.Machine.execStopDrainComplete core s
  | .load ring => Sys2Proof.Machine.execLoad ring s
  | .programLoadCoreWrite core => Sys2Proof.Machine.execProgramLoadCoreWrite core s
  | .launch ring => Sys2Proof.Machine.execLaunch ring s
  | .stopRequest ring => Sys2Proof.Machine.execStopRequest ring s
  | .patch ring => Sys2Proof.Machine.execPatch ring s
  | .dma ring => Sys2Proof.Machine.execDma ring s
  | .quern ring => Sys2Proof.Machine.execQuern ring s
  | .fenceDescriptor ring => Sys2Proof.Machine.execFenceDescriptor ring s
  | .fenceRelease ring => Sys2Proof.Machine.execFenceRelease ring s
  | .eventDescriptor ring => Sys2Proof.Machine.execEventDescriptor ring s
  | .check ring => Sys2Proof.Machine.execCheck ring s
  | .commit ring => Sys2Proof.Machine.execCommit ring s
  | .discard ring => Sys2Proof.Machine.execDiscard ring s
  | .configReservedOp ring => Sys2Proof.Machine.execConfigReservedOp ring s
  | .epochBoundary => Sys2Proof.Machine.execEpochBoundary s
  | .hubCfgCheck => Sys2Proof.Machine.execHubCfgCheck s
  | .hubCfgCommit => Sys2Proof.Machine.execHubCfgCommit s
  | .hubCfgDiscard => Sys2Proof.Machine.execHubCfgDiscard s
  | .sqTail ring value => Sys2Proof.Machine.execSqTail ring value s
  | .cqHead ring value => Sys2Proof.Machine.execCqHead ring value s
  | .ringSlotFetch ring slots => Sys2Proof.Machine.execRingSlotFetch ring slots s
  | .slotReread ring slot => Sys2Proof.Machine.execSlotReread ring slot s
  | .ringStall ring => Sys2Proof.Machine.execRingStall ring s
  | .irqTimeTrigger ring => Sys2Proof.Machine.execIrqTimeTrigger ring s
  | .msixUnmask vector => Sys2Proof.Machine.execMsixUnmask vector s
  | .ringEnable ring value => Sys2Proof.Machine.execRingEnable ring value s
  | .ringDisable ring value => Sys2Proof.Machine.execRingDisable ring value s
  | .ringConfigWrite ring reg value => Sys2Proof.Machine.execRingConfigWrite ring reg value s
  | .dmaStartTaken g => Sys2Proof.Machine.execDmaStartTaken g s
  | .descriptorFetchResponse g => Sys2Proof.Machine.execDescriptorFetchResponse g s
  | .dmaBlockIssue g => Sys2Proof.Machine.execDmaBlockIssue g s
  | .fillWordReread g => Sys2Proof.Machine.execFillWordReread g s
  | .pacedRelease g => Sys2Proof.Machine.execPacedRelease g s
  | .arrWaitRelease g => Sys2Proof.Machine.execArrWaitRelease g s
  | .dmaDescriptorComplete g => Sys2Proof.Machine.execDmaDescriptorComplete g s
  | .dmaHaltSettled g => Sys2Proof.Machine.execDmaHaltSettled g s
  | .dmaResponseTimeout g => Sys2Proof.Machine.execDmaResponseTimeout g s
  | .lateResponse g => Sys2Proof.Machine.execLateResponse g s
  | .resume g => Sys2Proof.Machine.execResume g s
  | .skip g => Sys2Proof.Machine.execSkip g s
  | .abort g => Sys2Proof.Machine.execAbort g s
  | .go g value => Sys2Proof.Machine.execGo g value s
  | .sluiceComplete xfer => Sys2Proof.Machine.execSluiceComplete xfer s
  | .receiverDetected refclk => Sys2Proof.Machine.execReceiverDetected refclk s
  | .l0Reached rate width cxlAccepted => Sys2Proof.Machine.execL0Reached rate width cxlAccepted s
  | .trainingAborted => Sys2Proof.Machine.execTrainingAborted s
  | .recoveryEntered => Sys2Proof.Machine.execRecoveryEntered s
  | .recoveryExit => Sys2Proof.Machine.execRecoveryExit s
  | .recoveryTimeout => Sys2Proof.Machine.execRecoveryTimeout s
  | .linkDown => Sys2Proof.Machine.execLinkDown s
  | .warmSelfResetComplete => Sys2Proof.Machine.execWarmSelfResetComplete s
  | .ideIntegrityFailure selective => Sys2Proof.Machine.execIdeIntegrityFailure selective s
  | .ideKm change => Sys2Proof.Machine.execIdeKm change s
  | .configRequest reg write => Sys2Proof.Machine.execConfigRequest reg write s
  | .hostPostedWrite space off data attr => Sys2Proof.Machine.execHostPostedWrite space off data attr s
  | .hostRead space off len attr => Sys2Proof.Machine.execHostRead space off len attr s
  | .hostLineSnoop line => Sys2Proof.Machine.execHostLineSnoop line s
  | .wilrilLinkUp => Sys2Proof.Machine.execWilrilLinkUp s
  | .wilrilRetrainTimeout => Sys2Proof.Machine.execWilrilRetrainTimeout s
  | .pairingComplete => Sys2Proof.Machine.execPairingComplete s
  | .heartbeatTimer => Sys2Proof.Machine.execHeartbeatTimer s
  | .heartbeat hdr hb => Sys2Proof.Machine.execHeartbeat hdr hb s
  | .control hdr body => Sys2Proof.Machine.execControl hdr body s
  | .ownerUpd hdr tensor block msg => Sys2Proof.Machine.execOwnerUpd hdr tensor block msg s
  | .ack hdr answer => Sys2Proof.Machine.execAck hdr answer s
  | .replMessage hdr tensor block seq sid tokens part => Sys2Proof.Machine.execReplMessage hdr tensor block seq sid tokens part s
  | .bulk hdr tensor block seq part => Sys2Proof.Machine.execBulk hdr tensor block seq part s
  | .recovery hdr image => Sys2Proof.Machine.execRecovery hdr image s
  | .heartbeatTimeout => Sys2Proof.Machine.execHeartbeatTimeout s
  | .pairAliveFall => Sys2Proof.Machine.execPairAliveFall s
  | .pairAliveLowTimeout => Sys2Proof.Machine.execPairAliveLowTimeout s
  | .takeoverComplete => Sys2Proof.Machine.execTakeoverComplete s
  | .backfillBlock => Sys2Proof.Machine.execBackfillBlock s
  | .backfillComplete => Sys2Proof.Machine.execBackfillComplete s
  | .register ring => Sys2Proof.Machine.execRegister ring s
  | .unregister ring => Sys2Proof.Machine.execUnregister ring s
  | .session ring => Sys2Proof.Machine.execSession ring s
  | .repl ring => Sys2Proof.Machine.execRepl ring s
  | .own ring => Sys2Proof.Machine.execOwn ring s
  | .fetch ring => Sys2Proof.Machine.execFetch ring s
  | .handover ring => Sys2Proof.Machine.execHandover ring s
  | .takeover ring => Sys2Proof.Machine.execTakeover ring s
  | .query ring => Sys2Proof.Machine.execQuery ring s
  | .getVersion port body => Sys2Proof.Machine.execGetVersion port body s
  | .getCapabilities port body => Sys2Proof.Machine.execGetCapabilities port body s
  | .negotiateAlgorithms port body => Sys2Proof.Machine.execNegotiateAlgorithms port body s
  | .getDigests port body => Sys2Proof.Machine.execGetDigests port body s
  | .getCertificate port slot off len body => Sys2Proof.Machine.execGetCertificate port slot off len body s
  | .challenge port body => Sys2Proof.Machine.execChallenge port body s
  | .getMeasurements port index body => Sys2Proof.Machine.execGetMeasurements port index body s
  | .keyExchange port body => Sys2Proof.Machine.execKeyExchange port body s
  | .finish port sid body => Sys2Proof.Machine.execFinish port sid body s
  | .spdmHeartbeat port sid => Sys2Proof.Machine.execSpdmHeartbeat port sid s
  | .keyUpdate port sid => Sys2Proof.Machine.execKeyUpdate port sid s
  | .pairingKeyUpdate => Sys2Proof.Machine.execPairingKeyUpdate s
  | .endSession port sid => Sys2Proof.Machine.execEndSession port sid s
  | .unsupportedSpdmRequest port code => Sys2Proof.Machine.execUnsupportedSpdmRequest port code s
  | .pqSign port => Sys2Proof.Machine.execPqSign port s
  | .pqCert port off len => Sys2Proof.Machine.execPqCert port off len s
  | .nonce port => Sys2Proof.Machine.execNonce port s
  | .dbgUnlock port token => Sys2Proof.Machine.execDbgUnlock port token s
  | .installOwner port sid owner ideReq => Sys2Proof.Machine.execInstallOwner port sid owner ideReq s
  | .deploy port sid cmd => Sys2Proof.Machine.execDeploy port sid cmd s
  | .decommission port sid cmd => Sys2Proof.Machine.execDecommission port sid cmd s
  | .reprovision port sid cmd => Sys2Proof.Machine.execReprovision port sid cmd s
  | .fuseWriteComplete => Sys2Proof.Machine.execFuseWriteComplete s
  | .pkgLoad value => Sys2Proof.Machine.execPkgLoad value s
  | .pkgLoadComplete => Sys2Proof.Machine.execPkgLoadComplete s
  | .pkgUnload value => Sys2Proof.Machine.execPkgUnload value s
  | .pkgUnloadComplete => Sys2Proof.Machine.execPkgUnloadComplete s
  | .pkgCmdReserved value => Sys2Proof.Machine.execPkgCmdReserved value s
  | .fwGo => Sys2Proof.Machine.execFwGo s
  | .fwUpdateDone => Sys2Proof.Machine.execFwUpdateDone s
  | .svnCommit => Sys2Proof.Machine.execSvnCommit s
  | .logRecordWrite => Sys2Proof.Machine.execLogRecordWrite s
  | .coalesceWindowEnd entry => Sys2Proof.Machine.execCoalesceWindowEnd entry s
  | .alarmGapEnd cls => Sys2Proof.Machine.execAlarmGapEnd cls s
  | .clearPerf => Sys2Proof.Machine.execClearPerf s
  | .clearErr => Sys2Proof.Machine.execClearErr s
  | .faultClear => Sys2Proof.Machine.execFaultClear s
  | .logTimeRead => Sys2Proof.Machine.execLogTimeRead s
  | .traceRecordWrite => Sys2Proof.Machine.execTraceRecordWrite s
  | .registerWrite off value => Sys2Proof.Machine.execRegisterWrite off value s
  | .wilrilLinkDown => Sys2Proof.Machine.execWilrilLinkDown s
  | .hostMemoryReadResponse tag answer => Sys2Proof.Machine.execHostMemoryReadResponse tag answer s
  | .matrixInstructionComplete core => Sys2Proof.Machine.execMatrixInstructionComplete core s
  | .instructionFetchUe core => Sys2Proof.Machine.execInstructionFetchUe core s
  | .resetNReleased => Sys2Proof.Machine.execResetNReleased s
  | .jtagAccess access => Sys2Proof.Machine.execJtagAccess access s
  | .reservedClassDescriptor ring => Sys2Proof.Machine.execReservedClassDescriptor ring s
  | .twinReservedOp ring => Sys2Proof.Machine.execTwinReservedOp ring s
  | .reservedWilrilMessage hdr => Sys2Proof.Machine.execReservedWilrilMessage hdr s

end Sys2Proof.Machine
end

