-- ==== Sys2Proof/Machine/Step.lean ====
section
/-! DEFINITION. One step: the command at the front of the queue, or an idle tick (log 3). -/

namespace Sys2Proof.Machine

open Sys2Proof

/-- With nothing to do, the timestamp counter of the always-on island counts on (R488, log 3). -/
def idleTick (s : State) : State := { s with time := s.time + 10 }

/-- The front command runs on the rest of the queue; an empty queue idles. -/
def step (s : State) : Host.Outcome State Fault Refusal :=
  match s.pending with
  | [] => .next (idleTick s)
  | c :: rest => exec c { s with pending := rest }

/-- `s` with the command that a table word spells in front; no row of this table gives bits. -/
def State.withFetchWord (s : State) (nbits w : Nat) : State :=
  match decodeTableWord nbits w with
  | some c => { s with pending := c :: s.pending }
  | none => s

end Sys2Proof.Machine
end

