-- ==== Sys2Proof/WellFormed.lean ====
section
/-! DEFINITION. Which commands the environment can send: operands within the widths and ranges the spec gives them. A
command that is not well formed has a meaning all the same: `exec` is total. -/

namespace Sys2Proof

/-- R56: a request is 32 B to 2 KiB of whole 32 B units, with a poison flag for each unit of a write. -/
def FarOp.wf : FarOp → Bool
  | .read len => decide (32 ≤ len) && decide (len ≤ 2048) && len % 32 == 0
  | .write data poison =>
    decide (32 ≤ data.length) && decide (data.length ≤ 2048) && data.length % 32 == 0 && poison.length == data.length / 32

/-- R17, R22: a device address has 48 bits. -/
def daWf (da : Nat) : Bool := decide (da < 2 ^ 48)

/-- R339: a range of a host-visible space. -/
def hostRangeWf (space : HostSpace) (off len : Nat) : Bool :=
  decide (off + len ≤ match space with | .bar0 => 0x1000000 | .bar2 => 0x400000 | .window => 0x4000000)

/-- R27, R438: what a JTAG access names. -/
def JtagAccess.wf : JtagAccess → Bool
  | .readReg off => decide (off < 0x1000000)
  | .writeReg off _ => decide (off < 0x1000000)
  | .readMem da _ => daWf da
  | .writeMem da _ => daWf da
  | _ => true

/-- R403, R404: CLASS is a byte, and a message has at most 1,024 payload flits. -/
def MsgHeader.wf (h : MsgHeader) : Bool := decide (h.cls < 256) && decide (h.flits ≤ 1024)

/-- R404: FLITS counts the 64 B flits of a message's payload. -/
def MsgHeader.carries (h : MsgHeader) (bytes : List Byte) : Bool := h.wf && h.flits == (bytes.length + 63) / 64

def Instr.wf : Instr → Bool
  | .powerUp vin => decide (vin < 65536)
  | .inputCutThreshold vin => decide (vin < 65536)
  | .supplyFaultTimeout vin => decide (vin < 65536)
  | .powerMeasurement vin pin => decide (vin < 65536) && decide (pin < 65536)
  | .sensorSample _ (some t) => decide (-128 ≤ t) && decide (t ≤ 127)
  | .farPathRequest _ _ _ da req => daWf da && req.wf
  | .stackLoadingComplete _ _ failed => failed.all (fun f => decide (f < 2176))
  | .multicastDelivery group => decide (group < 65536)
  | .multicastWaitTimeout group => decide (group < 65536)
  | .seqTableWrite off _ => off % 4 == 0 && decide (0x502000 ≤ off) && decide (off < 0x538000)
  | .pact _ _ _ row => decide (row < 16384)
  | .ringSlotFetch _ slots => decide (1 ≤ slots.length) && decide (slots.length ≤ 8)
  | .l0Reached rate width _ => decide (1 ≤ rate) && decide (rate ≤ 5) && decide (1 ≤ width) && decide (width ≤ 4)
  | .configRequest reg _ => decide (reg < 4096)
  | .hostPostedWrite space off data _ => hostRangeWf space off data.length
  | .hostRead space off len _ => hostRangeWf space off len
  | .hostLineSnoop line => decide (line < 2 ^ 58)
  | .heartbeat hdr _ => hdr.wf
  | .control hdr _ => hdr.wf
  | .ownerUpd hdr _ _ _ => hdr.wf
  | .ack hdr _ => hdr.wf
  | .replMessage hdr _ _ _ _ _ part => hdr.carries part.bytes
  | .bulk hdr _ _ _ part => hdr.carries part.bytes
  | .recovery hdr _ => hdr.wf
  | .reservedWilrilMessage hdr => hdr.wf
  | .coalesceWindowEnd entry => decide (entry < 64)
  | .registerWrite off _ => off % 4 == 0 && decide (off < 0x1000000)
  | .jtagAccess access => access.wf
  | _ => true

end Sys2Proof
end

