-- ==== Sys2Proof/Safety.lean ====
section
/-! DEFINITION. What the statements about the module are made of: the invariant that every step keeps, the condition under
which a core issues an instruction, and what two states have in common. -/

namespace Sys2Proof.Machine

open Sys2Proof

/-! ### The invariant -/

/-- R3: the number of absent cores of a row of 100. -/
def absentInRow (f : Fuses) (row : Nat) : Nat := (f.absent.filter (fun n => n / 100 == row)).length

/-- R1, R3: full grade has every core, select grade 20 absent cores in each of the twelve rows. -/
def Fuses.legal (f : Fuses) : Bool :=
  match f.grade with
  | .full => f.absent.isEmpty
  | .select =>
    f.absent.all (fun n => decide (n < 1200)) && (List.range 12).all (fun r => absentInRow f r == 20)
      && decide (f.absent.Pairwise (· < ·))

/-- R435: REPROV stops at 3. R456: the SVN fuse has 64 steps. -/
def Otp.legal (o : Otp) : Bool := decide (o.reprov ≤ 3) && decide (o.svn ≤ 64)

/-- Every waiting command is well formed, the fuses of manufacture are those of a grade that exists, and the fuses that
commands burn are within their range. -/
def State.inv (s : State) : Bool := s.pending.all Instr.wf && s.fuses.legal && s.otp.legal

/-- The rows of R435's table, as a relation of the fuses before and after: nothing, or one change of state. -/
def otpChange (o o' : Otp) : Prop :=
  (o'.state = o.state ∧ o'.reprov = o.reprov)
    ∨ (o.state = .provisioning ∧ o'.state = .deployed ∧ o'.reprov = o.reprov)
    ∨ (o.state = .provisioning ∧ o'.state = .decommissioned ∧ o'.reprov = o.reprov)
    ∨ (o.state = .deployed ∧ o'.state = .decommissioned ∧ o'.reprov = o.reprov)
    ∨ (o.state = .decommissioned ∧ o'.state = .provisioning ∧ o.reprov < 3 ∧ o'.reprov = o.reprov + 1)

/-! ### Core instructions -/

/-- Core `core` issues its current task's instruction, of CLASS `cls` and OP `op`: the core runs, the fetch meets no
uncorrectable error (R213), the task waits for nothing (R189), and the instruction's predicate is not false (R196). -/
abbrev Issues (s : State) (core cls op : Nat) (f : Fetch) : Prop :=
  fetchOp s core cls op = some f ∧ fetchUe f = false ∧ flagOwned f.c f.t f.w = false ∧ predOff f.task f.w = false ∧ waitOf s f = none

/-- The instructions of core `n` (R195, R198, R203–R208, R231, R253, R255, R259), each with its CLASS and OP. -/
def coreForms (n : Fin 1200) : List (Instr × Nat × Nat) :=
  let ops := fun (cls : Nat) (l : List Instr) => l.zipIdx.map (fun p => (p.1, cls, p.2))
  ops 0 [.nop n, .loop n, .breakLoop n, .jump n, .yieldTask n, .tend n, .strap n, .bkpt n]
    ++ ops 1 [.movi n, .mov n, .add n, .addi n, .sub n, .mul n, .and n, .or n, .xor n, .shl n, .shr n, .sar n, .minu n,
      .maxu n, .cmp n, .cmpi n, .lidx n, .coreid n, .time n, .fset n]
    ++ ops 2 [.pushh n, .pushv n, .popv n, .drop n, .dup n, .move n, .split n, .hlen n, .qtest n, .qcount n]
    ++ ops 3 [.ld n, .st n, .fence n] ++ ops 4 [.signal n, .post n, .dmap n, .event n] ++ ops 5 [.mma n, .mscl n, .mldc n]
    ++ ops 6 [.vop n, .vqmx n] ++ ops 7 [.chain n] ++ ops 8 [.gather n, .scatter n, .compress n, .expand n]

/-- The state after an instruction that completes as it issues: it is counted and traced (R227, R502), `g` is its effect
on the core, and the task goes on (R200). -/
def issued (s : State) (f : Fetch) (g : Core → Core) : State := retire (noteIssue s f) f g

/-- ... with `g` its effect on the task alone. -/
def issuedTask (s : State) (f : Fetch) (g : Task → Task) : State :=
  modCore (noteIssue s f) f.n (fun c => modTask c f.t g)

/-! ### Descriptors -/

/-- The state in which a ring's next descriptor `x` has left its queue, in its turn (R393). -/
def popRing (s : State) (n : Nat) (x : RDesc) : State :=
  modRing (takeTurn s n x) n (fun r => { r with queue := r.queue.drop 1 })

/-- `x` as work that is done for a descriptor or a message leaves it, once its tags are put off again (R14). -/
def after (s x : State) : State := { x with cause := s.cause }

/-- Ring n hands over `x` (R393), and the checks of R381 find nothing; `cores` are the present cores that it names. In `u` the
descriptor is counted, traced, and named as the cause of what follows (R14). -/
abbrev HandsOver (s : State) (n : Nat) (x : RDesc) (u : State) (cores : List Nat) : Prop :=
  frontChoice s n = some x ∧ (checkHead (popRing s n x) n x).fail = none ∧ (checkHead (popRing s n x) n x).cores = cores
    ∧ u = { trace (count (checkHead (popRing s n x) n x).s (oRing n rDescCnt)) 4 n (dJobtag x.d)
        (data := x.d.w0.toNat + put x.d.w1.toNat 64) with cause := (dJobtag x.d, 0xFFF) }

/-! ### Messages from the partner -/

/-- R405: a message of class `cls` is the next of its class, with a good tag, on a link that is UP, and control core 3 runs to
take it, but for a heartbeat (R38); `u` has counted it, with its job tag as the cause of what follows (R14). -/
abbrev Delivers (s : State) (hdr : MsgHeader) (cls : Nat) (u : State) : Prop :=
  s.twin.link = 2 ∧ (cls = 1 ∨ core3Waits s = false) ∧ hdr.tagOk = true ∧ hdr.mseq = tget 0 s.twin.rxSeq cls
    ∧ u = { s with
        cause := (hdr.jobtag, 0xFFF)
        twin := { s.twin with
          rxSeq := tset 0 cls (hdr.mseq + 1) s.twin.rxSeq, keyMsgs := s.twin.keyMsgs + 1
          sendq := s.twin.sendq.filter (fun m => !m.sent || msgAcked m.cls) } }

/-! ### Large effects -/

/-- `x` as a command that began in `s` leaves it: the queue of commands and the fuses are those of `s` (log 11). -/
def kept (s x : State) : State := { x with pending := s.pending, fuses := s.fuses, otp := s.otp }

/-- R484, R487, R492: a cut has left the module in OFF with only P12 and VAON, and THM_TRIP names its kind. -/
abbrev wasCut (s t : State) (kind : Nat) : Prop :=
  t.power.st = .off ∧ (∀ k, railAt t k = if k < 2 then .on else .off) ∧ t.dram = [] ∧ t.scratch = [] ∧ t.cores = []
    ∧ t.rings = [] ∧ t.pins.pairAliveOut = false ∧ regFld t oThmTrip 7 0 = kind ∧ regBit t oThmTrip 31 = true
    ∧ t.fuses = s.fuses ∧ t.otp = s.otp

/-- R491, R492: what a module reset leaves, whatever asked for it. -/
abbrev wasReset (s t : State) (code : Nat) : Prop :=
  t.phase = 1 ∧ t.lastReset = code ∧ t.bootDone = false ∧ t.pins.pairAliveOut = false ∧ t.dram = [] ∧ t.scratch = []
    ∧ t.cores = [] ∧ t.rings = [] ∧ t.link = {} ∧ t.twin = {} ∧ t.effect = [] ∧ t.log.ring = s.log.ring
    ∧ t.log.wptr = s.log.wptr ∧ t.log.first = s.log.first ∧ regGet t oThmTrip = regGet s oThmTrip

/-! ### What two states have in common -/

/-- Every byte of DRAM, of the scratchpads and of the exchange window, with the poison flags and the bit errors. -/
abbrev sameMemory (s t : State) : Prop :=
  t.dram = s.dram ∧ t.dramErr = s.dramErr ∧ t.poison = s.poison ∧ t.scratch = s.scratch
    ∧ t.scratchPoison = s.scratchPoison ∧ t.window = s.window

end Sys2Proof.Machine
end

