-- ==== Sys2Proof/Certificates/Slice0/Obligations.lean ====
section
/-! DEFINITION. The statements for the provers, each a closed proposition about the model. Where a statement rests on a
choice or reading of the model and not on the spec's words, its text names the log entry. -/

open Sys2Proof Sys2Proof.Machine

/-! ### Core instructions: SCALAR -/

/-- MOVI, MOV, LIDX, COREID and TIME write P[PD]; LIDX reads the iteration of a live loop level, else 0 (R202). Rests on
R203. -/
def Obligations.ScalarMoves : Prop :=
  ∀ (n : Fin 1200) (s : State) (f : Fetch),
    (Issues s n 1 0 f → exec (.movi n) s = .next (issued s f (fun c => pSet c (iPd f.w) (iImm f.w)))) ∧
    (Issues s n 1 1 f → exec (.mov n) s = .next (issued s f (fun c => pSet c (iPd f.w) (pGet f.c (iPa f.w))))) ∧
    (Issues s n 1 16 f → exec (.lidx n) s = .next (issued s f (fun c => pSet c (iPd f.w)
      (((f.task.loops[fld (iImm f.w) 1 0]?).map (·.iter)).getD 0)))) ∧
    (Issues s n 1 17 f → exec (.coreid n) s = .next (issued s f (fun c => pSet c (iPd f.w) (w32 n.val)))) ∧
    (Issues s n 1 18 f → exec (.time n) s = .next (issued s f (fun c => pSet c (iPd f.w) (s.time.setWidth 32))))

/-- ADD, ADDI, SUB and MUL wrap at 32 bits; MINU and MAXU compare unsigned. Rests on R203. -/
def Obligations.ScalarArithmetic : Prop :=
  ∀ (n : Fin 1200) (s : State) (f : Fetch) (a b : W32), a = pGet f.c (iPa f.w) → b = pGet f.c (iPb f.w) →
    (Issues s n 1 2 f → exec (.add n) s = .next (issued s f (fun c => pSet c (iPd f.w) (a + b)))) ∧
    (Issues s n 1 3 f → exec (.addi n) s = .next (issued s f (fun c => pSet c (iPd f.w) (a + iImm f.w)))) ∧
    (Issues s n 1 4 f → exec (.sub n) s = .next (issued s f (fun c => pSet c (iPd f.w) (a - b)))) ∧
    (Issues s n 1 5 f → exec (.mul n) s = .next (issued s f (fun c => pSet c (iPd f.w) (a * b)))) ∧
    (Issues s n 1 12 f → exec (.minu n) s = .next (issued s f (fun c => pSet c (iPd f.w) (if a < b then a else b)))) ∧
    (Issues s n 1 13 f → exec (.maxu n) s = .next (issued s f (fun c => pSet c (iPd f.w) (if a < b then b else a))))

/-- AND, OR and XOR, and the shifts by IMM[4:0]. Rests on R203. -/
def Obligations.ScalarLogic : Prop :=
  ∀ (n : Fin 1200) (s : State) (f : Fetch) (a b : W32) (k : Nat),
    a = pGet f.c (iPa f.w) → b = pGet f.c (iPb f.w) → k = (iImm f.w).toNat % 32 →
    (Issues s n 1 6 f → exec (.and n) s = .next (issued s f (fun c => pSet c (iPd f.w) (a &&& b)))) ∧
    (Issues s n 1 7 f → exec (.or n) s = .next (issued s f (fun c => pSet c (iPd f.w) (a ||| b)))) ∧
    (Issues s n 1 8 f → exec (.xor n) s = .next (issued s f (fun c => pSet c (iPd f.w) (a ^^^ b)))) ∧
    (Issues s n 1 9 f → exec (.shl n) s = .next (issued s f (fun c => pSet c (iPd f.w) (a <<< k)))) ∧
    (Issues s n 1 10 f → exec (.shr n) s = .next (issued s f (fun c => pSet c (iPd f.w) (a >>> k)))) ∧
    (Issues s n 1 11 f → exec (.sar n) s = .next (issued s f (fun c => pSet c (iPd f.w) (a.sshiftRight k))))

/-- CMP, CMPI and FSET write F[FD]; the eight codes of COND. Rests on R203. -/
def Obligations.ScalarFlags : Prop :=
  (∀ (n : Fin 1200) (s : State) (f : Fetch),
    (Issues s n 1 14 f → exec (.cmp n) s = .next (issuedTask s f (fun t =>
      advance (fSet t (iFd f.w) (condHolds (iCond f.w) (pGet f.c (iPa f.w)) (pGet f.c (iPb f.w))))))) ∧
    (Issues s n 1 15 f → exec (.cmpi n) s = .next (issuedTask s f (fun t =>
      advance (fSet t (iFd f.w) (condHolds (iCond f.w) (pGet f.c (iPa f.w)) (iImm f.w)))))) ∧
    (Issues s n 1 19 f → exec (.fset n) s = .next (issuedTask s f (fun t =>
      advance (fSet t (iFd f.w) (bitOf (iImm f.w) 0)))))) ∧
  (∀ a b : W32,
    (condHolds 0 a b = true ↔ a = b) ∧ (condHolds 1 a b = true ↔ a ≠ b) ∧
    (condHolds 2 a b = true ↔ a < b) ∧ (condHolds 3 a b = true ↔ b ≤ a) ∧
    (condHolds 4 a b = true ↔ a.toInt < b.toInt) ∧ (condHolds 5 a b = true ↔ b.toInt ≤ a.toInt) ∧
    condHolds 6 a b = true ∧ condHolds 7 a b = false)

/-- An instruction that writes P[PD] leaves every other parameter, every flag, every other task, every queue and engine
of the core, every other core and every other part of the module as they were, but for its counters and trace; the task
goes to the next instruction unless a loop ends here (R200). Rests on R185, R203. -/
def Obligations.ParameterWriteFrame : Prop :=
  ∀ (n : Fin 1200) (cls op : Nat) (s t : State) (f : Fetch) (v : W32),
    Issues s n cls op f → t = issued s f (fun c => pSet c (iPd f.w) v) →
    pGet (coreAt t n) (iPd f.w) = v ∧
    (∀ p, p ≠ iPd f.w → pGet (coreAt t n) p = pGet (coreAt s n) p) ∧
    (∀ u, u ≠ f.t → taskAt (coreAt t n) u = taskAt (coreAt s n) u) ∧
    (taskAt (coreAt t n) f.t).flags = f.task.flags ∧
    ((∀ l ∈ f.task.loops, l.bend ≠ f.task.pc) →
      (taskAt (coreAt t n) f.t).pc = (f.task.pc + 1) % 1024 ∧ (taskAt (coreAt t n) f.t).loops = f.task.loops) ∧
    coreAt t n = { coreAt s n with params := (coreAt t n).params, tasks := (coreAt t n).tasks } ∧
    (∀ m, m ≠ n.val → coreAt t m = coreAt s m) ∧
    t = { s with cores := t.cores, regs := t.regs, log := t.log, trace := t.trace }

/-! ### Core instructions: CTRL, tasks and traps -/

/-- An instruction whose predicate is false goes on, with no other effect, a LOOP after its BEND. NOP goes on; JUMP
continues at TARGET; LOOP reads its count and pushes a level, or goes on after BEND; BREAK leaves its loops; YIELD
switches to the next ready task, if there is one (R192). Rests on R196, R198–R201. Where a skipped or left loop shares
its BEND with an outer one, that the outer is decided is the model's reading (log 14). -/
def Obligations.ControlFlow : Prop :=
  ∀ (n : Fin 1200) (s : State) (f : Fetch),
    (Issues s n 0 0 f → exec (.nop n) s = .next (issuedTask s f advance)) ∧
    (Issues s n 0 3 f → exec (.jump n) s = .next (issuedTask s f (fun t =>
      { t with pc := fld f.w 73 64, st := .ready, block := none }))) ∧
    (∀ k : W32, Issues s n 0 1 f → k = (if bitOf f.w 74 then pGet f.c (fld f.w 80 75) else w32 (fld f.w 127 96)) →
      (k ≠ 0 ∨ bitOf f.w 81 = true → exec (.loop n) s = .next (issuedTask s f (fun t =>
        { t with
          loops := { beg := (t.pc + 1) % 1024, bend := fld f.w 73 64, left := k.toNat, iter := 0
                     forever := bitOf f.w 81 } :: t.loops
          pc := (t.pc + 1) % 1024, st := .ready, block := none }))) ∧
      (k = 0 ∧ bitOf f.w 81 = false → exec (.loop n) s = .next (issuedTask s f (fun t => advanceFrom t (fld f.w 73 64))))) ∧
    (∀ l : LoopLvl, Issues s n 0 2 f → f.task.loops[fld f.w 65 64]? = some l →
      exec (.breakLoop n) s = .next (issuedTask s f (fun _ =>
        advanceFrom { f.task with loops := f.task.loops.drop (fld f.w 65 64 + 1) } l.bend))) ∧
    (Issues s n 0 4 f → ∃ t, exec (.yieldTask n) s = .next t ∧ taskAt (coreAt t n) f.t = advance f.task ∧
      (coreAt t n).current = ((nextReady (coreAt s n)).getD f.t)) ∧
    (∀ i cls op, (i, cls, op) ∈ coreForms n → fetchOp s n cls op = some f → fetchUe f = false →
      flagOwned f.c f.t f.w = false → predOff f.task f.w = true → exec i s = .next (issuedTask s f (fun t =>
        if (cls, op) = (0, 1) then advanceFrom t (fld f.w 73 64) else advance t)))

/-- After the instruction at a loop's BEND the loop repeats from its first instruction and counts an iteration; after
the last iteration the level is popped and the loop around it decides; elsewhere the next instruction follows. Rests on
R200, R202. -/
def Obligations.LoopEnd : Prop :=
  ∀ (t : Task) (pc : Nat),
    (t.loops = [] → advanceFrom t pc = { t with pc := (pc + 1) % 1024, st := .ready, block := none }) ∧
    (∀ l rest, t.loops = l :: rest →
      (l.bend ≠ pc → advanceFrom t pc = { t with pc := (pc + 1) % 1024, st := .ready, block := none }) ∧
      (l.bend = pc → (l.forever = true ∨ 1 < l.left) → advanceFrom t pc =
        { t with loops := { l with left := l.left - 1, iter := l.iter + 1 } :: rest, pc := l.beg, st := .ready
                 block := none }) ∧
      (l.bend = pc → l.forever = false → l.left ≤ 1 → advanceFrom t pc = advanceFrom { t with loops := rest } pc))

/-- STRAP, BKPT, a reserved encoding and an uncorrectable fetch error trap with their causes, and nothing is popped or
pushed; a BKPT that is not enabled, at level LOCKED or on a sealed core acts as NOP; an instruction whose fetch meets an
uncorrectable error traps with FETCH_UE, and a reserved encoding whose predicate is false goes on with no other effect.
Rests on R195, R196, R198, R213, R221. That a trapping instruction pops nothing is the model's reading (log 15). -/
def Obligations.TrapCommands : Prop :=
  ∀ (n : Fin 1200) (s : State) (f : Fetch),
    (Issues s n 0 6 f → exec (.strap n) s
      = .next (trapCore (noteIssue s f) n 11 f.t f.task.pc (iTag f.w) 0 (fld f.w 79 64))) ∧
    (Issues s n 0 7 f → regBit (noteIssue s f) (oCore n cCtl) 8 = true → s.sec.debug ≠ .locked → f.c.sealedBy = none →
      exec (.bkpt n) s = .next (trapCore (noteIssue s f) n 12 f.t f.task.pc (iTag f.w))) ∧
    (Issues s n 0 7 f → (regBit (noteIssue s f) (oCore n cCtl) 8 = false ∨ s.sec.debug = .locked ∨
        f.c.sealedBy.isSome = true) → exec (.bkpt n) s = .next (issuedTask s f advance)) ∧
    (fetchNext s n = some f → opCount (iClass f.w) ≤ iOp f.w →
      (fetchUe f = true → exec (.reservedEncodingFetch n) s = .next (trapCore s n 1 f.t f.task.pc (iTag f.w))) ∧
      (fetchUe f = false → flagOwned f.c f.t f.w = false → predOff f.task f.w = false → exec (.reservedEncodingFetch n) s
        = .next (trapCore (noteIssue s f) n 13 f.t f.task.pc (iTag f.w))) ∧
      (fetchUe f = false → flagOwned f.c f.t f.w = false → predOff f.task f.w = true →
        exec (.reservedEncodingFetch n) s = .next (issuedTask s f advance))) ∧
    (fetchNext s n = some f → exec (.instructionFetchUe n) s = .next (trapCore s n 1 f.t f.task.pc (iTag f.w)))

/-- The first trap of a run is recorded in CORE_TRAP0–2 with the launch's job tag, with MORE when another arose with it,
and the core is TRAPPED (no load waits for it); a later one sets MORE. No byte of memory changes, nor any register that
nothing counts in. Rests on R222, R223. That a core in STOPPING takes the trap as one in RUNNING does is the model's
reading (log 30). -/
def Obligations.TrapEntry : Prop :=
  ∀ (n : Fin 1200) (s t : State) (cause task pc tag queue code : Nat) (more : Bool),
    t = trapCore s n cause task pc tag queue code more →
    ((coreAt s n).st = .running ∨ (coreAt s n).st = .stopping →
      regGet t (oCore n cTrap0) = w32 (cause + task * 2 ^ 8 + pc * 2 ^ 16
        + (if more then 2 ^ 30 else 0) + 2 ^ 31) ∧
      regGet t (oCore n cTrap1)
        = w32 (tag + (if [2, 4, 5, 6].contains cause then queue else 0) * 2 ^ 12 + code * 2 ^ 16) ∧
      regGet t (oCore n cTrap2) = (coreAt s n).jobtag ∧
      (s.coreOps = [] → (coreAt t n).st = .trapped) ∧
      (∀ p, p ≠ oCore n cTrap0 → p ≠ oCore n cTrap1 → p ≠ oCore n cTrap2 → p ≠ oLateCnt → p ≠ oCoalCnt →
        p ≠ oTraceDrop → (∀ c, p ≠ oLogDrop c) → regGet t p = regGet s p) ∧
      sameMemory s t) ∧
    ((coreAt s n).st = .trapped → t = { s with regs := t.regs } ∧
      regGet t (oCore n cTrap0) = setFld (regGet s (oCore n cTrap0)) 30 30 1 ∧
      (∀ p, p ≠ oCore n cTrap0 → regGet t p = regGet s p))

/-- TEND ends its task and drops its loops; the last task of a drained core makes it LOADED and ends its part of the
launch; so does a stopped core that has drained. A blocked task whose condition is met is ready; the core switches from
a blocked task; a core whose live tasks are all blocked traps with DEADLOCK. Rests on R192, R193, R198, R218, R219. -/
def Obligations.TaskLife : Prop :=
  ∀ (n : Fin 1200) (s : State),
    (∀ f, Issues s n 0 5 f → s.coreOps = [] → ∃ t, exec (.tend n) s = .next t ∧
      (taskAt (coreAt t n) f.t).st = .ended ∧ (taskAt (coreAt t n) f.t).loops = [] ∧
      (coreAt t n).current = (nextReady (coreAt s n)).getD f.t) ∧
    (∀ f did, Issues s n 0 5 f → (coreAt s n).tasks = [(f.t, f.task)] → drained (coreAt s n) = true →
      (coreAt s n).launch = some did → s.coreOps = [] → s.stops = [] →
      ∃ t, exec (.tend n) s = .next t ∧ (coreAt t n).st = .loaded ∧ (coreAt t n).launch = none) ∧
    (∀ did, (coreAt s n).st = .stopping → drained (coreAt s n) = true → (coreAt s n).launch = some did →
      s.coreOps = [] → s.stops = [] →
      ∃ t, exec (.stopDrainComplete n) s = .next t ∧ (coreAt t n).st = .loaded ∧ (coreAt t n).launch = none) ∧
    (∀ k : Fin 4, (taskAt (coreAt s n) k).st = .blocked → taskWait s n k = none →
      (taskAt (coreAt s n) (coreAt s n).current).st ≠ .ended → (coreAt s n).sys = [] → ∃ t, exec (.taskReady n k) s = .next t ∧
      taskAt (coreAt t n) k = { taskAt (coreAt s n) k with st := .ready, block := none } ∧
      (∀ u, u ≠ k.val → taskAt (coreAt t n) u = taskAt (coreAt s n) u) ∧ t = { s with cores := t.cores }) ∧
    (∀ u, (coreAt s n).st = .running → (taskAt (coreAt s n) (coreAt s n).current).st = .blocked →
      nextReady (coreAt s n) = some u → ∃ t, exec (.taskSwitch n) s = .next t ∧
      coreAt t n = { coreAt s n with current := u } ∧ sameMemory s t) ∧
    (∀ k rest, (coreAt s n).st = .running → regFld s (oCore n cCtl) 27 16 ≠ 0 →
      (List.range 4).filter (fun j => decide ((taskAt (coreAt s n) j).st ≠ .ended)) = k :: rest →
      (∀ j ∈ k :: rest, (taskAt (coreAt s n) j).st = .blocked ∧ (taskWait s n j).isSome = true) →
      exec (.deadlock n) s = .next (trapCore s n 10 k (taskAt (coreAt s n) k).pc (iTag (fetchTask s n k).w)
        (match (taskAt (coreAt s n) k).block with | some (.src q) => q | some (.dst q) => q | _ => 0)))

/-! ### Core instructions: QUEUE, MEM and SYS -/

/-- PUSHH builds a handle whose region is within R191, PUSHV a value; POPV reads a value that is not poisoned; HLEN a
length with its poison bit; QTEST and QCOUNT count the entries visible, popping none. Rests on R203, R204. -/
def Obligations.QueueValues : Prop :=
  ∀ (n : Fin 1200) (s : State) (f : Fetch) (e : W64), e = src0 f →
    (∀ off len, Issues s n 2 0 f →
      off = fld f.w 82 64 + (if bitOf f.w 89 then (pGet f.c (fld f.w 88 83)).toNat else 0) →
      len = (if bitOf f.w 116 then (pGet f.c (fld f.w 115 110)).toNat else fld f.w 109 90) →
      off % 32 = 0 → len % 32 = 0 → off + len ≤ 524288 → exec (.pushh n) s
        = .next (issued s f (fun c => pushDst c f.w 0 (mkHandle off len (fld f.w 120 117) false (iTag f.w))))) ∧
    (Issues s n 2 1 f → exec (.pushv n) s
      = .next (issued s f (fun c => pushDst c f.w 0 (mkValue (pGet f.c (iPa f.w)) false (iTag f.w))))) ∧
    (Issues s n 2 2 f → eKind e = 1 → ePoison e = false → exec (.popv n) s
      = .next (issued s f (fun c => pSet (popSources c f.w) (iPd f.w) (eVal e)))) ∧
    (Issues s n 2 7 f → handleFaults e = [] → exec (.hlen n) s
      = .next (issued s f (fun c => modTask (pSet (popSources c f.w) (iPd f.w) (w32 (eLen e))) f.t
          (fun t => fSet t (iFd f.w) (ePoison e))))) ∧
    (Issues s n 2 8 f → exec (.qtest n) s = .next (issuedTask s f (fun t =>
      advance (fSet t (iFd f.w) (decide ((iImm f.w).toNat ≤ (visible f.c (iSrc f.w 0)).length)))))) ∧
    (Issues s n 2 9 f → exec (.qcount n) s
      = .next (issued s f (fun c => pSet c (iPd f.w) (w32 (visible f.c (iSrc f.w 0)).length))))

/-- DROP, DUP and MOVE take an entry of either kind and copy it with the instruction's tag; SPLIT cuts a handle after
min(IMM, LEN) bytes. Rests on R186, R204. That DROP, DUP and MOVE check a handle's KIND alone is the model's choice (log
73). -/
def Obligations.QueueEntries : Prop :=
  ∀ (n : Fin 1200) (s : State) (f : Fetch) (e : W64) (m : Nat), e = src0 f → m = min (iImm f.w).toNat (eLen e) →
    (Issues s n 2 3 f → eKind e < 2 → exec (.drop n) s = .next (issued s f (fun c => popSources c f.w))) ∧
    (Issues s n 2 4 f → eKind e < 2 → exec (.dup n) s = .next (issued s f (fun c =>
      pushDst (pushDst (popSources c f.w) f.w 0 (retag e (iTag f.w))) f.w 1 (retag e (iTag f.w))))) ∧
    (Issues s n 2 5 f → eKind e < 2 → exec (.move n) s = .next (issued s f (fun c =>
      pushDst (popSources c f.w) f.w 0 (retag e (iTag f.w))))) ∧
    (Issues s n 2 6 f → handleFaults e = [] → exec (.split n) s = .next (issued s f (fun c =>
      pushDst (pushDst (popSources c f.w) f.w 0 (mkHandle (eOff e) m (eFmt e) (ePoison e) (iTag f.w))) f.w 1
        (mkHandle (eOff e + m) (eLen e - m) (eFmt e) (ePoison e) (iTag f.w)))))

/-- An instruction of the QUEUE class traps on an entry that it may not use, popping nothing: POPV with POISON or KIND,
DROP, DUP and MOVE on a reserved KIND, SPLIT and HLEN on a handle's fault, PUSHH with ALIGN or BOUNDS; of two faults the
lower CAUSE is recorded, with MORE. Rests on R191, R204, R221, R223. That nothing is popped, and QUEUE 0 for PUSHH, are
the model's reading (logs 15 and 17); that DUP, DROP and MOVE check a handle's KIND alone is its choice (log 73). -/
def Obligations.QueueTraps : Prop :=
  ∀ (n : Fin 1200) (s : State) (f : Fetch) (e : W64), e = src0 f →
    (Issues s n 2 2 f → ePoison e = true → exec (.popv n) s = .next (trapCore (noteIssue s f) n 2 f.t f.task.pc
      (iTag f.w) (iSrc f.w 0) 0 (decide (eKind e ≠ 1)))) ∧
    (Issues s n 2 2 f → ePoison e = false → eKind e ≠ 1 → exec (.popv n) s
      = .next (trapCore (noteIssue s f) n 6 f.t f.task.pc (iTag f.w) (iSrc f.w 0))) ∧
    (∀ (i : Instr) (op : Nat), (i, op) ∈ [(.drop n, 3), (.dup n, 4), (.move n, 5)] → Issues s n 2 op f → 2 ≤ eKind e →
      exec i s = .next (trapCore (noteIssue s f) n 6 f.t f.task.pc (iTag f.w) (iSrc f.w 0))) ∧
    (∀ (i : Instr) (op cause : Nat) (more : List Nat), (i, op) ∈ [(.split n, 6), (.hlen n, 7)] → Issues s n 2 op f →
      handleFaults e = cause :: more → exec i s = .next (trapCore (noteIssue s f) n cause f.t f.task.pc (iTag f.w)
        (iSrc f.w 0) 0 (!more.isEmpty))) ∧
    (∀ off len, Issues s n 2 0 f →
      off = fld f.w 82 64 + (if bitOf f.w 89 then (pGet f.c (fld f.w 88 83)).toNat else 0) →
      len = (if bitOf f.w 116 then (pGet f.c (fld f.w 115 110)).toNat else fld f.w 109 90) →
      (off % 32 ≠ 0 ∨ len % 32 ≠ 0 → exec (.pushh n) s = .next (trapCore (noteIssue s f) n 4 f.t f.task.pc
        (iTag f.w) 0 0 (decide (524288 < off + len)))) ∧
      (off % 32 = 0 → len % 32 = 0 → 524288 < off + len → exec (.pushh n) s
        = .next (trapCore (noteIssue s f) n 5 f.t f.task.pc (iTag f.w)))) ∧
    (∀ cause more, handleFaults e = cause :: more → eKind e = 0 →
      (cause = 4 ↔ eOff e % 32 ≠ 0 ∨ eLen e % 32 ≠ 0) ∧ (5 ∈ cause :: more ↔ 524288 < eOff e + eLen e) ∧
      (6 ∈ cause :: more ↔ 14 ≤ eFmt e))

/-- LD and ST with bytes to move take a transfer slot, pop their handle and reserve their destination; with LEN 0 they
push their handle at once. A transfer whose requests meet no error and wait for nothing moves its bytes and fills its
destination. One that ends in an address error or at a seal moves what lies before it, frees its destination and traps
with ADDR or SEALED; a load with TRAPP 1 that met poison pushes its handle and traps with POISON. FENCE goes on once the
task's transfers have completed. Rests on R205–R207, R188. When the end of a transfer delivers an operation with ORD is
the model's reading (log 75); so are what becomes of the destination of one that traps (log 24) and the port that a
waiting access enters (log 85). -/
def Obligations.Transfers : Prop :=
  ∀ (n : Fin 1200) (s : State),
    (∀ (f : Fetch) (isStore : Bool), Issues s n 3 (if isStore then 1 else 0) f → memFaults f (src0 f) = [] → eLen (src0 f) ≠ 0 →
      ∃ t, exec (if isStore then .st n else .ld n) s = .next t ∧ t.nextId = s.nextId + 1 ∧ sameMemory s t ∧
        (coreAt t n).queues = (reserveDst (popSources (coreAt s n) f.w) f.w 0).2.queues ∧
        (coreAt t n).xfers = (coreAt s n).xfers ++ [{ id := s.nextId, task := f.t, pc := f.task.pc, tag := iTag f.w
                                                      isStore := isStore, entry := src0 f, da := memDa f
                                                      dst := (reserveDst (popSources (coreAt s n) f.w) f.w 0).1
                                                      trapp := bitOf f.w 123 }]) ∧
    (∀ (f : Fetch) (isStore : Bool), Issues s n 3 (if isStore then 1 else 0) f → memFaults f (src0 f) = [] → eLen (src0 f) = 0 →
      exec (if isStore then .st n else .ld n) s = .next (issued s f (fun c => pushDst (popSources c f.w) f.w 0
        (retag (if isStore then src0 f else setFld (src0 f) 43 43 0) (iTag f.w))))) ∧
    (∀ x id r, xferAt s n id false = some x → xferHeld s n x = false → rangeWaits s x.da (eLen x.entry) = false →
      goodPrefix s (coreAt s n).sealedBy false (accessPieces s x.da (eLen x.entry)) = (eLen x.entry, none) →
      x.trapp = false → (coreAt s n).st = .running → allEnded (coreAt s n) = false → (coreAt s n).sys = [] →
      r = readAs s (coreAt s n).jobtag x.tag x.da (eLen x.entry) → ∃ t, exec (.ldComplete n id) s = .next t ∧
        t.scratch = mwrite r.2.2.scratch (scratchAddr n (eOff x.entry)) r.1 ∧
        coreAt t n = qFill { coreAt s n with xfers := (coreAt s n).xfers.filter (fun y => y.id != x.id) } x.dst
          (retag (setFld x.entry 43 43 (b2n (anyPoison (regionPoison t n (eOff x.entry) (eLen x.entry))))) x.tag)) ∧
    (∀ x id, xferAt s n id true = some x → xferHeld s n x = false → rangeWaits s x.da (eLen x.entry) true = false →
      goodPrefix s (coreAt s n).sealedBy true (accessPieces s x.da (eLen x.entry)) = (eLen x.entry, none) →
      (coreAt s n).st = .running → allEnded (coreAt s n) = false → (coreAt s n).sys = [] → ∃ t u,
        exec (.stPerformed n id) s = .next t ∧ u = caused s (coreAt s n).jobtag x.tag (fun s =>
          daWrite (endXfer s n x) (corePort n) x.da (scratchRead s n (eOff x.entry) (eLen x.entry))
            (regionPoison s n (eOff x.entry) (eLen x.entry))) ∧ sameMemory u t ∧
        coreAt t n = qFill { coreAt s n with xfers := (coreAt s n).xfers.filter (fun y => y.id != x.id) } x.dst
          (retag x.entry x.tag)) ∧
    (∀ x id r u, xferAt s n id false = some x → xferHeld s n x = false → rangeWaits s x.da (eLen x.entry) = false →
      goodPrefix s (coreAt s n).sealedBy false (accessPieces s x.da (eLen x.entry)) = (eLen x.entry, none) →
      x.trapp = true → (coreAt s n).st = .running → (coreAt s n).sys = [] → s.coreOps = [] →
      r = readAs s (coreAt s n).jobtag x.tag x.da (eLen x.entry) →
      u = scratchFill (endXfer r.2.2 n x) n (eOff x.entry) r.1 r.2.1 →
      anyPoison (regionPoison u n (eOff x.entry) (eLen x.entry)) = true → ∃ t, exec (.ldComplete n id) s = .next t ∧
        sameMemory u t ∧ (coreAt t n).st = .trapped ∧
        (coreAt t n).queues = (qFill (coreAt s n) x.dst (retag (setFld x.entry 43 43 1) x.tag)).queues ∧
        regGet t (oCore n cTrap0) = w32 (2 + x.task * 2 ^ 8 + x.pc * 2 ^ 16 + 2 ^ 31)) ∧
    (∀ x id r len cause, xferAt s n id false = some x → xferHeld s n x = false →
      rangeWaits s x.da (eLen x.entry) = false →
      goodPrefix s (coreAt s n).sealedBy false (accessPieces s x.da (eLen x.entry)) = (len, some cause) →
      x.trapp = false → (coreAt s n).st = .running → (coreAt s n).sys = [] → s.coreOps = [] →
      r = readAs s (coreAt s n).jobtag x.tag x.da len → ∃ t, exec (.ldComplete n id) s = .next t ∧
        t.scratch = mwrite r.2.2.scratch (scratchAddr n (eOff x.entry)) r.1 ∧ (coreAt t n).st = .trapped ∧
        (coreAt t n).queues = (qUnreserve (coreAt s n) x.dst).queues ∧
        regGet t (oCore n cTrap0) = w32 (cause + x.task * 2 ^ 8 + x.pc * 2 ^ 16 + 2 ^ 31)) ∧
    (∀ x id len cause, xferAt s n id true = some x → xferHeld s n x = false →
      rangeWaits s x.da (eLen x.entry) true = false →
      goodPrefix s (coreAt s n).sealedBy true (accessPieces s x.da (eLen x.entry)) = (len, some cause) →
      (coreAt s n).st = .running → (coreAt s n).sys = [] → s.coreOps = [] → ∃ t u, exec (.stPerformed n id) s = .next t ∧
        u = caused s (coreAt s n).jobtag x.tag (fun s => daWrite (endXfer s n x) (corePort n) x.da
          (scratchRead s n (eOff x.entry) len) (regionPoison s n (eOff x.entry) len)) ∧ sameMemory u t ∧
        (coreAt t n).st = .trapped ∧ (coreAt t n).queues = (qUnreserve (coreAt s n) x.dst).queues ∧
        regGet t (oCore n cTrap0) = w32 (cause + x.task * 2 ^ 8 + x.pc * 2 ^ 16 + 2 ^ 31)) ∧
    (∀ f, Issues s n 3 2 f → exec (.fence n) s = .next (issuedTask s f advance))

/-- SIGNAL's task waits with its entry until the target's Q13 takes it; POST hands the descriptor in a handle's 64 bytes
to a ring that takes it; DMAP to its channel; EVENT writes a SOFTWARE record. With ORD and a load or store of the task
outstanding, POST, DMAP and EVENT issue and wait to be delivered, and a SIGNAL waits. Rests on R183, R207–R209, R286,
R387. What an EVENT carries as payload, and that POST and DMAP ignore poison, are the model's reading (log 41); so are a
TARGET trap that pops nothing (log 15), a SIGNAL with ORD that pops and blocks at its issue (log 25) and when it is
delivered (log 75); that SIGNAL and EVENT take any entry of KIND below 2 is its choice (log 73). -/
def Obligations.SystemInstructions : Prop :=
  ∀ (n : Fin 1200) (s : State) (f : Fetch) (e : W64) (r0 r1 : Option (Nat × Nat) × Core) (late : Bool), e = src0 f →
    r0 = reserveDst (popSources (coreAt s n) f.w) f.w 0 → r1 = reserveDst r0.2 f.w 1 →
    late = (bitOf f.w 88 && taskXfers (coreAt s n) f.t) →
    (Issues s n 4 0 f → eKind e < 2 → corePresent s (sigTarget f) = true → exec (.signal n) s
      = .next (modCore (noteIssue s f) n (fun c => modTask (popSources c f.w) f.t (fun t =>
          { t with st := .blocked, block := some .signal, since := s.time
                   sig := some (sigTarget f, retag e (iTag f.w), bitOf f.w 88) })))) ∧
    (Issues s n 4 0 f → eKind e < 2 → corePresent s (sigTarget f) = false → exec (.signal n) s
      = .next (trapCore (noteIssue s f) n 7 f.t f.task.pc (iTag f.w))) ∧
    (∀ (k : Fin 4) target v ord, (taskAt (coreAt s n) k).sig = some (target, v, ord) →
      qFree (coreAt s target) 13 1 = true → (ord = true → taskXfers (coreAt s n) k = false) →
      coreHeld s n = false → coreHeld s target = false → (coreAt s n).st = .running →
      ∃ t, exec (.signalDelivered n k) s = .next t ∧ (target ≠ n.val → coreAt t target = qPush (coreAt s target) 13 v) ∧
        queueAt (coreAt t target) 13 = queueAt (qPush (coreAt s target) 13 v) 13 ∧
        taskAt (coreAt t n) k = advance { taskAt (coreAt s n) k with sig := none }) ∧
    (Issues s n 4 1 f → late = false → descFaults e = [] → postTaken (noteIssue s f) (fld f.w 98 89) = true →
      ∃ t, exec (.post n) s = .next t ∧ t.nextId = s.nextId + 1 ∧
        coreAt t n = qFill (modTask r0.2 f.t advance) r0.1 (retag e (iTag f.w)) ∧
        (ringAt t (fld f.w 98 89)).queue = (ringAt s (fld f.w 98 89)).queue
          ++ [{ did := s.nextId, d := handleDesc s n e, slot := 0xFFFF, posted := true, auth := f.c.sealedBy }]) ∧
    (Issues s n 4 2 f → late = false → descFaults e = [] → ∃ t, exec (.dmap n) s = .next t ∧
        coreAt t n = qFill (modTask { r1.2 with dmaps := r1.2.dmaps + b2n (iUseDst f.w 1) } f.t advance) r0.1
          (retag e (iTag f.w)) ∧
        (dmaAt t (16 + 4 * (n / 100) + fld f.w 100 99)).pending = (dmaAt s (16 + 4 * (n / 100) + fld f.w 100 99)).pending
          ++ [{ origin := .core n (iTag f.w) (if iUseDst f.w 1 then some (r1.1.getD (15, 0)) else none)
                head := some (handleDesc s n e), auth := f.c.sealedBy }]) ∧
    (Issues s n 4 3 f → late = false → (iUseSrc f.w 0 = true → eKind e < 2) → (noteIssue s f).log.waiting = [] →
      generalFill (noteIssue s f).log < 256 →
      ∃ t, exec (.event n) s = .next t ∧ coreAt t n = modTask (popSources (coreAt s n) f.w) f.t advance ∧
        t.log.ingress = (noteIssue s f).log.ingress ++ [(false,
          { time := s.time, cls := 7, source := 14, kind := fld f.w 127 112 / 256, sub := fld f.w 127 112 % 256, unit := n
            jobtag := f.c.jobtag, tag := iTag f.w
            payload := BitVec.ofNat 256 (if iUseSrc f.w 0 then e.toNat else 0) })]) ∧
    (∀ (i : Instr) (op : Nat), (i, op) ∈ [(.post n, 1), (.dmap n, 2), (.event n, 3)] → Issues s n 4 op f → late = true →
      (op ≠ 3 → descFaults e = []) → (op = 3 → iUseSrc f.w 0 = true → eKind e < 2) → ∃ t x, exec i s = .next t ∧
        x.op = op ∧ x.task = f.t ∧ x.before = s.nextId ∧ (coreAt t n).sys = (coreAt s n).sys ++ [x] ∧
        taskAt (coreAt t n) f.t = advance f.task ∧ t.rings = s.rings ∧ t.dmas = s.dmas ∧ sameMemory s t)

/-! ### Core instructions: the engines -/

/-- An instruction of the matrix unit or the vector engine pops its handles, reserves its slots and joins its engine's
instructions; an MMA with FIN also holds a place of Q14 (R237). No byte of memory changes. Rests on R189, R210. That an
engine's list has no limit is the model's choice (log 73). -/
def Obligations.EngineIssue : Prop :=
  ∀ (n : Fin 1200) (s : State) (f : Fetch) (r0 r1 : Option (Nat × Nat) × Core) (e : EngInstr),
    r0 = reserveDst (popSources (coreAt s n) f.w) f.w 0 → r1 = reserveDst r0.2 f.w 1 →
    e = engInstr f ((List.range 3).map (srcEntry (coreAt s n) f.w)) [r0.1, r1.1] → srcsFaults f = [] →
    (∀ (i : Instr) (op : Nat), (i, op) ∈ [(.mma n, 0), (.mscl n, 1), (.mldc n, 2)] → Issues s n 5 op f →
      ∃ t, exec i s = .next t ∧ sameMemory s t ∧ coreAt t n = modTask { r1.2 with
        matq := r1.2.matq ++ [e], q14rsv := r1.2.q14rsv + (if op = 0 ∧ mFin f.w then 1 else 0) } f.t advance) ∧
    (∀ (i : Instr) (cls op : Nat), (i, cls, op) ∈ [(.vop n, 6, 0), (.vqmx n, 6, 1), (.chain n, 7, 0), (.gather n, 8, 0),
        (.scatter n, 8, 1), (.compress n, 8, 2), (.expand n, 8, 3)] → Issues s n cls op f →
      ∃ t, exec i s = .next t ∧ sameMemory s t ∧
        coreAt t n = modTask { r1.2 with vecq := r1.2.vecq ++ [e] } f.t advance)

/-- The instruction at the head of the matrix unit leaves it. MLDC loads an accumulator from its region, MSCL the
scales; an MMA adds its products block by block to each element of its accumulator, and with FIN copies it, converted,
to the output buffer, writes the tile from there and pushes its handle to Q14. Rests on R231, R235–R239. A poisoned
scale region and OUTFMT 3 are as the model reads them (log 31). -/
def Obligations.MatrixComplete : Prop :=
  ∀ (n : Fin 1200) (s : State) (e : EngInstr) (rest : List EngInstr) (c : Core), c = coreAt s n →
    c.matq = e :: rest → c.st = .running → allEnded c = false → matFault c e = none → coreHeld s n = false →
    (iOp e.word = 2 → ∃ t, exec (.matrixInstructionComplete n) s = .next t ∧ (coreAt t n).matq = rest ∧
      sameMemory s t ∧ accPoison (coreAt t n).mat (mAcc1 e.word) = linesPoison s n (eOff (engSrc e 0)) 1024 ∧
      ∀ i, i < 256 → tget 0 (accOf (coreAt t n).mat (mAcc1 e.word)) i = w32 (elemGet s n (eOff (engSrc e 0)) 32 i)) ∧
    (iOp e.word = 1 → ∃ t, exec (.matrixInstructionComplete n) s = .next t ∧ (coreAt t n).matq = rest ∧ sameMemory s t ∧
      (coreAt t n).mat.saKb = (if engUses e 0 then mKb e.word else c.mat.saKb) ∧
      (coreAt t n).mat.sa = (if engUses e 0 then scratchRead s n (eOff (engSrc e 0)) (16 * mKb e.word) else c.mat.sa) ∧
      (coreAt t n).mat.sbKb = (if engUses e 1 then mKb e.word else c.mat.sbKb) ∧
      (coreAt t n).mat.sb = (if engUses e 1 then scratchRead s n (eOff (engSrc e 1)) (16 * mKb e.word) else c.mat.sb) ∧
      (coreAt t n).mat.acc0 = c.mat.acc0 ∧ (coreAt t n).mat.acc1 = c.mat.acc1) ∧
    (iOp e.word = 0 → mFin e.word = false → ∃ t, exec (.matrixInstructionComplete n) s = .next t ∧
      (coreAt t n).matq = rest ∧ sameMemory s t ∧ accOf (coreAt t n).mat (mAcc1 e.word)
        = (mmaTile (matPop s n) n c.mat e (if mZero e.word then [] else accOf c.mat (mAcc1 e.word))).1) ∧
    (iOp e.word = 0 → mFin e.word = true → ∃ t, exec (.mmaComplete n) s = .next t ∧ (coreAt t n).matq = rest ∧
      accOf (coreAt t n).mat (mAcc1 e.word)
        = (mmaTile (matPop s n) n c.mat e (if mZero e.word then [] else accOf c.mat (mAcc1 e.word))).1 ∧
      (coreAt t n).mat.out = (List.range 256).flatMap (fun i => leBytes (tileBits (mOutfmt e.word) / 8)
        (tileElem (mOutfmt e.word) (mSat e.word) (tget 0 (accOf (coreAt t n).mat (mAcc1 e.word)) i)).1) ∧
      t.scratch = (List.range 256).foldl (fun m i => elemPut m (scratchAddr n (eOff (engSrc e 2)))
        (tileBits (mOutfmt e.word)) i (sliceNat (coreAt t n).mat.out (tileBits (mOutfmt e.word) / 8 * i)
          (tileBits (mOutfmt e.word) / 8))) s.scratch ∧
      queueAt (coreAt t n) 14 = queueAt c 14 ++ [{ rid := c.nextRid, entry := some (mkHandle (eOff (engSrc e 2))
        (32 * tileBits (mOutfmt e.word)) (mOutfmt e.word + 1) (accPoison (coreAt t n).mat (mAcc1 e.word)) (iTag e.word)) }] ∧
      (coreAt t n).q14rsv = c.q14rsv - 1)

/-- The instruction at the head of the vector engine writes its output, fills its destinations and, with FEN, writes its
flag. VOP and CHAIN write their converted lanes, or with OUTM 2 push their value alone; VQMX writes elements and scales;
a permutation writes the elements that its index, or its mask, names: GATHER and EXPAND one for each active lane, the
fill value where the source has none, COMPRESS the active lanes' elements in order, SCATTER each to its index, where the
higher lane wins. Rests on R240, R243, R245, R249, R251, R254, R260, R261. -/
def Obligations.VectorComplete : Prop :=
  ∀ (n : Fin 1200) (s u : State) (e : EngInstr) (rest : List EngInstr) (c : Core) (w tag : Nat), c = coreAt s n →
    c.vecq = e :: rest → c.st = .running → allEnded c = false → vecFault e = none → coreHeld s n = false →
    u = modCore s n (fun c => { c with vecq := rest }) → w = outBits (vOfmt e.word) → tag = iTag e.word →
    (∀ (r : Result) (v : Option W64), ((iClass e.word = 6 ∧ iOp e.word = 0) ∨ iClass e.word = 7) → r = runChain u n e →
      v = r.tap.map (fun x => mkValue x.v r.poison tag) →
      (vOutm e.word = 2 → ∃ t, exec (.vectorComplete n) s = .next t ∧ sameMemory s t ∧
        coreAt t n = vecLeaves { c with vecq := rest } e (chainFlag e r.fl) v none) ∧
      (vOutm e.word ≠ 2 → ∃ t, exec (.vectorComplete n) s = .next t ∧
        t.scratch = (chainOut e r).es.foldl (fun m x =>
          elemPut m (scratchAddr n (eOff (outHandle e))) w x.i x.bits) s.scratch ∧
        coreAt t n = vecLeaves { c with vecq := rest } e (chainFlag e (chainOut e r).fl)
          (some (mkHandle (eOff (outHandle e)) (lineBytes (vecLen e) w) (vOfmt e.word) r.poison tag)) v)) ∧
    (∀ bs off p, iClass e.word = 6 → iOp e.word = 1 → bs = vqmxBlocks u n e → off = eOff (engSrc e 2) →
      p = bs.any (·.poison) → ∃ t, exec (.vectorComplete n) s = .next t ∧
        t.scratch = (bs.map (·.scale)).foldl (fun m x =>
          elemPut m (scratchAddr n (off + lineBytes (vecLen e) (fmtBits (vOfmt e.word)))) 8 x.i x.bits)
          ((bs.flatMap (·.elems)).foldl (fun m x =>
            elemPut m (scratchAddr n off) (fmtBits (vOfmt e.word)) x.i x.bits) s.scratch) ∧
        coreAt t n = vecLeaves { c with vecq := rest } e ((bs.foldl (fun a (x : MxBlock) => a ||| x.out.2.2) 0).testBit 2)
          (some (mkHandle off (lineBytes (vecLen e) (fmtBits (vOfmt e.word))) (vOfmt e.word) p tag))
          (some (mkHandle (off + lineBytes (vecLen e) (fmtBits (vOfmt e.word))) (lineBytes bs.length 8) 0 p tag))) ∧
    (∀ (r : Perm) (ls : List (Nat × Bool)) (p : Bool), iClass e.word = 8 → iOp e.word < 4 → ls = activeLanes u n e →
      r = permOf u n e ls → p = r.es.any (·.poison) →
      (∃ t, exec (.vectorComplete n) s = .next t ∧ t.scratch = r.es.foldl (fun m x =>
          elemPut m (scratchAddr n (eOff (outHandle e))) (permBits e) x.i x.bits) s.scratch ∧
        coreAt t n = vecLeaves { c with vecq := rest } e (if iOp e.word = 2 then ls.isEmpty else r.range)
          (some (mkHandle (eOff (outHandle e)) (lineBytes (if iOp e.word = 2 then ls.length else vecLen e) (permBits e))
            (eFmt (engSrc e 0)) p tag))
          (if iOp e.word = 2 then some (mkValue (w32 ls.length) p tag) else none)) ∧
      (iOp e.word = 0 → ∀ (k : Nat) (l : Nat × Bool), ls[k]? = some l → ∃ x : Elem, r.es[k]? = some x ∧ x.i = l.1 ∧
        x.bits = (match laneIndex u n e (regionCount (engSrc e 0) (permBits e)) l.1 with
          | some j => elemGet u n (eOff (engSrc e 0)) (permBits e) j
          | none => e.fill.toNat % 2 ^ permBits e)) ∧
      (iOp e.word = 1 → ∀ a l b k, ls = a ++ l :: b →
        laneIndex u n e (regionCount (engSrc e 2) (permBits e)) l.1 = some k →
        (∀ y ∈ b, laneIndex u n e (regionCount (engSrc e 2) (permBits e)) y.1 ≠ some k) →
        (∃ x ∈ r.es, x.i = k ∧ x.bits = elemGet u n (eOff (engSrc e 0)) (permBits e) l.1) ∧
        (r.es.filter (fun x => x.i == k)).length = 1) ∧
      (iOp e.word = 2 → ∀ (k : Nat) (l : Nat × Bool), ls[k]? = some l → ∃ x : Elem, r.es[k]? = some x ∧ x.i = k ∧
        x.bits = elemGet u n (eOff (engSrc e 0)) (permBits e) l.1) ∧
      (iOp e.word = 3 → ∀ (k : Nat) (l : Nat × Bool), ls[k]? = some l → ∃ x : Elem, r.es[k]? = some x ∧ x.i = l.1 ∧
        x.bits = (if k < regionCount (engSrc e 0) (permBits e) then elemGet u n (eOff (engSrc e 0)) (permBits e) k
          else e.fill.toNat % 2 ^ permBits e)))

/-! ### Programs, and descriptors that engines take -/

/-- LOAD holds its cores in LOADING until each memory has been written; LAUNCH starts every core at once with its
parameters from the image; a stop request stops running cores; PATCH changes image words. (No other load, patch or
launch waits, and the named cores' clocks run (R471).) Rests on R212, R214, R217, R219, R376, R377. That a launch starts
all cores or none, what of an image is read, and the verifier's order of code 7, are the model's reading (logs 26, 34
and 75). -/
def Obligations.Programs : Prop :=
  ∀ (n : Fin 1024) (s u : State) (x : RDesc) (cores : List Nat), HandsOver s n x u cores → rCls x.d ≠ 6 →
    (∀ b v, rCls x.d = 1 → readImage u n x.d = (some b, v) → v.coreOps = [] →
      verify { s := v, auth := none, srclen := lSrclen x.d } b = none → (∀ m ∈ imgCores b, coreFree (coreAt v m) = true ∧ coreHeld v m = false) →
      ∃ t, exec (.load n) s = .next t ∧ t.coreOps = [.load x.did (some x.d) (imgCores b) b none 0] ∧
        ∀ m ∈ imgCores b, (coreAt t m).st = .loading) ∧
    (rCls x.d = 2 → nStop x.d = false → u.coreOps = [] → cores ≠ [] → (∀ m ∈ cores, coreFree (coreAt u m) = true ∧ coreHeld u m = false) →
      launchRefusal u cores (nProg x.d) = none →
      ∃ t, exec (.launch n) s = .next t ∧ t.launches = u.launches ++ [{ did := x.did, cores := cores, left := cores }] ∧
        (∀ m ∈ cores, coreAt t m = startCore (coreAt u m) x.did (dJobtag x.d)) ∧
        (∀ m, m ∉ cores → coreAt t m = coreAt u m)) ∧
    (rCls x.d = 2 → nStop x.d = true →
      ∃ t, exec (.stopRequest n) s = .next t ∧ (∀ m ∈ cores, (coreAt u m).st = .running → (coreAt t m).st = .stopping) ∧
        (∀ m, m ∉ cores → coreAt t m = coreAt u m)) ∧
    (rCls x.d = 3 → u.coreOps = [] → cores ≠ [] → patchPairs x.d ≠ [] → (∀ m ∈ cores, (coreAt u m).st ≠ .loading ∧ coreHeld u m = false) → cores.Nodup →
      ∃ t, exec (.patch n) s = .next t ∧ (∀ m ∈ cores, coreAt t m = patchImage (coreAt u m) (patchPairs x.d)) ∧
        (∀ m, m ∉ cores → coreAt t m = coreAt u m))

/-- A LOADING core's memory, image, entries and program id are written from the image, and the core is LOADED; the load
completes with its last core. Rests on R212. -/
def Obligations.ProgramWrite : Prop :=
  ∀ (n : Fin 1200) (s : State) (did : Nat) (d : Option Desc) (b : List Byte) (slot : Option (Fin 4)) (mask : W64),
    (coreAt s n).st = .loading → (coreAt s n).sealedBy = none → s.coreOps = [.load did d [n.val] b slot mask] →
    ∃ t, exec (.programLoadCoreWrite n) s = .next t ∧ coreAt t n = writeProgram (coreAt s n) b slot mask ∧
      (coreAt t n).st = .loaded ∧ t.coreOps = [] ∧ admAt t did = none ∧ sameMemory s t

/-- A DMA descriptor joins its channel's pending starts, or the sluice takes it; a QUERN job waits for its channels, or
completes at once when it names none; a FENCE holds its ring, and is released with its own record when no earlier
descriptor of the ring is without one; an EVENT writes a SOFTWARE record. Rests on R268, R286, R288, R378, R380, R385.
Where the turn among rings without a deadline starts is the model's choice (log 38). -/
def Obligations.EngineDescriptors : Prop :=
  (∀ (n : Fin 1024) (s u : State) (x : RDesc) (cores : List Nat), HandsOver s n x u cores →
    (rCls x.d = 4 → sluiceQualifies u (engineDesc x.d) = false →
      ∃ t, exec (.dma n) s = .next t ∧ (dmaAt t (dTch (engineDesc x.d))).pending
        = (dmaAt u (dTch (engineDesc x.d))).pending
          ++ [{ origin := .ring x.did, head := some (engineDesc x.d), auth := x.auth }]) ∧
    (rCls x.d = 4 → sluiceQualifies u (engineDesc x.d) = true →
      ∃ t, exec (.dma n) s = .next t ∧ t.dmas = u.dmas ∧ t.sluices
        = u.sluices ++ [{ id := u.nextId, did := x.did, d := engineDesc x.d, tag := u.link.nextTag }]) ∧
    (rCls x.d = 5 → qMask x.d ≠ 0 →
      ∃ t, exec (.quern n) s = .next t ∧ t.jobs = u.jobs ++ [{ jobOf u.nextId x with mcast := groupOfNew u (qMcast x.d) }] ∧
        t.nextId = u.nextId + 1 ∧ sameMemory u t) ∧
    (rCls x.d = 5 → qMask x.d = 0 → qArr x.d = false → ∃ t, exec (.quern n) s = .next t ∧ admAt t x.did = none ∧
      sameMemory u t) ∧
    (rCls x.d = 6 → ∃ t, exec (.fenceDescriptor n) s = .next t ∧ (ringAt t n).fence = some x.did ∧
      (ringAt t n).queue = (ringAt s n).queue.drop 1 ∧ sameMemory s t) ∧
    (rCls x.d = 8 → u.log.waiting = [] → generalFill u.log < 256 →
      ∃ t, exec (.eventDescriptor n) s = .next t ∧ admAt t x.did = none ∧ sameMemory u t ∧
        (false, { time := u.time, cls := 7, source := 13, kind := fld x.d.w0 23 16, sub := fld x.d.w0 15 8, unit := n.val
                  jobtag := dJobtag x.d, payload := BitVec.ofNat 256 (x.d.w1.toNat + put x.d.w2.toNat 64) })
          ∈ t.log.ingress)) ∧
  (∀ (n : Fin 1024) (s : State) (did : Nat), (ringAt s n).fence = some did →
    ((∀ a ∈ s.admitted, a.ring = n.val → did ≤ a.did) → ∃ t, exec (.fenceRelease n) s = .next t ∧
      (ringAt t n).fence = none ∧ admAt t did = none ∧ sameMemory s t) ∧
    ((∃ a ∈ s.admitted, a.ring = n.val ∧ a.did < did) → exec (.fenceRelease n) s = .next s))

/-- A descriptor of a reserved class or OP is not carried out: it completes with ST_BADDESC. Rests on R374, R379, R381,
R416. -/
def Obligations.ReservedDescriptors : Prop :=
  ∀ (n : Fin 1024) (s : State) (x : RDesc), frontChoice s n = some x →
    (rCls x.d = 0 ∨ 9 < rCls x.d → exec (.reservedClassDescriptor n) s = .next (complete (popRing s n x) x.did { status := 2 })) ∧
    (rCls x.d = 7 → gOp x.d = 0 → classDenied (popRing s n x) 7 x.posted = false →
      exec (.configReservedOp n) s = .next (complete (popRing s n x) x.did { status := 2 })) ∧
    (rCls x.d = 9 → tOp x.d = 0 ∨ 10 ≤ tOp x.d → classDenied (popRing s n x) 9 x.posted = false →
      exec (.twinReservedOp n) s = .next (complete (popRing s n x) x.did { status := 2 })) ∧
    (∀ d, (ringAt s n).queue = x :: d → (ringAt (popRing s n x) n).queue = d)

/-! ### Set-up, and rings -/

/-- A CONFIG descriptor, when no other set-up command waits or runs. CHECK answers ST_OK, or ST_CHECK with the lowest
failing offset; COMMIT takes its snapshot and stops the front end, or answers ST_EPOCH with the epoch, or fails as CHECK
does; DISCARD copies every RS register's value in effect to its staged value. Rests on R379, R389–R391. Which offset a
rule over two registers reports is the model's reading (log 44). -/
def Obligations.SetUpDescriptors : Prop :=
  ∀ (n : Fin 1024) (s u : State) (x : RDesc) (cores : List Nat), HandsOver s n x u cores → rCls x.d = 7 →
    u.cfgQueue = [] → u.commit = none → (ctlAt u 0).st = 0 →
    (gOp x.d = 1 → checkFails u (regGet u) = [] → exec (.check n) s = .next (after s (complete u x.did {}))) ∧
    (∀ o l, gOp x.d = 1 → checkFails u (regGet u) = o :: l → exec (.check n) s
      = .next (after s (complete (regSet u oCfgFail (w32 (o + 2 ^ 31))) x.did { status := 0x13, info0 := o }))) ∧
    (gOp x.d = 2 → gExpect x.d = regGet u oCfgEpoch → checkFails u (regGet u) = [] → exec (.commit n) s
      = .next (after s { u with
        commit := some { snapshot := rsOffsets.map (fun o => (o, regGet u o)), did := some x.did }, frontStopped := true })) ∧
    (gOp x.d = 2 → gExpect x.d ≠ regGet u oCfgEpoch → exec (.commit n) s
      = .next (after s (complete u x.did { status := 0x14, info0 := (regGet u oCfgEpoch).toNat }))) ∧
    (∀ o l, gOp x.d = 2 → gExpect x.d = regGet u oCfgEpoch → checkFails u (regGet u) = o :: l → exec (.commit n) s
      = .next (after s (complete (regSet u oCfgFail (w32 (o + 2 ^ 31))) x.did { status := 0x13, info0 := o }))) ∧
    (gOp x.d = 3 → exec (.discard n) s = .next (after s (complete (discardStaged u) x.did {}))) ∧
    (∀ o ∈ rsOffsets, regGet (discardStaged u) o = effGet u o)

/-- At the epoch boundary the snapshot comes into effect and no other register's value in effect changes; the epoch
rises by one; descriptors start again, unless a Brake holds them. Rests on R390. -/
def Obligations.EpochBoundary : Prop :=
  ∀ (s : State) (c : Commit), s.commit = some c → s.cfgQueue = [] →
    (∃ t, exec .epochBoundary s = .next t ∧ t.commit = none ∧ t.frontStopped = decide (s.power.st = .braking) ∧
      t.effect = (applyCommit s c).effect ∧ regGet t oCfgEpoch = regGet s oCfgEpoch + 1 ∧ sameMemory s t ∧
      (c.did = none → regFld t oCfgStatus 15 8 = 0) ∧ (∀ d, c.did = some d → admAt t d = none)) ∧
    (∀ o v, (o, v) ∈ c.snapshot → c.snapshot.Pairwise (fun p q => p.1 ≠ q.1) → effGet (applyCommit s c) o = v) ∧
    (∀ o, (∀ v, (o, v) ∉ c.snapshot) → effGet (applyCommit s c) o = effGet s o)

/-- HUB_CFG_CTL's commands do what the descriptors of R379 do, with their result in HUB_CFG_STATUS; a command written
while another waits or runs is ignored. Rests on R392, R398. The order of several bits in one write is the model's
reading (log 44). -/
def Obligations.SetUpRegisters : Prop :=
  ∀ (s : State), (cfgBusy s = true → exec .hubCfgCheck s = .next s ∧ exec .hubCfgCommit s = .next s ∧
      exec .hubCfgDiscard s = .next s) ∧
    (cfgBusy s = false → (ctlAt s 0).st = 0 →
      (checkFails s (regGet s) = [] → exec .hubCfgCheck s = .next (regSetFld s oCfgStatus 15 8 0)) ∧
      (∀ o l, checkFails s (regGet s) = o :: l →
        exec .hubCfgCheck s = .next (regSetFld (regSet s oCfgFail (w32 (o + 2 ^ 31))) oCfgStatus 15 8 0x13)) ∧
      (checkFails s (regGet s) = [] → regGet s oCfgExpect = regGet s oCfgEpoch → exec .hubCfgCommit s
        = .next { s with commit := some { snapshot := rsOffsets.map (fun o => (o, regGet s o)), did := none }
                         frontStopped := true }) ∧
      (∀ o l, checkFails s (regGet s) = o :: l → regGet s oCfgExpect = regGet s oCfgEpoch →
        exec .hubCfgCommit s = .next (regSetFld (regSet s oCfgFail (w32 (o + 2 ^ 31))) oCfgStatus 15 8 0x13)) ∧
      (regGet s oCfgExpect ≠ regGet s oCfgEpoch → exec .hubCfgCommit s = .next (regSetFld s oCfgStatus 15 8 0x14)) ∧
      exec .hubCfgDiscard s = .next (regSetFld (discardStaged s) oCfgStatus 15 8 0))

/-- R366–R371, R393: SQ_TAIL moves the tail and starts a stalled ring again; CQ_HEAD releases records that are written;
a write of either that breaks a rule is ignored, with BAD_DOORBELL. A fetch reads the pending slots of a ring of the
highest priority that can fetch, and takes the visible ones in order; a slot that is not visible is read again, and
stalls the ring after its time, which counts it. In the coherent modes a slot whose line the host-line cache holds is
read from there (R342). R370: which slot is visible, and that no slot is taken that is not, and none after it. -/
def Obligations.RingQueues : Prop :=
  ∀ (n : Fin 1024) (s : State) (r : Ring), r = ringAt s n →
    (∀ v, s.phase = 5 → r.st = .running ∨ r.st = .stalled → fld v 15 0 < sqSize s n → exec (.sqTail n v) s
      = .next (setRing s n { r with tail := fld v 15 0, st := .running
                                    notVisible := if r.st = .stalled then none else r.notVisible })) ∧
    (∀ v, s.phase ≠ 5 ∨ (r.st ≠ .running ∧ r.st ≠ .stalled) ∨ sqSize s n ≤ fld v 15 0 →
      exec (.sqTail n v) s = .next (event (regSetBit s (oRing n rStatus) 20) 6 6 1 0 n v.toNat)) ∧
    (∀ v, s.phase = 5 → r.st ≠ .disabled → fld v 15 0 < cqSize s n →
      (fld v 15 0 + cqSize s n - r.hostHead) % cqSize s n ≤ (r.cqTail + cqSize s n - r.hostHead) % cqSize s n →
      exec (.cqHead n v) s = .next (setRing s n { r with hostHead := fld v 15 0 })) ∧
    (∀ v, s.phase ≠ 5 ∨ r.st = .disabled ∨ cqSize s n ≤ fld v 15 0 ∨
        (r.cqTail + cqSize s n - r.hostHead) % cqSize s n < (fld v 15 0 + cqSize s n - r.hostHead) % cqSize s n →
      exec (.cqHead n v) s = .next (event (regSetBit s (oRing n rStatus) 20) 6 6 1 1 n v.toNat)) ∧
    (∀ d x, ringMayFetch s n = true → 0 < pendingSlots s n → x = slotSeen s n r.fetchPos d →
      (∀ p ∈ s.rings, ringMayFetch s p.1 = true → ringPrio s p.1 ≤ ringPrio s n) →
      (slotVisible r x = true → ∃ t, exec (.ringSlotFetch n [d]) s = .next t ∧ t.nextId = s.nextId + 1 ∧
        (ringAt t n).fetchPos = (r.fetchPos + 1) % sqSize s n ∧ t.outbox = (readSlots s n r.fetchPos [x]).outbox ∧
        (ringAt t n).queue = r.queue ++ [{ did := s.nextId, d := x, slot := r.fetchPos, posted := false }]) ∧
      (slotVisible r x = false → exec (.ringSlotFetch n [d]) s
        = .next (setRing (readSlots s n r.fetchPos [x]) n { r with notVisible := some s.time }))) ∧
    (∀ d x, ringFetches s n = true → r.notVisible.isSome = true → ringAdmits s n = true → x = slotSeen s n r.fetchPos d →
      (slotVisible r x = true → ∃ t, exec (.slotReread n d) s = .next t ∧ (ringAt t n).notVisible = none ∧
        (ringAt t n).queue = r.queue ++ [{ did := s.nextId, d := x, slot := r.fetchPos, posted := false }]) ∧
      (slotVisible r x = false → exec (.slotReread n d) s = .next (readSlots s n r.fetchPos [x]))) ∧
    (∀ k d, (coherent s = false ∨ ∀ p ∈ s.link.hostLines, p.1 ≠ slotLine s n k) → slotSeen s n k d = d) ∧
    (∀ k d x, coherent s = true → s.link.hostLines.find? (fun p => p.1 == slotLine s n k) = some x →
      slotSeen s n k d = x.2) ∧
    (r.st = .running → r.notVisible.isSome = true → ∃ t, exec (.ringStall n) s = .next t ∧
      ringAt t n = { r with st := .stalled, notVisible := none } ∧ sameMemory s t) ∧
    (∀ d, slotVisible r d = true ↔ bitOf d.w0 7 = r.sqPhase ∧ bitOf d.w5 63 = bitOf d.w0 7) ∧
    (∀ front d rest u t, front.length < 8 → exec (.ringSlotFetch n front) s = .next u →
      slotVisible (ringAt u n) (slotSeen s n (r.fetchPos + front.length) d) = false →
      exec (.ringSlotFetch n (front ++ d :: rest)) s = .next t → (ringAt t n).queue = (ringAt u n).queue)

/-- An uncovered record that is TIME µs old raises the ring's vector, which covers every record; unmasking a vector
sends its pending message. Rests on R395. -/
def Obligations.RingInterrupts : Prop :=
  (∀ (n : Fin 1024) (s : State), regBit s (oRing n rIrq) 11 = true → regFld s (oRing n rIrq) 31 24 ≠ 0 →
    (ringAt s n).uncovered ≠ 0 → exec (.irqTimeTrigger n) s = .next (ringInterrupt s n) ∧
      (ringAt (ringInterrupt s n) n).uncovered = 0) ∧
  (∀ (v : Fin 1025) (s : State), linkCarries s = true → s.link.held = [] → (msixAt s v).pend = true →
    ∃ t, exec (.msixUnmask v) s = .next t ∧ msixAt t v = { msixAt s v with masked := false, pend := false } ∧
      t.outbox = s.outbox ++ [.msix v (w64 ((msixAt s v).addrLo.toNat + 2 ^ 32 * (msixAt s v).addrHi.toNat)) (msixAt s v).data]) ∧
  (∀ (v : Fin 1025) (s : State), (msixAt s v).pend = false →
    exec (.msixUnmask v) s = .next (setMsix s v { msixAt s v with masked := false }))

/-- EN 1 starts a disabled ring from its first places; EN 0 makes it drain, and it is disabled at once when no
descriptor of it is without its record; base registers and RING_CFG are written in DISABLED alone. Rests on R365, R396.
EN 1 in DRAINING is as the model reads it (log 37). -/
def Obligations.RingRegisters : Prop :=
  ∀ (n : Fin 1024) (s : State) (v : BitVec 32),
    (bitOf v 0 = true → (ringAt s n).st = .disabled → ∃ t, exec (.ringEnable n v) s = .next t ∧
      (ringAt t n).st = .running ∧ (ringAt t n).tail = 0 ∧ (ringAt t n).fetchPos = 0 ∧ (ringAt t n).cqTail = 0 ∧
      (ringAt t n).hostHead = 0 ∧ (ringAt t n).queue = [] ∧ regGet t (oRing n rCtl) = v &&& 7) ∧
    (bitOf v 0 = true → (ringAt s n).st ≠ .disabled →
      exec (.ringEnable n v) s = .next (regSet s (oRing n rCtl) (v &&& 7))) ∧
    (bitOf v 0 = false → (ringAt s n).st = .running ∨ (ringAt s n).st = .stalled → ∃ t, exec (.ringDisable n v) s = .next t ∧
      (ringAt t n).st = (if s.admitted.any (fun a => a.ring == n.val) then .draining else .disabled) ∧
      regGet t (oRing n rCtl) = v &&& 7 ∧ sameMemory s t) ∧
    (∀ (reg : Fin 5), (ringAt s n).st ≠ .disabled →
      exec (.ringConfigWrite n reg v) s = .next (regSetBit s (oRing n rStatus) 21)) ∧
    (∀ (reg : Fin 5), (ringAt s n).st = .disabled → reg.val < 4 → exec (.ringConfigWrite n reg v) s
      = .next (regSet s (oRing n (4 * reg.val)) (v &&& w32 (ringReg (4 * reg.val)).rw))) ∧
    ((ringAt s n).st = .disabled → ∃ t, exec (.ringConfigWrite n 4 v) s = .next t ∧ t = { s with regs := t.regs } ∧
      regFld t (oRing n rCfg) 4 0 = (if 4 ≤ fld v 4 0 ∧ fld v 4 0 ≤ 16 then fld v 4 0 else 4))

/-! ### Power and resets -/

/-- The input's entry into 40–60 V, or a management request in OFF, is a power-on reset: memories, cores and rings are
empty and every register but THM_TRIP reads its reset value; from OFF with the input present, P12 and VAON are on
(R459). Rests on R460, R461, R492, R514. Values that no rule gives are the model's (log 2). -/
def Obligations.PowerOn : Prop :=
  ∀ (s t : State) (vin : Nat), s.power.st = .off → t = powerOn s vin →
    (s.power.inputPresent = false → 4000 ≤ vin → vin ≤ 6000 → exec (.powerUp vin) s = .next t) ∧
    (s.power.inputPresent = true → vin = s.power.vin → exec .mgmtPowerOn s = .next (setRails t [0, 1] .on)) ∧
    (∀ k, railAt (setRails t [0, 1] .on) k = if k < 2 then .on else .off) ∧
    t.power = { vin := vin } ∧ t.phase = 0 ∧ t.lastReset = 0 ∧ t.dram = [] ∧ t.scratch = [] ∧ t.cores = [] ∧ t.rings = [] ∧
    t.flash = s.flash ∧ t.fuses = s.fuses ∧ t.otp = s.otp ∧
    (∀ o, regGet t o = if o = oThmTrip then regGet s o else w32 (regDef o).rst)

/-- A step of the power sequence brings its rails up and no other; step 1 ends with the input within 40–60 V; with step
6, in phase CONFIG, every stack that was OFF is LOADING (R79). Rests on R460. -/
def Obligations.PowerSequence : Prop :=
  ∀ (s : State) (n : Nat), s.power.st ≠ .off → s.power.seqStep = n → 1 ≤ n → n ≤ 6 →
    (n = 1 → 4000 ≤ s.power.vin ∧ s.power.vin ≤ 6000) → (n = 6 → s.phase = 2) →
    ∃ t, exec .powerSequenceStep s = .next t ∧ t.power.seqStep = n + 1 ∧
      (∀ k, railAt t k = if k ∈ stepRails n then .on else railAt s k) ∧ sameMemory s t ∧
      (n = 6 → ∀ k, k < 12 → (stackAt t k).st = if (stackAt s k).st = .off then .loading else (stackAt s k).st)

/-- A lost input powers the module off, always-on island and all; a lost rail, an input below 34 V or above 64 V, and a
hardware trip are cuts; a low input is a Brake when BRAKE_LEAD lets it end in time, and a high one in any case; either
is a cut otherwise, and while RESET_N is low, in STANDBY as in ACTIVE and IDLE. Rests on R481, R482, R484, R485, R487,
R513. What a hardware trip names is free (log 9). -/
def Obligations.SupplyConditions : Prop :=
  ∀ (s : State),
    (∃ t, exec .inputLost s = .next t ∧ t.power.st = .off ∧ t.power.inputPresent = false ∧ (∀ k, railAt t k = .off) ∧
      t.dram = [] ∧ t.cores = [] ∧ t.regs = [] ∧ t.pins.pairAliveOut = false ∧ t.flash.image = s.flash.image) ∧
    (∀ rail, s.power.st ≠ .off → railAt s (railKey rail) ≠ .off →
      ∃ t, exec (.railPowerGoodLost rail) s = .next t ∧ wasCut s t 4) ∧
    (∀ vin, s.power.st ≠ .off → vin < 3400 ∨ 6400 < vin →
      ∃ t, exec (.inputCutThreshold vin) s = .next t ∧ wasCut s t 4) ∧
    (s.power.st ≠ .off → ∃ t, exec .hardwareTrip s = .next t ∧ wasCut s t 5) ∧
    (∀ vin, s.power.st = .active ∨ s.power.st = .idle → vin < 3800 ∨ 6100 < vin →
      ((vin < 3800 → regFld s oBrakeCtl 7 0 ≤ 30) ∧ s.pins.resetN = true →
        exec (.supplyFaultTimeout vin) s = .next (kept s (beginBrake (setVin s vin) 2 0 0))) ∧
      ((vin < 3800 ∧ 30 < regFld s oBrakeCtl 7 0) ∨ s.pins.resetN = false →
        ∃ t, exec (.supplyFaultTimeout vin) s = .next t ∧ wasCut s t 4)) ∧
    (∀ vin, s.power.st = .standby → (vin < 3800 ∧ 30 < regFld s oBrakeCtl 7 0) ∨
      ((vin < 3800 ∨ 6100 < vin) ∧ s.pins.resetN = false) →
      ∃ t, exec (.supplyFaultTimeout vin) s = .next t ∧ wasCut s t 4)

/-- The Brake's end is STANDBY with querns off and mill dies in retention, BRAKED, PAIR_ALIVE low, and the trip's word
in THM_TRIP and in flash, with a brake record of 64 bytes; it waits for a package load or unload that runs (R443); a
reset that was asked for meanwhile follows it (R491). Rests on R483. The form of the record in flash is the model's (log
46). -/
def Obligations.BrakeEnd : Prop :=
  ∀ (s : State) (b : BrakeInfo) (w : PkgWork), s.power.st = .braking → s.power.brake = some b → s.sec.work = none →
    ∃ t, exec .brakeComplete s = .next t ∧ t.pins.pairAliveOut = false ∧ t.scratch = [] ∧
      t.flash.trip = some (regGet t oThmTrip) ∧ (∃ r, t.flash.brakeRecord = some r ∧ r.length = 64) ∧
      regFld t oThmTrip 7 0 = b.kind % 256 ∧
      (s.power.resetAfterBrake = false → t.power.st = .standby ∧ t.power.braked = true ∧
        (∀ k, 4 ≤ k → k < 8 → railAt t k = .retention) ∧ (∀ k, 8 ≤ k → k < 11 → railAt t k = .off)) ∧
      (s.power.resetAfterBrake = true → t.phase = (if s.phase ≠ 0 ∨ 6 ≤ s.power.seqStep then 1 else 0) ∧ t.lastReset = s.lastReset ∧ t.bootDone = false ∧ t.dram = [] ∧
        t.cores = [] ∧ t.rings = [] ∧ t.resetHeld = !s.pins.resetN) ∧
      exec .brakeComplete { s with sec := { s.sec with work := some w } } = .next { s with sec := { s.sec with work := some w } }

/-- RESET_N held low, or a management request, resets the module, after a Brake that is under way; the module stays held
until RESET_N is high again. Before step 3 of the power sequence (R460) the level alone is noted; between it and the hub
die's reset the sequence goes on behind the reset with step 4. A restarting control core 3 answers a request of
management busy, from the address of the straps (R510). Rests on R38, R491, R512, R513. What the always-on island keeps
and which entries a crossing discards are the model's reading (logs 50 and 51). -/
def Obligations.ModuleResets : Prop :=
  ∀ (s : State),
    (s.power.inputPresent = true → s.power.st ≠ .off → s.power.st ≠ .braking → s.phase ≠ 0 ∨ 6 ≤ s.power.seqStep →
      ∃ t, exec .resetNAsserted s = .next t ∧ wasReset s t 1 ∧ t.resetHeld = true) ∧
    (s.power.inputPresent = true → s.power.st ≠ .off → s.power.st ≠ .braking → s.phase ≠ 0 ∨ 6 ≤ s.power.seqStep →
      (ctlAt s 3).st ≠ 1 →
      ∃ t, exec .mgmtModuleReset s = .next t ∧ wasReset s t 2 ∧ t.resetHeld = !s.pins.resetN) ∧
    (s.power.inputPresent = true → s.power.st = .braking → exec .resetNAsserted s
      = .next { s with pins := { s.pins with resetN := false }, lastReset := 1
                       power := { s.power with resetAfterBrake := true } }) ∧
    (s.power.inputPresent = true → s.power.st ≠ .off → s.power.st ≠ .braking → s.phase = 0 → s.power.seqStep ≤ 3 →
      exec .resetNAsserted s = .next { s with pins := { s.pins with resetN := false } }) ∧
    (s.power.inputPresent = true → s.power.st ≠ .off → s.power.st ≠ .braking → s.phase = 0 → 3 < s.power.seqStep →
      s.power.seqStep < 6 → ∃ t, exec .resetNAsserted s = .next t ∧ t.phase = 0 ∧ t.power.seqStep = 4 ∧ t.lastReset = 1 ∧
        t.resetHeld = true ∧ t.cores = [] ∧ t.dram = [] ∧ (∀ k, railAt t k = if k < 2 then .on else .off)) ∧
    ((ctlAt s 3).st = 1 → exec .mgmtModuleReset s
      = .next (emit s (.mgmtBusy (0x58 + 2 * s.pins.maddrSample.toNat + (if s.pins.posSample then 1 else 0))))) ∧
    (s.power.inputPresent = true → s.power.st = .braking → (ctlAt s 3).st ≠ 1 → exec .mgmtModuleReset s
      = .next { s with lastReset := 2, power := { s.power with resetAfterBrake := true } }) ∧
    exec .resetNReleased s = .next { s with pins := { s.pins with resetN := true }, resetHeld := false }

/-- A host reset ends the host's work and returns the host-facing state, the rings and the interrupts to their reset
values; a hot reset also takes the link DOWN, a function-level reset leaves it UP. Rests on R490. That a hot reset
leaves the link DOWN until a receiver is detected is the model's reading (log 55). -/
def Obligations.HostResets : Prop :=
  ∀ (s : State),
    (linkUsable s = true → ∃ t, exec .hotReset s = .next t ∧ t.lastReset = 3 ∧ t.link.st = .down ∧ t.rings = [] ∧
      t.msix = [] ∧ t.window = [] ∧ t.admitted = []) ∧
    (s.link.st = .up → ∃ t, exec .functionLevelReset s = .next t ∧ t.lastReset = 3 ∧ t.link.st = .up ∧ t.rings = [] ∧
      t.msix = [] ∧ t.window = [] ∧ t.admitted = [])

/-- Each phase of initialisation ends with its work done; RESET_N held low holds the module at the start of phase BOOT
(R491); with phase READY the maps of the first COMMIT are in effect and PAIR_ALIVE is high, unless a control core has
failed (R41) or a Brake holds the module (R509). Rests on R493. A first COMMIT that fails its CHECK is as the model
reads it (log 52). -/
def Obligations.Initialisation : Prop :=
  ∀ (s : State), s.power.st ≠ .off →
    (s.phase = 0 → 6 ≤ s.power.seqStep → exec .initPhaseComplete s = .next { s with phase := 1 }) ∧
    (s.phase ≠ 0 → s.resetHeld = true → exec .initPhaseComplete s = .next s) ∧
    (s.resetHeld = false →
      (s.phase = 1 → s.bootDone = true → exec .initPhaseComplete s = .next (applyFloor { s with phase := 2 })) ∧
      (s.phase = 2 → s.power.seqStep = 7 → exec .initPhaseComplete s = .next { s with phase := 3 }) ∧
      (s.phase = 3 → (∀ k, k < 12 → (stackAt s k).st = .ready ∨ (stackAt s k).st = .failed) →
        exec .initPhaseComplete s = .next { s with phase := 4 }) ∧
      (s.phase = 4 → ∃ t, exec .initPhaseComplete s = .next t ∧ t.phase = 5 ∧ t.effect = (firstCommit s).effect ∧
        t.pins.pairAliveOut = (s.pins.pairAliveOut || (decide (s.power.st ≠ .braking) && !s.power.braked
          && (List.range 4).all (fun n => (ctlAt s n).st != 2)))))

/-- The boot ROM runs an image whose two signatures and security version pass, measured first; another leaves the module
recovering, where the mailboxes open after the partner's time, and the first image that passes is written to flash with
a module reset. Rests on R432, R456, R457. The layout of an image is uninterpreted (log 8); that the reset a recovery
asks for keeps LAST_RESET is the model's reading (log 51). -/
def Obligations.Boot : Prop :=
  ∀ (s : State) (i : FwImage),
    (s.phase = 1 → s.resetHeld = false → s.bootDone = false → s.sec.recovering = false → i = s.flash.image →
      (s.flash.imageValid = true → imageSigned i = true → imageCurrent s i = true →
        ∃ t, exec .bootRom s = .next t ∧ t.bootDone = true ∧ tget 0 t.sec.meas 2 = Config.sha384 i.bytes ∧
          t.flash.imageSvn = Config.fwSvn i.bytes % 128 ∧ t.sec.aliasGen = s.sec.aliasGen + 1 ∧
          t.flash.owner = (if s.otp.state = .decommissioned then none else s.flash.owner)) ∧
      (s.flash.imageValid = false ∨ imageSigned i = false ∨ imageCurrent s i = false →
        ∃ t, exec .bootRom s = .next t ∧ t.bootDone = false ∧ t.sec.recovering = true)) ∧
    (s.sec.recovering = true →
      exec .recoveryPartnerTimeout s = .next { s with sec := { s.sec with mailbox := true } }) ∧
    (∀ fromPartner : Bool, s.phase ≠ 0 → s.sec.recovering = true → (fromPartner = false → s.sec.mailbox = true) →
      (fromPartner = true → s.sec.fwImage = some i) → Config.fwFormatOk i.bytes = true → imageSigned i = true →
      imageCurrent s i = true → ∃ t, exec (.recoveryImageAccepted i fromPartner) s = .next t ∧
        wasReset s t s.lastReset ∧ t.flash.image = i ∧ t.flash.imageValid = true ∧
        t.sec.boot = (if fromPartner then 1 else 2))

/-- A control core that stops kicking its watchdog, asserts or fails to fetch restarts with its cause; a second expiry
within 1 s fails it, and PAIR_ALIVE falls; after the restart it takes up its work. Control core 0 runs again the set-up
command that it had not ended, a COMMIT before its instant among them, and executes a load again from the reading of its
image; control core 2 acts on the errors that it was not there to act on. Rests on R38–R42. The bounds of the 1 s and
what a failing expiry counts are the model's reading (log 53). -/
def Obligations.ControlCores : Prop :=
  ∀ (n : Fin 4) (s u : State), u = setCtl s n { ctlAt s n with st := 0 } →
    (ctlRuns s n = true → (∀ e, (ctlAt s n).lastExpiry = some e → 1000000000 < (s.time - e).toNat) →
      ∃ t, exec (.watchdogExpiry n) s = .next t ∧ ctlAt t n = { ctlAt s n with
        st := 1, lastCause := 1, restarts := min 255 ((ctlAt s n).restarts + 1), lastExpiry := some s.time }) ∧
    (ctlRuns s n = true → (∃ e, (ctlAt s n).lastExpiry = some e ∧ (s.time - e).toNat ≤ 1000000000) →
      ∃ t, exec (.watchdogExpiry n) s = .next t ∧ (ctlAt t n).st = 2 ∧ t.pins.pairAliveOut = false) ∧
    (∀ (i : Instr) (cause : Nat), (i, cause) ∈ [(.firmwareAssertion n, 2), (.controlCoreFetchError n, 3)] →
      ctlRuns s n = true → ∃ t, exec i s = .next t ∧ (ctlAt t n = { ctlAt s n with
        st := 1, lastCause := cause, restarts := min 255 ((ctlAt s n).restarts + 1) }) ∧ t.coreOps = s.coreOps ∧
        t.ctlHeld = s.ctlHeld ∧
        (∀ c, n = 0 → s.commit = some c → t.commit = none ∧ t.frontStopped = decide (s.power.st = .braking) ∧
          t.cfgQueue = { op := 2, expect := regGet s oCfgEpoch, did := c.did } :: s.cfgQueue)) ∧
    ((ctlAt s n).st = 1 → s.coreOps = [] → s.cfgQueue = [] → s.ctlHeld = [] → (∀ p ∈ s.chans, p.2.failed = []) →
      exec (.controlCoreRestartDone n) s = .next u) ∧
    (∀ c, (ctlAt s 0).st = 1 → n = 0 → s.coreOps = [] → s.cfgQueue = [c] → s.commit = none →
      exec (.controlCoreRestartDone n) s = .next (runCfgCmd { u with cfgQueue := [] } c)) ∧
    (∀ did d cs b slot mask b' v, (ctlAt s 0).st = 1 → n = 0 → s.cfgQueue = [] →
      s.coreOps = [.load did (some d) cs b slot mask] → (∀ m ∈ cs, (coreAt s m).st = .loading) →
      readImage { u with coreOps := [] } (ringOf s did) d = (some b', v) →
      (verify { s := v, auth := none, srclen := lSrclen d } b' = none →
        ∃ t, exec (.controlCoreRestartDone n) s = .next t ∧ t.coreOps = [.load did (some d) cs b' slot mask] ∧
          (ctlAt t 0).st = 0 ∧ ∀ m ∈ cs, (coreAt t m).st = .loading) ∧
      (∀ e, verify { s := v, auth := none, srclen := lSrclen d } b' = some e →
        ∃ t, exec (.controlCoreRestartDone n) s = .next t ∧ t.coreOps = [] ∧ admAt t did = none ∧
          ∀ m ∈ cs, (coreAt t m).st = .empty)) ∧
    ((ctlAt s 2).st = 1 → n = 2 → exec (.controlCoreRestartDone n) s = .next (kept s (takeHeld u))) ∧
    (∀ k cause, s.ctlHeld = [.stack k cause] → (∀ p ∈ s.chans, p.2.failed = []) → (takeHeld u).ctlHeld = [] ∧
      takeHeld u = failStack { u with ctlHeld := [] } k cause)

/-! ### The far path, temperature and power -/

/-- A request of one piece that lies outside DRAM or in error, or that the seal refuses, is answered at once, another
waits at its stack; a request that has reached its target is late; a grant performs the scheduler's choice and answers
its source, unless a repair or a remap copy goes first (R106), and a scrub may be the fourth to find a quern's report
clean (R109); an idle page closes; a refresh is issued on an idle bank, owed up to eight times on a busy one, then
forced, and repaid. Rests on R51, R55–R58, R61, R69, R72, R447. DRAM as written with an overlay of flipped bits is the
model's form (log 10), and where a request is cut at a mask bit its reading (log 72). -/
def Obligations.FarPath : Prop :=
  ∀ (s : State) (k : Fin 12) (c : Fin 32) (b : Fin 68) (x : BankSt), x = bankAt s k c b →
    (∀ (port : Fin 5) src auth da req w, accessPieces s da (opLen req) = [(da, opLen req)] →
      w = (match req with | .write _ _ => true | .read _ => false) →
      (rangeDram s da (opLen req) = false ∨ rangeError s da (opLen req) = true →
        exec (.farPathRequest port src auth da req) s = .next (emit s (.addrError src))) ∧
      (rangeDram s da (opLen req) = true → rangeError s da (opLen req) = false → port.val ≤ 2 →
        rangeSealRefused s auth da (opLen req) w = true → exec (.farPathRequest port src auth da req) s
          = .next (emit (sealedRefuse s (if port.val = 0 then 1 else 2) src da (srcTag s port src)) (.sealedError src))) ∧
      (rangeDram s da (opLen req) = true → rangeError s da (opLen req) = false →
        2 < port.val ∨ rangeSealRefused s auth da (opLen req) w = false →
        ∃ t, exec (.farPathRequest port src auth da req) s = .next t ∧ sameMemory s t ∧
          (stackAt t (locate s da).stack).reqs = (stackAt s (locate s da).stack).reqs ++
            [{ id := s.nextId, port := port, src := src, loc := (locate s da).loc, off := (locate s da).off
               op := req, arrival := s.time, minCls := engineCls port src, engine := if port.val = 4 then src else 0
               jobtag := srcTag s port src }])) ∧
    (((stackAt s k).reqs.map (·.id)).Nodup → ∃ t, exec (.urgencyAgeing k) s = .next t ∧ sameMemory s t ∧
      (stackAt t k).reqs = (stackAt s k).reqs.map (fun r => if isLate s k r then { r with late := true } else r)) ∧
    (∀ r u, (stackAt s k).st = .ready → schedPick s k = some r → r.seq = none → u = leaveList s k r →
      (engineFirst s k r = true → exec (.schedulerGrant k) s = .next s) ∧
      (∀ n, r.op = .read n → engineFirst s k r = false → r.scrub = false → r.port ≠ 4 → ∃ t, exec (.schedulerGrant k) s = .next t ∧
        t.dram = s.dram ∧ (∀ q ∈ (stackAt t k).reqs, q.id ≠ r.id) ∧ t.outbox.getLast?
          = some (.farData r.src (farReadPiece s k r.loc r.off n).1 (farReadPiece s k r.loc r.off n).2.1)) ∧
      (∀ n, r.op = .read n → engineFirst s k r = false → r.scrub = true ∨ r.port = 4 → exec (.schedulerGrant k) s
        = .next (kept s (checkQuerns (caused u (reqTag u r) 0xFFF (fun v => scrubRow v k (if r.scrub then r.loc
            else { r.loc with layer := (servedAt v k r.loc).1, bank := (servedAt v k r.loc).2 }))) k))) ∧
      (∀ d p, r.op = .write d p → engineFirst s k r = false → r.scrub = false → ∃ t, exec (.schedulerGrant k) s = .next t ∧
        t.dram = (caused u (reqTag u r) 0xFFF (fun v => farWritePiece v k r.loc r.off d p r.port)).dram ∧
        t.outbox.getLast? = some (.farDone r.src))) ∧
    (x.openRow.isSome = true → bankStreams s k c b = false → exec (.pageIdlePrecharge k c b) s
      = .next (setBank s k c b { x with openRow := none, streak := 0 })) ∧
    ((stackAt s k).st = .ready ∨ (stackAt s k).st = .clearing →
      (bankBusy s k c b = false → exec (.refreshDue k c b) s
        = .next (setBank s k c b { x with openRow := none, streak := 0, refreshes := (x.refreshes + 1) % 8192 })) ∧
      (bankBusy s k c b = true → x.owed < 8 →
        exec (.refreshDue k c b) s = .next (setBank s k c b { x with owed := x.owed + 1 })) ∧
      (bankBusy s k c b = true → 8 ≤ x.owed → bankStreams s k c b = false → exec (.refreshDue k c b) s
        = .next (setBank s k c b { x with openRow := none, streak := 0, refreshes := (x.refreshes + 1) % 8192 })) ∧
      (8 ≤ x.owed → bankStreams s k c b = true → exec (.refreshDue k c b) s
        = .next (setBank (count (jobFlag s (chanAt s k c).job 4) (oQrn k qHold)) k c b
            { x with refreshes := (x.refreshes + 1) % 8192 })) ∧
      (bankBusy s k c b = false → x.owed ≠ 0 → exec (.refreshRepay k c b) s
        = .next (setBank s k c b { x with
            openRow := none, streak := 0, owed := 0, refreshes := (x.refreshes + x.owed) % 8192 })))

/-- A reading enters its sensor's history, also that of a sensor that no vote counts, and the third in a row that
disagrees with the neighbours takes the sensor out of the vote; a sensor that cannot be read three times is dead; a
channel takes up its stack's delay band; a unit at its throttle point takes one step more while it has one left, and
gives one back 2 °C below it; a stack above 95 °C for 100 ms shuts the module down, by a Brake where the estimate lets
it end in time, else by a cut; a clock runs again after its relock, and what it held goes on. Rests on R76, R471,
R476–R478, R480, R482. The median of an even count, and the step that one command takes, are the model's reading (logs
46 and 48). -/
def Obligations.ThermalControl : Prop :=
  ∀ (s : State) (i : Fin 216) (k : Fin 12) (u : ThermalUnit),
    ((sensorAt s i).votedOut = false → (sensorAt s i).dead = false →
      (∀ v dis, dis = (if disagrees s i v then (sensorAt s i).disagree + 1 else 0) →
        3 ≤ dis ∨ sensorClass i = 3 ∨ v < shutdownPoint (sensorClass i) →
        ∃ t, exec (.sensorSample i (some v)) s = .next t ∧ sensorAt t i = { sensorAt s i with
          temp := v, valid := !decide (3 ≤ dis), fast := nearLimit i v, disagree := dis, unread := 0
          votedOut := decide (3 ≤ dis), hist := ((s.time, v) :: (sensorAt s i).hist).take 8 }) ∧
      ((sensorAt s i).unread < 2 → exec (.sensorSample i none) s
        = .next (setSensor s i { sensorAt s i with unread := (sensorAt s i).unread + 1, disagree := 0 })) ∧
      (2 ≤ (sensorAt s i).unread → ∃ t, exec (.sensorSample i none) s = .next t ∧ (sensorAt t i).dead = true ∧
        (sensorAt t i).valid = false)) ∧
    ((sensorAt s i).votedOut = true ∨ (sensorAt s i).dead = true → ∀ v, exec (.sensorSample i (some v)) s
      = .next (setSensor s i { sensorAt s i with
          temp := v, fast := nearLimit i v, hist := ((s.time, v) :: (sensorAt s i).hist).take 8 })) ∧
    (∀ c, exec (.channelDelaySwitch k c) s = .next (modStack s k (fun x => { x with
      chanBand := tset 0 c.val x.band x.chanBand }))) ∧
    (∀ j v, (stackAt s k).overMax = true → hottest s (targetSensors (.dram k)).1 = some (j, v) →
      s.power.st = .active ∨ s.power.st = .idle → j < 256 →
      (brakeInTime s j v = true ∧ s.pins.resetN = true →
        exec (.overMaxTimeout k) s = .next (kept s (beginBrake s 1 j v))) ∧
      (brakeInTime s j v = false ∨ s.pins.resetN = false →
        ∃ t, exec (.overMaxTimeout k) s = .next t ∧ wasCut s t 3)) ∧
    (∀ j v n, hottest s (targetSensors u).1 = some (j, v) → n = tget 0 s.power.thermal (targetKey u) →
      (throttlePoint (targetSensors u).2 ≤ v → canThrottle s u = false → exec (.throttleStep u) s = .next s) ∧
      (throttlePoint (targetSensors u).2 ≤ v → canThrottle s u = true → ∃ t, exec (.throttleStep u) s = .next t ∧
        tget 0 t.power.thermal (targetKey u) = n + 1 ∧ (n ≠ 0 → t.log = s.log) ∧
        match u with
        | .dram k => allowAt t k = (if 1 < allowAt s k then max 1 (allowAt s k - 2) else allowAt s k) ∧
            qclkStep t k = (if 1 < allowAt s k then qclkStep s k else min 3 (qclkStep s k + 1))
        | .mill m => cclkStep t m = min 6 (cclkStep s m + 1)
        | .hub => cclkStep t 4 = min 6 (cclkStep s 4 + 1)
        | .board => boardCap t 600 = max 150 (600 - 25 * (n + 1))) ∧
      (v ≤ throttlePoint (targetSensors u).2 - 2 → n ≠ 0 → ∃ t, exec (.throttleUndo u) s = .next t ∧
        tget 0 t.power.thermal (targetKey u) = n - 1 ∧ t.log = s.log ∧
        match u with
        | .dram k => allowAt t k = (if 0 < qclkStep s k ∨ (stackAt s k).overMax = true ∨ floorInForce s = true ∨
            s.power.st = .braking then allowAt s k else min 16 (allowAt s k + 2)) ∧ qclkStep t k = qclkStep s k - 1
        | .mill m => cclkStep t m = (if floorInForce s then cclkStep s m
            else max (if validCount s (96 + 24 * m) 24 < 12 then 5 else 0) (cclkStep s m - 1))
        | .hub => cclkStep t 4 = if floorInForce s then cclkStep s 4 else cclkStep s 4 - 1
        | .board => boardCap t 600 = max 150 (600 - 25 * (n - 1)))) ∧
    (∀ clock, exec (.clockRelock clock) s
      = .next (kept s (pumpOps { s with power := { s.power with held := s.power.held.filter (· != clock) } })))

/-- The power measured; a domain's window; a period of the Governor takes up CAP, or the floor allowance when too few
hub sensors are valid; tokens; the idle conditions lead to IDLE, and a request to STANDBY, where the querns are off and
the mill dies keep their state; a request wakes the module, and after a Brake only when it is cool; a restarting control
core 3 answers management busy; the exit ends when no stack is clearing, in IDLE while the link is lost. Rests on R38,
R360, R463–R466, R469, R470, R472, R473, R478. What a request with nothing to do does, and the order of the limiters'
steps, are the model's reading (logs 45 and 48). -/
def Obligations.PowerStates : Prop :=
  ∀ (s : State),
    (∀ vin pin, s.power.st ≠ .off → ∃ t, exec (.powerMeasurement vin pin) s = .next t ∧ t.power.vin = vin % 65536 ∧
      t.power.vinRead = vin % 65536 ∧ t.power.samples = (pin :: s.power.samples).take 100000 ∧ sameMemory s t) ∧
    (∀ (d : Fin 38) p, ∃ t, exec (.rateLimiterWindow d p) s = .next t ∧ sameMemory s t ∧
      t.power.domSamples = tset [] d.val ((p :: tget [] s.power.domSamples d).take 10) s.power.domSamples) ∧
    (s.phase = 5 → (ctlAt s 1).st = 0 → s.power.st = .active ∨ s.power.st = .idle →
      (8 ≤ validCount s 192 16 → ∃ t, exec .governorPeriod s = .next t ∧ t.power.cap = regFld s oPwrCap 8 0 ∧
        t.power.floor = false ∧ sameMemory s t) ∧
      (validCount s 192 16 < 8 → exec .governorPeriod s = .next (kept s (applyFloor (takeCap s))))) ∧
    (∀ (r : Fin 3) a, exec (.pwrTok r a) s = .next { s with power := { s.power with
      tokenLog := s.power.tokenLog ++ [(s.time, r.val, a.toNat)] } }) ∧
    (s.power.st = .active → regBit s oPwrCtl 4 = true → idleHolds s = true →
      exec .idleEntry s = .next { s with power := { s.power with st := .idle } }) ∧
    (s.power.st = .idle → linkWarm s = false →
      exec .idleWake s = .next { s with power := { s.power with st := .active } }) ∧
    (s.power.st = .active ∨ s.power.st = .idle → idleHolds s = true → ∃ t, exec .reqStandby s = .next t ∧
      t.power.st = .standby ∧ t.scratch = [] ∧ (∀ k, 4 ≤ k → k < 8 → railAt t k = .retention) ∧
      (∀ k, 8 ≤ k → k < 11 → railAt t k = .off)) ∧
    (s.power.st = .active ∨ s.power.st = .idle → idleHolds s = false →
      exec .reqStandby s = .next (regSetBit s oPwrState 8)) ∧
    (∀ (i : Instr), i ∈ [.reqActive, .mgmtWake] → (ctlAt s 3).st ≠ 1 → s.power.st = .standby → s.power.exiting = false →
      (s.power.braked = true → coolEnough s = false → exec i s = .next (regSetBit s oPwrState 8)) ∧
      (s.power.braked = false ∨ coolEnough s = true → ∃ t, exec i s = .next t ∧ t.power.exiting = true)) ∧
    ((ctlAt s 3).st = 1 → exec .mgmtWake s = .next (emit s (.mgmtBusy (0x58 + 2 * s.pins.maddrSample.toNat + b2n s.pins.posSample)))) ∧
    ((ctlAt s 3).st ≠ 1 → s.power.st = .idle → linkWarm s = false →
      exec .mgmtWake s = .next { s with power := { s.power with st := .active } }) ∧
    (s.power.exiting = true → (∀ k, k < 12 → (stackAt s k).st ≠ .clearing) → ∃ t, exec .standbyExitComplete s = .next t ∧
      t.power.st = (if linkWarm s then .idle else .active) ∧ t.power.braked = false ∧ t.pins.clkreq = true ∧
      t.frontStopped = s.commit.isSome ∧ sameMemory s t)

/-! ### Stacks -/

/-- A stack that has loaded its delays is READY, or FAILED when its initialisation failed; a stack that has loaded, or
was clearing, enters self-refresh when that was asked for meanwhile (log 80), else it is READY; a stack whose controller
or base die fails is FAILED; when the time for running entries ends, those of a stack that is to enter self-refresh end,
and it enters it. Rests on R79, R80, R83, R86–R88, R118, R119, R173. What a standby entry records is the model's reading
(log 69); what self-refresh leaves of queued repairs and refresh pointers (log 73), and that a stack that is LOADING or
CLEARING finishes first (log 80), are its choice. -/
def Obligations.StackStates : Prop :=
  ∀ (s : State) (k : Fin 12),
    ((stackAt s k).st = .loading → (∀ b, bandValid s k b = true) → (∀ r ∈ s.flash.sparing, r.stack ≠ k.val) →
      ((stackAt s k).entering = false → ∃ t, exec (.stackLoadingComplete k true []) s = .next t ∧ (stackAt t k).st = .ready ∧
        (stackAt t k).band = (if stackTemps s k = [] then 3 else bandOf (maxInt (stackTemps s k))) ∧
        (stackAt t k).sensorsLost = decide (stackTemps s k = []) ∧ regGet t (oQrn k qStResult) = 0) ∧
      ((stackAt s k).entering = true → (stackAt s k).reqs = [] → stackBusy s k = false →
        ∃ t, exec (.stackLoadingComplete k true []) s = .next t ∧ (stackAt t k).st = .selfRefresh ∧
          (stackAt t k).retained = (stackAt s k).toRetain)) ∧
    (∀ l, (stackAt s k).st = .loading → ∃ t, exec (.stackLoadingComplete k false l) s = .next t ∧
      (stackAt t k).st = .failed) ∧
    ((stackAt s k).st = .clearing → (∀ c, c < 32 → bitOf (stackAt s k).retained c = false →
        (chanAt s k c).spSt = .migrating → (chanAt s k c).failed = []) →
      ((stackAt s k).entering = false → ∃ t, exec (.clearingComplete k) s = .next t ∧ (stackAt t k).st = .ready ∧
        t.scratch = s.scratch) ∧
      ((stackAt s k).entering = true → (stackAt s k).reqs = [] → stackBusy s k = false →
        ∃ t, exec (.clearingComplete k) s = .next t ∧ (stackAt t k).st = .selfRefresh ∧
          (stackAt t k).retained = (stackAt s k).toRetain)) ∧
    (∀ (i : Instr), i ∈ [.baseDieSelfCheckFault k, .stackControllerTimeout k] → (ctlAt s 2).st = 0 →
      ∃ t, exec i s = .next t ∧ (stackAt t k).st = .failed ∧ sameMemory s t) ∧
    ((stackAt s k).entering = true → (stackAt s k).st = .ready → ∃ t, exec (.entryEndTimeout k) s = .next t ∧
      (stackAt t k).entering = false ∧ (∀ c, c < 32 → (chanAt t k c).seq = .idle) ∧
      ((stackAt s k).reqs = [] → (stackAt t k).st = .selfRefresh ∧ (stackAt t k).retained = (stackAt s k).toRetain))

/-- A queued repair leaves the queue and its row holds no flipped bit any more; the scrub takes the next row in turn,
repairs it or defers it, and a deferred row becomes a request of port 4; FLIP_CTL is written with its APPLIED bit only
cleared. Rests on R102–R106, R126. The order of the scrub is the model's reading (log 29), and when an armed flip is
judged its choice (log 73). -/
def Obligations.RepairScrub : Prop :=
  ∀ (s : State) (k : Fin 12) (c : Fin 32) (b : Fin 68),
    (∀ l, queuedRepair s k c b = some l →
      ((stackAt s k).st = .ready → bankStreams s k c b = false → ∃ t, exec (.repair k c b) s = .next t ∧
        l ∉ (stackAt t k).repairs ∧ errCols t (servedKey s k l) = []) ∧
      (bankStreams s k c b = true → ∃ t, exec (.midRowRepair k c b) s = .next t ∧
        l ∉ (stackAt t k).repairs ∧ errCols t (servedKey s k l) = [])) ∧
    (∀ l next st, (stackAt s k).st = .ready → engineBlocked s k 4 = false → l = scrubLoc (stackAt s k).scrubPos →
      next = ((stackAt s k).scrubPos + 1) % scrubRows →
      st = { stackAt s k with scrubPos := next, layerCe := if next = 0 then [] else (stackAt s k).layerCe } →
      (inService (chanAt s k l.chan) l.layer = false → ∃ t, exec (.patrolScrubRead k) s = .next t ∧
        stackAt t k = st ∧ sameMemory s t) ∧
      (inService (chanAt s k l.chan) l.layer = true → bankStreams s k l.chan (l.layer * 4 + l.bank) = true →
        ∃ t, exec (.patrolScrubRead k) s = .next t ∧ sameMemory s t ∧
          stackAt t k = { st with deferred := (stackAt s k).deferred ++ [l] }) ∧
      (inService (chanAt s k l.chan) l.layer = true → bankStreams s k l.chan (l.layer * 4 + l.bank) = false →
        ∃ t, exec (.patrolScrubRead k) s = .next t ∧ errCols t (rowKey k l.chan l.layer l.bank l.row) = [] ∧
          (rowDirty s (rowKey k l.chan l.layer l.bank l.row) = false →
            (∀ p ∈ (stackAt s k).quernUe, fourInSecond p.2 = false) → stackAt t k = st ∧ sameMemory s t))) ∧
    (∀ l rest, (stackAt s k).deferred = l :: rest → ∃ t, exec (.scrubDeferTimeout k) s = .next t ∧ sameMemory s t ∧
      (stackAt t k).deferred = rest ∧ (stackAt t k).reqs = (stackAt s k).reqs ++
        [{ id := s.nextId, port := 4, src := 4, loc := l, off := 0, op := .read 2048, arrival := s.time, engine := 4
           scrub := true }]) ∧
    (∀ v, ∃ t, exec (.flipArm k v) s = .next t ∧ t = { s with regs := t.regs } ∧
      regBit t (oStk k kFlipCtl) 16 = (regBit s (oStk k kFlipCtl) 16 && !bitOf v 16) ∧
      regBit t (oStk k kFlipCtl) 0 = bitOf v 0)

/-- A migration copies row after row of the failing layer to the spare layer, which serves it from the switchover,
unless a failure meanwhile leaves the channel DEGRADED; a remap does the same with a bank and a spare bank; a quern that
does not answer is isolated, and its bank is remapped or the channel is DEGRADED; requests start a migration or a remap,
and one that changes nothing is logged. Rests on R107–R112, R114–R118, R123, R169. The choice of a spare bank and a
failure during a remap are the model's reading (log 27), and the bytes of a remap's event and what counts as an active
stream its choice (log 73). -/
def Obligations.Sparing : Prop :=
  ∀ (s : State) (k : Fin 12) (c : Fin 32) (ch : Chan), ch = chanAt s k c →
    ((stackAt s k).st = .ready → ch.spSt = .migrating → ch.progress < 16384 → engineBlocked s k 3 = false →
      ch.copied = [] → (∀ b, b < 4 → bankStreams s k c (ch.spLayer * 4 + b) = false) →
      (∀ b, b < 4 → errCols s (rowKey k c ch.spLayer b ch.progress) = []) →
      ∃ t, exec (.migrationRowCopy k c) s = .next t ∧
        chanAt t k c = { ch with progress := ch.progress + 1, copying := false, copied := [] }) ∧
    (ch.spSt = .migrating → ch.progress = 16384 → (∀ b, b < 4 → quernActive s k c (ch.spLayer * 4 + b) = false) →
      (ch.failed = [] → ∃ t, exec (.migrationSwitchover k c) s = .next t ∧ sameMemory s t ∧ chanAt t k c = { ch with
        spSt := .layerSpared, layerOut := true, progress := 0, noGap := false, copying := false, copied := [] }) ∧
      (ch.failed ≠ [] → ∃ t, exec (.migrationSwitchover k c) s = .next t ∧ (chanAt t k c).spSt = .degraded ∧
        (chanAt t k c).layerOut = true)) ∧
    (∀ sp w, ch.remapping = some (sp, w) →
      ((stackAt s k).st = .ready → ch.progress < 16384 → engineBlocked s k 2 = false → bankStreams s k c (remapHome ch w) = false →
        errCols s (rowKey k c (homeAt ch { chan := c, layer := w / 4, bank := w % 4, row := ch.progress }).1
          (homeAt ch { chan := c, layer := w / 4, bank := w % 4, row := ch.progress }).2 ch.progress) = [] →
        ∃ t, exec (.bankRemapCopy k c) s = .next t ∧ chanAt t k c = { ch with progress := ch.progress + 1 }) ∧
      (ch.progress = 16384 → ch.failed = [] → ∃ t, exec (.bankRemapComplete k c) s = .next t ∧ sameMemory s t ∧
        chanAt t k c = { ch with
          spSt := .remapped, remapping := none, progress := 0
          spares := ch.spares.filter (fun p => p.2 != w) ++ [(sp, w)] })) ∧
    (∀ (b : Fin 64) (u : State), u = isolateQuern s k c b → (quernOf s k c b).st ≠ .isolated → (ctlAt s 2).st = 0 →
      (∀ i : Instr, (i = .quernRowBoundaryTimeout k c b ∧ (quernOf s k c b).atBoundary = true) ∨
        (i = .spareReqRemap k c ⟨b.val / 4, by omega⟩ ⟨b.val % 4, by omega⟩ ∧ (spareFor s k c).isSome = true ∧
          (ch.spSt = .clean ∨ ch.spSt = .remapped)) →
        (∀ sp, (chanAt u k c).spSt = .clean ∨ (chanAt u k c).spSt = .remapped → spareFor u k c = some sp →
          ∃ t, exec i s = .next t ∧ (chanAt t k c).spSt = .remapping ∧ (chanAt t k c).remapping = some (sp, b.val)) ∧
        ((chanAt u k c).spSt = .layerSpared ∨
          ((chanAt u k c).spSt = .clean ∨ (chanAt u k c).spSt = .remapped) ∧ spareFor u k c = none →
          ∃ t, exec i s = .next t ∧ (chanAt t k c).spSt = .degraded))) ∧
    (∀ l : Fin 16, (ch.spSt = .clean → (ctlAt s 2).st = 0 → ∃ t, exec (.spareReqMigrate k c l) s = .next t ∧ sameMemory s t ∧
        chanAt t k c = { ch with spSt := .migrating, spLayer := l, progress := 0, noGap := false }) ∧
      (ch.spSt ≠ .clean → exec (.spareReqMigrate k c l) s = .next (event s 6 3 6 1 (chanUnit k c)))) ∧
    (∀ (l : Fin 16) (b : Fin 4), ch.spSt = .migrating ∨ ch.spSt = .layerSpared ∨ ch.spSt = .degraded ∨
        spareFor s k c = none → exec (.spareReqRemap k c l b) s = .next (event s 6 3 6 2 (chanUnit k c))) ∧
    exec (.spareReqReserved k c) s = .next (event s 6 3 6 3 (chanUnit k c)) ∧
    exec (.spareReqNoAction k) s = .next s

/-! ### Sequencers, streams and jobs -/

/-- A job starts on a channel, or is refused there and loses its tiles; the sequencer carries out its command and goes
to the next; an ACT opens its row in the banks that find a place and makes the others wait for one, never more than
ALLOW at a time; an OPW gives its word to each idle quern and leaves a busy one its own; a BCAST passes what is held of
its tile to the querns in LOAD; STRM feeds its columns to the querns in STREAM or HELD and to no other; SYNC and END
wait until the named querns are idle; tiles are read ahead into slots, a group's tile once for all its members that have
room. Where several banks are named, each is served by a bank of its own (R10). Rests on R133, R153–R161, R165, R166,
R318, R324–R327, R332. A refused source, an OPW to a busy quern and the place that PRE keeps are the model's reading
(logs 13, 19 and 22); a BMASK of 0 and when a group's members are fixed (log 73) are its choice. -/
def Obligations.Sequencer : Prop :=
  ∀ (s : State) (k : Fin 12) (c : Fin 32) (ch : Chan), ch = chanAt s k c →
    (∀ j u v, s.jobs.find? (fun j => j.stack == k.val && bitOf j.left c) = some j → ch.seq = .idle →
      (stackAt s k).st = .ready ∨ (stackAt s k).st = .failed → jobHeld s k = false →
      u = (if j.left = j.mask ∧ j.outcomes = [] then trace s 6 (ringOf s j.did) j.jobtag (data := headOf s j.did)
        else s) →
      v = modJob u j.id (fun j => { j with left := setFld j.left c c 0 }) →
      (entryBad v j = false → roleBad v j = false → ∃ t, exec (.quernJobStart k c) s = .next t ∧ sameMemory s t ∧
        chanAt t k c = { ch with seq := .run, job := some j.id, cmd := 0 } ∧ t.jobs = v.jobs) ∧
      (entryBad v j = true ∨ roleBad v j = true → ∃ t, exec (.quernJobStart k c) s = .next t ∧ sameMemory s t ∧
        (chanAt t k c).seq = .idle ∧ (∀ sl ∈ (chanAt t k c).slots, sl.job ≠ j.id) ∧
        t.jobs = (jobOutcome v (some j.id) c (if entryBad v j then 3 else 4)).jobs)) ∧
    (∀ j w, issuing s k c 0 = some (j, w) → fld w 19 4 = 0 → exec (.seqNop k c) s = .next (nextCmd s k c)) ∧
    (∀ j w, issuing s k c 0 = some (j, w) → fld w 19 4 ≠ 0 →
      exec (.seqNop k c) s = .next (modChan s k c (fun ch => { ch with waiting := true }))) ∧
    (ch.waiting = true → ∃ t, exec (.seqNopWaitDone k c) s = .next t ∧ sameMemory s t ∧
      chanAt t k c = { ch with waiting := false, cmd := ch.cmd + 1 }) ∧
    (∀ j w banks row, issuing s k c 1 = some (j, w) → banks = maskBanks (cMask w) → row = fld w 17 4 →
      ∃ t, exec (.act k c) s = .next t ∧ sameMemory s t ∧
        (chanAt t k c).cmd = ch.cmd + 1 ∧ (chanAt t k c).entryBanks = joinBanks ch.entryBanks banks ∧
        (∀ b ∈ banks, (quernOf t k c b).want = some row ∧
          (b ∈ (chanAt t k c).streaming ∨ b ∈ (chanAt t k c).admission)) ∧
        (ch.streaming.length ≤ allow s k → (chanAt t k c).streaming.length ≤ allow s k) ∧
        (ch.admission = [] → ch.streaming.length + banks.length ≤ allow s k →
          (∀ b ∈ banks, b ∉ ch.streaming ∧ (quernOf s k c b).feeds = [] ∧ quernAwaited s k c b = false) →
          (chanAt t k c).streaming = banks.reverse ++ ch.streaming ∧ (chanAt t k c).admission = [] ∧
            ∀ b ∈ banks, (bankAt t k c (quernBank s k c b)).openRow = some row) ∧
        (allow s k ≤ ch.streaming.length → (∀ b ∈ banks, b ∉ ch.streaming ∧ b ∉ ch.admission) →
          (∀ b ∈ ch.streaming, (quernOf s k c b).stalled = false) →
          (chanAt t k c).streaming = ch.streaming ∧ (chanAt t k c).admission = ch.admission ++ banks ∧
            ∀ b, bankAt t k c b = bankAt s k c b)) ∧
    (∀ j w waits banks, issuing s k c 2 = some (j, w) → banks = maskBanks (cMask w) →
      waits = banks.any (fun b => quernAwaited s k c b || switchWaits ch b) →
      (waits = true → exec (.opw k c) s = .next s) ∧
      (waits = false → ∃ t, exec (.opw k c) s = .next t ∧ sameMemory s t ∧ (chanAt t k c).cmd = ch.cmd + 1 ∧
        (chanAt t k c).phaseBanks = joinBanks ch.phaseBanks banks ∧
        ((banks.map (quernBank s k c)).Nodup → ∀ p ∈ banks.zipIdx, ∀ op : W128,
          op = (if bitOf w 10 then setFld (opwWord s k (fld w 9 4)) 27 22 (opwLsel (opwWord s k (fld w 9 4)) + p.2)
            else opwWord s k (fld w 9 4)) →
          ((quernOf s k c p.1).st ≠ .idle → (quernOf s k c p.1).st ≠ .isolated →
            quernOf t k c p.1 = quernOf s k c p.1) ∧
          (∀ ti x, (quernOf s k c p.1).st = .idle → opwOp op ≠ 0 → opwCount op ≠ 0 → treeFor ch p.1 = some ti →
            treeAt s k c ti = some x → (quernOf t k c p.1).st = .load ∧ (quernOf t k c p.1).word = op ∧
              (quernOf t k c p.1).tree = ti ∧ (quernOf t k c p.1).rank = rankIn x.mask p.1 ∧
              (quernOf t k c p.1).feeds = [] ∧ (quernOf t k c p.1).latch = [])))) ∧
    (∀ j w hi x, issuing s k c 3 = some (j, w) → 0 < ch.sent ∨ (slotOf ch j.id ch.cmd).isSome = true →
      hi = tileUpto ch j.id ch.cmd → x = tileHeld ch j.id ch.cmd →
      (x.2.1 = true → exec (.bcast k c) s = .next s) ∧
      (x.2.1 = false → x.2.2 = true → ∃ t, exec (.bcast k c) s = .next t ∧ sameMemory s t ∧
        (chanAt t k c).seq = .ending ∧ (chanAt t k c).castErr = true) ∧
      (x.2.1 = false → x.2.2 = false → ch.sent < hi → hi = bcBytes w → ∃ t, exec (.bcast k c) s = .next t ∧ sameMemory s t ∧
        chanAt t k c = { ch with
          casting := true, sent := 0
          slots := ch.slots.filter (fun y => !(y.job == j.id && y.cmd == ch.cmd))
          mill := ch.mill.filter (fun y => !(y.job == j.id && y.cmd == ch.cmd)) } ∧
        ((ch.entryBanks.map (quernBank s k c)).Nodup → ∀ b ∈ ch.entryBanks, quernOf t k c b =
          if (quernOf s k c b).st = .load then latchTake (quernOf s k c b) (bitOf w 6) (fld w 25 23 + 1) (fld w 22 7 * 64)
            (bcSource j c w) ch.sent (joinParts (bcSource j c w) x.1).1 (joinParts (bcSource j c w) x.1).2
          else quernOf s k c b)) ∧
      (x.2.1 = false → x.2.2 = false → ch.sent < hi → hi ≠ bcBytes w → ∃ t, exec (.bcast k c) s = .next t ∧
        (chanAt t k c).sent = hi ∧ (chanAt t k c).casting = false ∧
        (chanAt t k c).slots = ch.slots.filter (fun y => !(y.job == j.id && y.cmd == ch.cmd)) ∧
        ∀ y ∈ (chanAt t k c).mill.toList, y.upto ≤ y.off + millBytes ∨ y ∈ ch.mill.toList)) ∧
    (ch.casting = true → ∃ t, exec (.bcastDone k c) s = .next t ∧ sameMemory s t ∧
      chanAt t k c = { ch with casting := false, cmd := ch.cmd + 1 } ∧
      ∀ b ∈ ch.entryBanks, (quernOf t k c b).st = if (quernOf s k c b).st = .load then .stream else (quernOf s k c b).st) ∧
    (∀ j w f, issuing s k c 4 = some (j, w) →
      f = { next := fld w 17 4 * 64 + fld w 38 33, last := (fld w 17 4 + fld w 32 18 - 1) * 64 + fld w 44 39 } →
      ∃ t, exec (.strm k c) s = .next t ∧ sameMemory s t ∧ (chanAt t k c).cmd = ch.cmd + 1 ∧
        (((maskBanks (cMask w)).map (quernBank s k c)).Nodup → ∀ b ∈ maskBanks (cMask w), ∀ x : Quern,
          x = skipExcluded { quernOf s k c b with feeds := (quernOf s k c b).feeds ++ [f] } →
          (fld w 32 18 ≠ 0 → (quernOf s k c b).st = .stream ∨ (quernOf s k c b).st = .held →
            (quernOf t k c b).feeds = x.feeds ∧ (quernOf t k c b).col = x.col ∧
            (x.feeds ≠ [] → (quernOf s k c b).feeds = [] →
              b ∈ (chanAt t k c).streaming ∨ b ∈ (chanAt t k c).admission)) ∧
          (fld w 32 18 = 0 ∨ (quernOf s k c b).st ≠ .stream ∧ (quernOf s k c b).st ≠ .held →
            (quernOf t k c b).feeds = (quernOf s k c b).feeds ∧ (quernOf t k c b).col = (quernOf s k c b).col))) ∧
    (∀ j w, issuing s k c 5 = some (j, w) → ∃ t, exec (.tree k c) s = .next t ∧ sameMemory s t ∧
      chanAt t k c = { ch with cmd := ch.cmd + 1, trees := ch.trees ++ [{
        mode := fld w 7 6, areg := fld w 5 4, cstride := fld w 31 8, bstride := fld w 55 32, mask := cMask w }] }) ∧
    (∀ j w, issuing s k c 6 = some (j, w) → ∃ t, exec (.sync k c) s = .next t ∧ sameMemory s t ∧
      (chanAt t k c).seq = .syncWait ∧ (chanAt t k c).syncMask = cMask w) ∧
    (ch.seq = .syncWait → syncReady s k c = true → exec (.syncMet k c) s = .next (modChan s k c (fun ch => { ch with
      seq := .run, syncMask := 0, cmd := ch.cmd + 1, phaseBanks := []
      trees := ch.trees.map (fun t => { t with opened := false }) }))) ∧
    (∀ j w, issuing s k c 7 = some (j, w) → ∃ t, exec (.pre k c) s = .next t ∧ sameMemory s t ∧
      (chanAt t k c).cmd = ch.cmd + 1 ∧ ∀ b ∈ maskBanks (cMask w), (quernOf s k c b).st ≠ .idle →
        (quernOf s k c b).st ≠ .isolated → (quernOf t k c b).pre = true) ∧
    (∀ j w, issuing s k c 8 = some (j, w) → ∃ t, exec (.endCmd k c) s = .next t ∧ sameMemory s t ∧
      (chanAt t k c).seq = .ending) ∧
    (ch.seq = .ending → syncReady s k c = true → (∀ t ∈ ch.trees, t.inputs = []) → (stackAt s k).entering = false →
      ∃ t, exec (.entryEnd k c) s = .next t ∧ sameMemory s t ∧ chanAt t k c = idleChan ch ∧ t.jobs = (jobOutcome s ch.job c
        (if ch.tailErr ∨ ch.castErr then 0xC else if ch.short then 0xA else 0)).jobs) ∧
    (prefetchHead s k c = none → exec (.broadcastPrefetch k c) s = .next (kept s (millAhead s k c))) ∧
    (∀ j cmd w u, prefetchHead s k c = some (j, cmd, w) → j.stack = k.val → u = fixGroup s j.mcast →
      (inGroup u j c cmd w = true ∨ 4 ≤ ch.slots.length → exec (.broadcastPrefetch k c) s = .next u) ∧
      (∀ lo, inGroup u j c cmd w = false → ch.slots.length < 4 → (millOf ch j.id cmd).isSome = true ∨ sharedSlot u j cmd w = none →
        lo = (match millOf ch j.id cmd with | some m => m.upto | none => 0) →
        tileWaits u j c w lo (min slotBytes (bcBytes w)) = false →
        ∃ t sl, exec (.broadcastPrefetch k c) s = .next t ∧ (chanAt t k c).slots = ch.slots ++ [sl] ∧
          sl.job = j.id ∧ sl.cmd = cmd ∧ sl.off = lo ∧ sl.upto = min slotBytes (bcBytes w))) ∧
    (∀ g m, g ≠ 0 → m = groupMembers s g →
      (∀ x ∈ m, ∀ y ∈ m, sameTile x.2.2.2 y.2.2.2 x.1 y.1 x.2.1 y.2.1 = true) →
      (∃ x ∈ m, takesNow s x.1.stack x.2.1 x.1.id x.2.2.1 = true) →
      (∀ x ∈ m, tileWaits s x.1 x.2.1 x.2.2.2 0 (min slotBytes (bcBytes x.2.2.2)) = false) →
      ((∀ x ∈ m, takesNow s x.1.stack x.2.1 x.1.id x.2.2.1 = true) → ∃ t, exec (.multicastDelivery g) s = .next t ∧
        ∀ x ∈ m, ∃ sl ∈ (chanAt t x.1.stack x.2.1).slots, sl.job = x.1.id ∧ sl.cmd = x.2.2.1) ∧
      (∃ t, exec (.multicastWaitTimeout g) s = .next t ∧ ∀ x ∈ m,
        (takesNow s x.1.stack x.2.1 x.1.id x.2.2.1 = true →
          ∃ sl ∈ (chanAt t x.1.stack x.2.1).slots, sl.job = x.1.id ∧ sl.cmd = x.2.2.1) ∧
        (takesNow s x.1.stack x.2.1 x.1.id x.2.2.1 = false → ∀ y ∈ t.jobs, y.id = x.1.id → y.mcast = 0)))

/-- A waiting bank takes a free place, while ALLOW gives any; a stream passes a row boundary at which nothing waits; a
column enters its quern, unless its clock is held (R471); a stalled or exponent step is over; a tree's unit goes to its
address, or is lost with the error that ends the entry; a job whose channels have all ended and whose units are all
written completes, with its arrival when the core has room. Rests on R135, R139, R141, R153, R162–R168, R323, R519,
R520. INFO0 of a uniform outcome, the units of a bank's second stream, the arrival of a refused job and a unit that the
seal refuses are the model's reading (logs 16, 20, 77 and 13), and a bank without a stream at a row boundary its choice
(log 73). -/
def Obligations.Streams : Prop :=
  ∀ (s : State) (k : Fin 12) (c : Fin 32) (b : Fin 64) (ch : Chan) (q : Quern), ch = chanAt s k c → q = quernOf s k c b →
    (∀ rest, admissible s k c = b.val :: rest → ch.streaming.length < allow s k →
      ∃ t, exec (.bankAdmission k c) s = .next t ∧ sameMemory s t ∧
        (chanAt t k c).streaming = b.val :: ch.streaming.filter (· != b.val) ∧
        (chanAt t k c).admission = ch.admission.filter (· != b.val) ∧
        (bankAt t k c (quernBank s k c b)).openRow = streamRow q ∧
        (quernOf t k c b).st = if q.st = .held then .stream else q.st) ∧
    (allow s k = 0 → exec (.bankAdmission k c) s = .next s) ∧
    (atRowBoundary q = true → b.val ∈ ch.streaming → mustYield s k c b = false →
      queuedRepair s k c (quernBank s k c b) = none → bankReqs s k c (quernBank s k c b) false = [] →
      copyWaits s k c b = false → remapWaits s k c b = false → ∃ t, exec (.rowBoundary k c b) s = .next t ∧ sameMemory s t ∧
        quernOf t k c b = { q with atBoundary := q.atBoundary && q.feeds.isEmpty } ∧
        (bankAt t k c (quernBank s k c b)).openRow = streamRow q ∧ (bankAt t k c (quernBank s k c b)).gate = true) ∧
    (clockHeld s (.stack k) = true → exec (.columnDelivered k c b) s = .next s ∧ exec (.exponentStepDone k c b) s = .next s) ∧
    (∀ x key st, nextFeed q = some x → q.st = .stream → q.stalled = false → q.atBoundary = false → b.val ∈ ch.streaming →
      clockHeld s (.stack k) = false → (bankAt s k c (quernBank s k c b)).openRow = some (x / 64) → ch.seq = .run → copyStalls s k c q = false →
      key = quernRowKey s k c b (x / 64) → (colState s key (x % 64)).cls = .clean →
      st = quernColumn q q.col (readCol s key (x % 64) none).1 false →
      (afterColumn st.q q.col x).st ≠ .finish → (afterColumn st.q q.col x).drain = [] →
      ∃ t, exec (.columnDelivered k c b) s = .next t ∧ sameMemory s t ∧
        quernOf t k c b = afterColumn st.q q.col x) ∧
    (q.drain = [] → q.stalled = true → q.st ≠ .finish → ch.seq = .run → exec (.drainStallRelease k c b) s
      = .next (modQuernOf s k c b (fun q => { q with stalled := false }))) ∧
    (q.st = .exp → ch.seq = .run → clockHeld s (.stack k) = false → ∃ t, exec (.exponentStepDone k c b) s = .next t ∧ sameMemory s t ∧
      (quernOf t k c b).st = (if b.val ∈ ch.streaming then .stream else .held) ∧
      (quernOf t k c b).l = (exponentStep q ((q.col - 1) / areaCols q.word)).q.l ∧
      (quernOf t k c b).scores = (exponentStep q ((q.col - 1) / areaCols q.word)).q.scores) ∧
    (∀ i x o da, treeAt s k c i = some x → treeOut x = some o → ch.entryBanks = [] → da = unitDa s k c x o.rank o.n →
      da % 32 = 0 → o.vals.length = 8 → unitsWaiting s k c < 16 → windowWaits s da 32 true = false →
      (∀ n off, daKind s da = .scratch n off → off % 32 = 0 → ∃ t, exec (.treeOutputUnit k c i) s = .next t ∧
        t.dram = s.dram ∧ treeAt t k c i = some (treeAfter x o) ∧
        t.scratch = mwrite s.scratch (scratchAddr n off) (o.vals.flatMap (fun v => leBytes 4 v.toNat))) ∧
      (daKind s da = .dram → unitRefused s ((ch.job.bind (jobAt s)).bind (·.auth)) da = false →
        ∃ t r, exec (.treeOutputUnit k c i) s = .next t ∧ sameMemory s t ∧ treeAt t k c i = some (treeAfter x o) ∧
          (stackAt t (locate s da).stack).reqs = (stackAt s (locate s da).stack).reqs ++ [r] ∧
          r.port = (if (locate s da).stack = k.val then 3 else 2) ∧ r.loc = (locate s da).loc ∧
          r.op = .write (o.vals.flatMap (fun v => leBytes 4 v.toNat)) [o.poison]) ∧
      (unitRefused s ((ch.job.bind (jobAt s)).bind (·.auth)) da = true → ∃ t, exec (.treeOutputUnit k c i) s = .next t ∧
        sameMemory s t ∧ treeAt t k c i = some (treeAfter x o) ∧ (chanAt t k c).tailErr = true)) ∧
    (ch.tailErr = true → ch.seq ≠ .idle → ∃ t, exec (.tailraceAddrError k c) s = .next t ∧ sameMemory s t ∧
      (chanAt t k c).seq = .ending ∧ (chanAt t k c).waiting = false ∧ (chanAt t k c).casting = false) ∧
    (∀ n j, jobAt s n = some j → j.left = 0 → j.arrWait = false → unitsLeft s j.id = false →
      (∀ d, d < 32 → bitOf j.mask d = true → ∃ o ∈ j.outcomes, o.1 = d) → ∃ t, exec (.quernJobComplete n) s = .next t ∧
        admAt t j.did = none ∧ sameMemory s t ∧ (j.arr = none → t.jobs = s.jobs.filter (fun x => x.id != n)) ∧
        (∀ a, j.arr = some a → qFree (coreAt s a) 12 1 = true →
          t.jobs = s.jobs.filter (fun x => x.id != n) ∧ coreAt t a = qPush (coreAt s a) 12 (jobArrival j)) ∧
        (∀ a, j.arr = some a → qFree (coreAt s a) 12 1 = false → (jobAt t n).map (·.arrWait) = some true)) ∧
    (∀ n j a, jobAt s n = some j → j.arrWait = true → j.arr = some a → qFree (coreAt s a) 12 1 = true →
      ∃ t, exec (.quernArrivalRelease n) s = .next t ∧ sameMemory s t ∧ t.jobs = s.jobs.filter (fun x => x.id != n) ∧
        coreAt t a = qPush (coreAt s a) 12 (jobArrival j))

/-- A table word is written unless its stack's sequencers run or a package has locked it; the aperture's control; a
line, whose own bytes are resolved first, is rejected whole with its cause, waits for its channel's sequencer, for a
place under ALLOW or for the link that brings its snoops (log 74), is executed whole under its JOBTAG, or is skipped;
PNOP, PACT, PPRE, PLOAD and PMAC, whose 256 bytes are zeros when the bank's quern is isolated; a sealed channel is
refused (R447). (The bytes of a PMAC are stated for the PCIe mode, in which no snoop goes out.) Rests on R175–R181,
R444, R449. That LSEQ is not checked, and that a line waits for the link, are the model's reading (logs 21 and 74); the
lowest CAUSE and LAST before the first doorbell are its choice (log 73). -/
def Obligations.Aperture : Prop :=
  ∀ (s : State) (k : Fin 12) (c : Fin 32) (b : Fin 64),
    (∀ off v, tableStack off = some k.val → seqRunning s k = 0 → seqLocked s off = false →
      exec (.seqTableWrite off v) s = .next (regSet s off (v &&& w32 (regDef off).rw))) ∧
    (∀ off v, tableStack off = some k.val → seqRunning s k ≠ 0 ∨ seqLocked s off = true →
      exec (.seqTableWrite off v) s = .next (regSetBit s (oQrn k qSeqStatus) 0)) ∧
    exec .pk1Enable s = .next (regSetFld s oPk1Ctl 0 0 1) ∧ exec .pk1Disable s = .next (regSetFld s oPk1Ctl 0 0 0) ∧
    (∀ v, exec (.pk1Doorbell v) s = .next { s with pk1 := { s.pk1 with last := v } }) ∧
    (coherent s = true → linkCarries s = false → exec .pk1Line s = .next s) ∧
    (∀ v ws, pk1Eligible s = true → coherent s = false ∨ linkCarries s = true →
      v = windowSnoop false s ((pk1Lines + 64 * ((pk1Done s + 1) % 65536 % 8192)) / 64) →
      ws = lineWords v ((pk1Done s + 1) % 65536) →
      (lineCause v ws ≠ 0 → exec .pk1Line s
        = .next (kept s (regSetFld (regSetFld v oPk1Status 19 17 (lineCause v ws)) oPk1Status 16 16 1))) ∧
      (lineCause v ws = 0 → fld (ws.headD 0) 19 16 = k.val → fld (ws.headD 0) 24 20 = c.val →
        ((chanAt v k c).seq ≠ .idle ∨ (∃ w ∈ (ws.drop 1).take (fld (ws.headD 0) 27 25), pcmdWaits v k c w = true) →
          exec .pk1Line s = .next (kept s v)) ∧
        (∀ r, (chanAt v k c).seq = .idle →
          (∀ w ∈ (ws.drop 1).take (fld (ws.headD 0) 27 25), pcmdWaits v k c w = false) →
          r = ((ws.drop 1).take (fld (ws.headD 0) 27 25)).foldl (pcmd k c)
            { v with cause := (w32 (fld (ws.headD 0) 63 32), 0xFFF) } →
          ∃ t, exec .pk1Line s = .next t ∧ pk1Done t = (pk1Done s + 1) % 65536 ∧ t.pk1 = r.pk1 ∧
            t.window = r.window ∧ t.stks = r.stks ∧ t.dram = r.dram))) ∧
    (regBit s oPk1Status 16 = true → ∃ t, exec .pk1Skip s = .next t ∧ t = { s with regs := t.regs } ∧
      pk1Done t = (pk1Done s + 1) % 65536 ∧ regBit t oPk1Status 16 = false ∧ regFld t oPk1Status 19 17 = 0) ∧
    exec (.pnop k c) s = .next s ∧
    (∀ row, apertureSealed s k c = true → exec (.pact k c b row) s = .next (apertureRefuse s k c)) ∧
    (∀ row, apertureSealed s k c = false → allow s k = 0 → exec (.pact k c b row) s = .next s) ∧
    (∀ row, apertureSealed s k c = false → allow s k ≠ 0 → ∃ t, exec (.pact k c b row) s = .next t ∧ pk1Row t k c b = some (row % 16384, none) ∧ sameMemory s t ∧
      (bankAt t k c (quernBank s k c b)).openRow = some (row % 16384)) ∧
    (∃ t, exec (.ppre k c b) s = .next t ∧ pk1Row t k c b = none ∧ sameMemory s t ∧
      (bankAt t k c (quernBank s k c b)).openRow = none) ∧
    (∀ slot row x, pk1Row s k c b = some (row, x) → ∃ t, exec (.pload k c b slot) s = .next t ∧
      pk1Row t k c b = some (row, some slot.val) ∧ sameMemory s t) ∧
    (∀ w, apertureSealed s k c = false → pcmdWaits s k c w = true → fld w 3 0 = 4 → exec (.pmac k c w) s = .next s) ∧
    (∀ w row slot q u r, fld w 9 4 = b.val → pk1Row s k c b = some (row, some slot) → (chanAt s k c).seq = .idle →
      pmCol0 w + 16 * pmKlen w ≤ 64 → s.link.mode = .pcie → apertureSealed s k c = false → pcmdWaits s k c w = false →
      u = setBank s k c (quernBank s k c b) { bankAt s k c (quernBank s k c b) with openRow := some row, streak := 0 } →
      q = { st := .stream, word := pmWord w
            latch := mwrite [] 0 (mread s.window (pk1Data + 2048 * slot) (pmNvec w * pmKlen w * 32)) } →
      r = ((List.range (16 * pmKlen w)).map (· + pmCol0 w)).foldl (pmColumn k c b row) (q, u) →
      ∃ t, exec (.pmac k c w) s = .next t ∧ t.dram = s.dram ∧ t.scratch = s.scratch ∧
        t.window = mwrite s.window (pk1Results + 256 * fld w 32 23) ((if (quernOf s k c b).st = .isolated
          then List.replicate 64 0 else r.1.drain.flatMap (fun u => u.vals)).flatMap (fun v => leBytes 4 v.toNat)))

/-! ### DMA, the host link and the host -/

/-- A start is taken, under its job tag; a descriptor copied or fetched runs, is refused, or halts the channel; a block
moves its bytes from source to destination, or its host read goes out; a paced channel waits above its high mark and
goes on at its low mark; a held arrival enters Q12; the status word is written back, once its stack and bank take it
(log 84); a chain goes on at NEXT, or ends with its record; a halt holds the channel; a request without a response halts
it, unless its stack is not READY; a channel whose clock is held issues nothing (R471); RESUME, SKIP, ABORT and GO; a
sluice transfer ends. Rests on R14, R268–R292, R446. What is written before a fault, the order of a GO's checks, HOLD 0
with an action, and the cut of host requests are the model's reading (logs 35, 36, 47, 66 and 74); so are that the
status word is one of the chain's writes (log 84) and the port that a waiting access enters (log 85). -/
def Obligations.DmaChannels : Prop :=
  ∀ (s : State) (g : Fin 64) (ch : DmaCh), ch = dmaAt s g →
    (∀ p rest, ch.pending = p :: rest → ch.st = .idle → dmaMayStart s = true → dmaHeld s g = false → exec (.dmaStartTaken g) s
      = .next (setDma s g { ch with
          st := .fetch, pending := rest, start := some p, cur := none, links := 1, chainLen := 0
          fetching := if p.head.isSome then none else some p.da, ahead := none, got := none, aborting := false
          halting := none, tag := match p.head with | some d => dJobtag d | none => 0 })) ∧
    (dmaHeld s g = true → exec (.dmaStartTaken g) s = .next s ∧ exec (.dmaBlockIssue g) s = .next s) ∧
    (∀ p d, ch.st = .fetch → ch.halting = none → ch.aborting = false → ch.ending = none → ch.fetching = none → ch.start = some p →
      p.head = some d → ch.links ≤ 1 →
      (dmaBad s g d true = false → ∃ t, exec (.descriptorFetchResponse g) s = .next t ∧
        sameMemory s t ∧ dmaAt t g = { ch with st := .run, chainLen := dChainlen d, tag := dJobtag d, got := none
                                               cur := some { d := d, da := none, pattern := regGet s (oDma g dFill)
                                                             auth := p.auth } }) ∧
      (∀ did, dmaBad s g d true = true → p.origin = .ring did → ∃ t, exec (.descriptorFetchResponse g) s = .next t ∧
        sameMemory s t ∧ (dmaAt t g).st = .idle ∧ (dmaAt t g).lastStatus = 3 ∧ admAt t did = none)) ∧
    (∀ da x u, ch.st = .fetch → ch.halting = none → ch.aborting = false → ch.ending = none → ch.fetching = some da → ch.got = none →
      rangeError s da 64 = true ∨ rangeWaits s da 64 = false → fetchDesc s g da = (x, u) →
      (∀ d, x = .desc d → dmaBad u g d (decide ((dmaAt u g).links ≤ 1)) = false →
        ∃ t, exec (.descriptorFetchResponse g) s = .next t ∧ (dmaAt t g).st = .run ∧
          (dmaAt t g).cur.map (fun c => (c.d, c.da)) = some (d, some da)) ∧
      (∀ c, x = .fault c → ∃ t, exec (.descriptorFetchResponse g) s = .next t ∧ (dmaAt t g).halting = some c)) ∧
    (∀ cur a n u bs, ch.st = .run → ch.halting = none → ch.aborting = false → ch.ending = none → dmaHeld s g = false →
      ch.cur = some cur → cur.reading = none →
      cur.block < blocksOf cur.d → dPsrc cur.d = 0 ∨ cur.passed = true → dIdxs cur.d = false → dIdxd cur.d = false →
      dDas cur.d = false → dArr cur.d = false → a = blockAddr cur.d cur.block 0 → n = dBlklen cur.d →
      rangeWaits s a.dst (blockOut cur.d) true = false →
      (dSas cur.d = false → dSwid cur.d = dDwid cur.d → rangeWaits s a.src n = false →
        goodSource s cur.auth (fun k => dstWithin s k a.dst (blockOut cur.d) false) (accessPieces s a.src n) = (n, none) →
        cleanBytes a.src (chanRead s g a.src n).2.1 n = n → bs = (chanRead s g a.src n).1.take n →
        u = (chanRead s g a.src n).2.2 → goodPrefix u cur.auth true (accessPieces u a.dst bs.length) = (bs.length, none) →
        ∃ t, exec (.dmaBlockIssue g) s = .next t ∧
          sameMemory (caused u ch.tag (chainTag ch) (fun v => daWrite (dropTickets v true g) (dmaPort g) a.dst bs [])) t ∧
          (dmaAt t g).cur = some { cur with
            block := cur.block + 1, done := cur.done + 1, bytes := cur.bytes + bs.length, passed := false }) ∧
      (dSas cur.d = true → linkCarries s = true → ∃ t, exec (.dmaBlockIssue g) s = .next t ∧ sameMemory s t ∧
        (dmaAt t g).cur = some { cur with reading := some s.link.nextTag, src := a.src, dst := a.dst } ∧
        t.link.nextTag = s.link.nextTag + 1)) ∧
    (∀ cur n u, ch.st = .run → ch.halting = none → ch.aborting = false → ch.ending = none → dmaHeld s g = false →
      ch.cur = some cur → cur.reading = none →
      cur.block < blocksOf cur.d → dPsrc cur.d = 1 ∨ (dPsrc cur.d = 2 ∧ rangeWaits s (dItab cur.d) 4 = false) →
      cur.passed = false → fillOf s g cur = (.ok n, u) → dHigh cur.d ≤ n →
      ∃ t, exec (.dmaBlockIssue g) s = .next t ∧ sameMemory u t ∧ (dmaAt t g).st = .paced) ∧
    (∀ (i : Instr) (p n : Nat) cur u, (i, p) ∈ [(.fillWordReread g, 2), (.pacedRelease g, 1)] → ch.st = .paced →
      ch.halting = none → ch.ending = none → ch.cur = some cur → dPsrc cur.d = p → p = 1 ∨ rangeWaits s (dItab cur.d) 4 = false →
      fillOf s g cur = (.ok n, u) →
      (dLow cur.d < n → ∃ t, exec i s = .next t ∧ sameMemory u t ∧ (dmaAt t g).st = .paced) ∧
      (n ≤ dLow cur.d → exec i s = .next (kept s (passBlock u g cur)))) ∧
    (∀ n e, ch.arrivals = [(n, e)] → ch.st = .arrWait → ch.aborting = false → qFree (coreAt s n) 12 1 = true →
      ∃ t, exec (.arrWaitRelease g) s = .next t ∧ sameMemory s t ∧ coreAt t n = qPush (coreAt s n) 12 e ∧
        dmaAt t g = { ch with arrivals := [], st := .run }) ∧
    (∀ cur da did, ch.st = .run → ch.halting = none → ch.aborting = false → ch.ending = none → ch.cur = some cur →
      cur.reading = none → blocksOf cur.d ≤ cur.block → dArr cur.d = false → dWb cur.d = true → cur.da = some da →
      wbFault s cur = none →
      (wbWaits s cur = true → ∃ t, exec (.dmaDescriptorComplete g) s = .next t ∧ sameMemory s t ∧ dmaAt t g = ch) ∧
      (wbWaits s cur = false → dLink cur.d = false → ch.start.map (·.origin) = some (.ring did) →
        ∃ t, exec (.dmaDescriptorComplete g) s = .next t ∧ (dmaAt t g).st = .idle ∧ admAt t did = none ∧
          sameMemory (quietWrite s g ((da + 60) % 2 ^ 48) (leBytes 4 (put cur.dflags.toNat 8 + put cur.done 16))) t)) ∧
    (∀ cur status follow, ch.cur = some cur → ch.ending = some (status, follow) → wbWaits s cur = true →
      exec (.dmaDescriptorComplete g) s = .next s) ∧
    (∀ cur p, ch.st = .run → ch.halting = none → ch.aborting = false → ch.ending = none → ch.cur = some cur →
      cur.reading = none → blocksOf cur.d ≤ cur.block → dArr cur.d = false → dWb cur.d = false → ch.start = some p →
      (∀ did, dLink cur.d = false → p.origin = .ring did → ∃ t, exec (.dmaDescriptorComplete g) s = .next t ∧
        sameMemory s t ∧ (dmaAt t g).st = .idle ∧ (dmaAt t g).cur = none ∧ (dmaAt t g).lastStatus = 0 ∧
        admAt t did = none) ∧
      (dLink cur.d = true → ch.links < chainLimit ch →
        ownerOf (setDma s g { ch with cur := none, ahead := none }) (dNext cur.d) = none →
        ∃ t, exec (.dmaDescriptorComplete g) s = .next t ∧ sameMemory s t ∧ dmaAt t g = { ch with
          st := .fetch, cur := none, fetching := some (dNext cur.d), ahead := none, links := ch.links + 1 })) ∧
    (∀ cause, ch.halting = some cause → ch.ending = none → (∀ x, ch.cur = some x → x.reading = none) → ch.arrivals = [] →
      (regBit s (oDma g dCtl) 0 = true → ch.aborting = false → ∃ t, exec (.dmaHaltSettled g) s = .next t ∧
        sameMemory s t ∧ dmaAt t g = { ch with st := .halted, cause := cause, halting := none }) ∧
      (regBit s (oDma g dCtl) 0 = false ∨ ch.aborting = true →
        ((∀ x, ch.cur = some x → wbWaits s x = false) → ∃ t, exec (.dmaHaltSettled g) s = .next t ∧
          (dmaAt t g).st = .idle ∧ (dmaAt t g).lastStatus = causeStatus cause) ∧
        (∀ x, ch.cur = some x → wbWaits s x = true → ∃ t, exec (.dmaHaltSettled g) s = .next t ∧ sameMemory s t ∧
          (dmaAt t g).st = .halted ∧ (dmaAt t g).ending = some (causeStatus cause, false)))) ∧
    (∀ cur tag, ch.cur = some cur → cur.reading = some tag → ch.halting = none → ch.ending = none →
      ∃ t, exec (.dmaResponseTimeout g) s = .next t ∧ sameMemory s t ∧ dmaAt t g = { ch with
        cur := some { cur with reading := none }, late := ch.late + 1, halting := some 3 }) ∧
    (∀ p, ch.cur.bind (·.reading) = none → ch.st = .fetch ∨ ch.st = .run ∨ ch.st = .paced → ch.halting = none →
      ch.ending = none → openRange s ch = some p →
      (rangePaused s p.1 p.2 = true → exec (.dmaResponseTimeout g) s = .next s) ∧
      (rangePaused s p.1 p.2 = false → ∃ t, exec (.dmaResponseTimeout g) s = .next t ∧ sameMemory s t ∧
        dmaAt t g = (if aheadOpen s ch
          then { ch with late := ch.late + 1, got := some (.fault 3) }
          else { ch with late := ch.late + 1, halting := some 3 }))) ∧
    (ch.late ≠ 0 → ∃ t, exec (.lateResponse g) s = .next t ∧ sameMemory s t ∧ dmaAt t g = { ch with late := ch.late - 1 }) ∧
    (ch.st = .halted → ch.ending = none →
      (∀ cur, ch.cur = some cur → exec (.resume g) s = .next (setDma s g { ch with
        st := .run, cur := some { cur with
          block := 0, done := 0, bytes := 0, dflags := 0, arrived := false, passed := false, itab := none } })) ∧
      (ch.cur = none → ch.fetching.isSome = true → ch.cause ≠ 4 → ch.cause ≠ 6 →
        exec (.resume g) s = .next (setDma s g { ch with st := .fetch })) ∧
      (∀ (i : Instr), i ∈ [.skip g, .abort g] → ch.cur = none ∨ i = .abort g →
        (∀ x, ch.cur = some x → wbWaits s x = false) → ∃ t, exec i s = .next t ∧ (ch.cur = none → sameMemory s t) ∧ (dmaAt t g).st = .idle ∧
          (dmaAt t g).lastStatus = causeStatus ch.cause)) ∧
    (∀ cur, ch.st = .run → ch.ending = none → ch.cur = some cur → cur.reading.isSome = true →
      exec (.abort g) s = .next (setDma s g { ch with aborting := true })) ∧
    (∀ v lo, lo = (regGet s (oDma g dStartLo)).toNat →
      (bitOf v 31 = false → exec (.go g v) s = .next (regSetFld s (oDma g dStartHi) 15 0 (fld v 15 0))) ∧
      (bitOf v 31 = true → lo % 64 = 0 → ch.pending.length < 8 → ownerOf s (lo + 2 ^ 32 * fld v 15 0) = none →
        ∃ t, exec (.go g v) s = .next t ∧ sameMemory s t ∧ dmaAt t g = { ch with
          pending := ch.pending ++ [{ origin := .reg, head := none, da := lo + 2 ^ 32 * fld v 15 0 }] })) ∧
    (∀ x n, s.sluices.find? (fun y => y.id == n) = some x → sluiceBehind s x = false →
      (∀ status, x.status = some status → (status = 0 → dArr x.d = false) → ∃ t, exec (.sluiceComplete n) s = .next t ∧
        sameMemory s t ∧ t.sluices = s.sluices.filter (fun y => y.id != n) ∧ admAt t x.did = none) ∧
      (x.status = none → dArr x.d = false → (dSas x.d = true ∧ x.got = none) ∨
        ((dSas x.d = true ∨ (x.got = none ∧ linkCarries s = true)) ∧ (∀ w, rangeWaits s (sluiceDa x.d) (dBlklen x.d) w = false)) →
        ∃ t, exec (.sluiceComplete n) s = .next t ∧ t.sluices = s.sluices.filter (fun y => y.id != n) ∧
          admAt t x.did = none))

/-- Training, its end in UP with rate, width and mode, or its abort; Recovery, after which what waited goes out first;
the loss of the link, which ends the host's work and loses the IDE keys; the warm self-reset; the IDE streams with their
keys. Rests on R335–R337, R347, R353, R355, R357, R358, R361, R430. The SUB of an IDE failure and the loss of DOWN state
are the model's reading (logs 54 and 55), and so is what waits in the host port (log 74). -/
def Obligations.HostLink : Prop :=
  ∀ (s : State) (l : Link), l = s.link →
    (∀ clk, s.phase ≠ 0 → s.resetHeld = false → s.power.st ≠ .off → l.st = .down ∨ l.st = .warm →
      exec (.receiverDetected clk) s = .next { s with
        pins := { s.pins with refclk := clk }
        link := { l with st := .training, fromWarm := decide (l.st = .warm), cfgOnly := false } }) ∧
    (∀ r w c, l.st = .training → 1 ≤ r → r ≤ 5 → 1 ≤ w → w ≤ 4 → (r = 5 ∨ r ≤ regFld s oLnkCtl 10 8) →
      ∃ t, exec (.l0Reached r w c) s = .next t ∧ t.link.st = .up ∧ t.link.rate = r ∧ t.link.width = w ∧
        t.link.cfgOnly = decide (r = 5 ∨ w = 4) ∧ t.link.mode = trainMode s r c) ∧
    (l.st = .training → exec .trainingAborted s
      = .next { s with link := { l with st := if l.fromWarm then .warm else .down } }) ∧
    (l.st = .up → ∃ t, exec .recoveryEntered s = .next t ∧ t.link = { l with st := .recovery } ∧ sameMemory s t) ∧
    (∀ u : State, l.st = .recovery → u = { s with link := { l with st := .up } } →
      ∃ t, exec .recoveryExit s = .next t ∧ sameMemory s t ∧
        t.link = { l with st := .up, held := if linkCarries u then [] else l.held } ∧
        (linkCarries u = true → ∃ r, t.outbox = s.outbox ++ l.held ++ r)) ∧
    (∀ (i : Instr), (i, l.st) ∈ [(.recoveryTimeout, .recovery), (.linkDown, .recovery), (.linkDown, .up)] →
      ∃ t, exec i s = .next t ∧ t.link.st = .warmEntry ∧ t.admitted = [] ∧ t.sluices = [] ∧ t.link.held = [] ∧
        t.link.ideKeys = []) ∧
    (l.st = .warmEntry → ∃ t, exec .warmSelfResetComplete s = .next t ∧ t.link.st = .warm ∧ t.link.mode = .pcie ∧
      t.lastReset = 4 ∧ t.rings = [] ∧ t.msix = [] ∧ t.window = [] ∧ t.link.window = [] ∧ t.link.hostLines = []) ∧
    (l.st = .up ∨ l.st = .recovery →
      (l.ideLink = 1 ∨ l.cxlIde ≠ 0 → ∃ t, exec (.ideIntegrityFailure none) s = .next t ∧ t.link.st = .warmEntry) ∧
      (∀ k : Fin 4, bitOf l.ideSel k = true → ∃ t, exec (.ideIntegrityFailure (some k)) s = .next t ∧
        t.link = { l with ideSel := setFld l.ideSel k k 0, ideKeys := tdel (1 + k.val) l.ideKeys } ∧ sameMemory s t)) ∧
    (l.st = .up →
      (∀ b key (u : State), u = { s with link := { l with
            ideLink := if b then 1 else 2, ideKeys := if b then tins 0 key (tdel 0 l.ideKeys) else tdel 0 l.ideKeys } } →
        ∃ t, exec (.ideKm (.link b key)) s = .next t ∧ sameMemory s t ∧
          t.link = { u.link with held := if linkCarries u then [] else l.held }) ∧
      (∀ (k : Fin 4) b key (u : State), u = { s with link := { l with
            ideSel := setFld l.ideSel k k (b2n b)
            ideKeys := if b then tins (1 + k.val) key (tdel (1 + k.val) l.ideKeys) else tdel (1 + k.val) l.ideKeys } } →
        ∃ t, exec (.ideKm (.selective k b key)) s = .next t ∧ sameMemory s t ∧
          t.link = { u.link with held := if linkCarries u then [] else l.held }) ∧
      (∀ m key, l.mode ≠ .pcie → exec (.ideKm (.cxl m key)) s = .next { s with link := { l with
        cxlIde := m.val, ideKeys := if m.val = 0 then tdel 5 l.ideKeys else tins 5 key (tdel 5 l.ideKeys) } }))

/-- What the host writes and reads in configuration space, the registers, the doorbell pages and the exchange window, in
the PCIe mode and with a line that it takes or returns in the coherent modes; what an IDE policy refuses; the link's
registers read over the management interface while the link is down (R362, log 81); the answers to reads of host memory;
and what a debug level lets the JTAG port do. Rests on R336, R339–R343, R346, R354, R366, R438. Partial words, CXL write
kinds, the JTAG port's refusals, what waits in the host port and which reads the management interface answers are the
model's reading (logs 62, 64, 65, 74 and 81); configuration words are free (log 9). -/
def Obligations.HostRequests : Prop :=
  ∀ (s : State) (a : HostAttr),
    (∀ r v, s.link.st = .up → exec (.configRequest r (some v)) s
      = .next { s with link := { s.link with config := tins (r / 4) v (tdel (r / 4) s.link.config) } }) ∧
    (∀ r, s.link.st = .up → exec (.configRequest r none) s = .next (emit s (.config (Config.configWord (r / 4)
      ((s.link.config.find? (fun p => p.1 == r / 4)).map (·.2)))))) ∧
    (∀ sp off data n, received s a = .refuse → exec (.hostPostedWrite sp off data a) s = .next (emit s (.unsupported a.tag)) ∧
      exec (.hostRead sp off n a) s = .next (emit s (.unsupported a.tag))) ∧
    (∀ off n r, received s a = .drop → mgmtReads s .bar0 off n = true → r = barRead s off n →
      exec (.hostRead .bar0 off n a) s = .next (kept s (emit r.2 (.completion a.tag r.1)))) ∧
    (∀ off data, received s a = .perform → s.link.mode = .pcie ∨ a.exclusive = true → off + data.length ≤ windowSize →
      ∃ t, exec (.hostPostedWrite .window off data a) s = .next t ∧ t.window = mwrite s.window off data ∧
        t.dram = s.dram ∧ t.scratch = s.scratch) ∧
    (∀ off data, received s a = .perform → off + data.length ≤ 0x1000000 → ∃ t,
      exec (.hostPostedWrite .bar0 off data a) s = .next t ∧ t.regs = (barWriteBytes s off data).regs) ∧
    (∀ (n : Fin 1024) data, received s a = .perform → data.length = 4 → ∃ t,
      exec (.hostPostedWrite .bar2 (4096 * n) data a) s = .next t ∧
        ringAt t n = ringAt (sqTail n (w32 (leNat data)) s) n) ∧
    (∀ off n, received s a = .perform → off + n ≤ windowSize → ∃ t, exec (.hostRead .window off n a) s = .next t ∧
      sameMemory s t ∧ t.outbox = s.outbox ++ [.completion a.tag (mread s.window off n)] ∧
      (s.link.mode ≠ .pcie → a.exclusive = true → ∀ line ∈ linesOf off n, tget .i t.link.window line = .em)) ∧
    (∀ off n, received s a = .perform → off + n ≤ 0x1000000 → ∃ t, exec (.hostRead .bar0 off n a) s = .next t ∧
      t.outbox.getLast? = some (.completion a.tag (barRead s off n).1)) ∧
    (∀ line, exec (.hostLineSnoop line) s
      = .next { s with link := { s.link with hostLines := s.link.hostLines.filter (fun p => p.1 != line) } }) ∧
    (∀ off v, off % 4 = 0 → 0x900000 ≤ off → off < 0xA00000 →
      exec (.registerWrite off v) s = .next (regSet s off (writtenBits (regDef off) (regGet s off) v))) ∧
    (∀ off v, ∃ t, exec (.registerWrite off v) s = .next t ∧ t.regs = (barWrite s off v).regs) ∧
    (∀ tag id x (u : State), s.link.reads.find? (fun p => p.1 == tag) = some (tag, .sluice id) →
      s.sluices.find? (fun x => x.id == id) = some x → x.status = none → x.got = none → sluiceFault s x.d = none →
      u = { s with link := { s.link with reads := tdel tag s.link.reads } } →
      (∃ t, exec (.hostMemoryReadResponse tag .error) s = .next t ∧ sameMemory s t ∧ t.link.reads = u.link.reads ∧
        t.sluices = s.sluices.map (fun x => if x.id = id then { x with status := some 0xC } else x)) ∧
      (∀ bs, rangeWaits u (sluiceDa x.d) (dBlklen x.d) true = false →
        ∃ t, exec (.hostMemoryReadResponse tag (.data bs false)) s = .next t ∧
          sameMemory (caused u (dJobtag x.d) 0xFFF (fun v => sluiceStore v x.d (bs.take (dBlklen x.d)))) t) ∧
      (∀ bs, rangeWaits u (sluiceDa x.d) (dBlklen x.d) true = true →
        ∃ t, exec (.hostMemoryReadResponse tag (.data bs false)) s = .next t ∧ sameMemory s t ∧
          t.sluices = s.sluices.map (fun x => if x.id = id then { x with got := some bs } else x))) ∧
    (∀ tag (g : Fin 64) cur, s.link.reads.find? (fun p => p.1 == tag) = some (tag, .dma g) → (dmaAt s g).cur = some cur →
      cur.reading = some tag → (dmaAt s g).halting = none → ∀ answer, answer = .error ∨ (∃ bs, answer = .data bs true) →
      ∃ t, exec (.hostMemoryReadResponse tag answer) s = .next t ∧ sameMemory s t ∧
        (dmaAt t g).halting = some (if answer = .error then 1 else 2)) ∧
    (s.power.st ≠ .standby → s.power.st ≠ .off → exec (.jtagAccess .bypass) s = .next (emit s (.jtag []))) ∧
    (∀ j, s.power.st = .standby ∨ s.power.st = .off ∨ (s.sec.debug = .locked ∧ j ≠ .bypass ∧ j ≠ .idcode) →
      exec (.jtagAccess j) s = .next s) ∧
    (∀ da n, s.power.st ≠ .standby → s.power.st ≠ .off → s.sec.debug ≠ .locked →
      rangeSealRefused s none da n false = false →
      (jtagRange s da n = true → rangeWaits s da n = false →
        ∃ t, exec (.jtagAccess (.readMem da n)) s = .next t ∧ t.outbox.getLast? = some (.jtag (daRead s da n).1)) ∧
      (∀ data, daKind s da = .dram → regGet s oCfgEpoch = 0 → exec (.jtagAccess (.writeMem da data)) s = .next s) ∧
      (∀ data, data.length = n → daKind s da ≠ .dram ∨ regGet s oCfgEpoch ≠ 0 → jtagRange s da n = true → rangeWaits s da n true = false → rangeSealRefused s none da n true = false →
        ∃ t, exec (.jtagAccess (.writeMem da data)) s = .next t ∧ sameMemory (daWrite s (fun _ => 2) da data []) t))

/-! ### The twin pair -/

/-- The pair's link: pairing starts once control core 3 runs (R38), what is not acknowledged goes out again, or a module
in recovery asks for an image; pairing ends in a state or with its cause; heartbeats; the judgement of a silent or
fallen partner; the takeover's end; back-fill. Rests on R399–R402, R404–R408, R417, R420–R423, R425, R457. Pairing with
lost keys, SYNC_DST, PAIR_ALIVE_IN at pairing, the bodies of messages and the source of a back-fill are the model's
reading (logs 9, 56 and 76); keys are uninterpreted (log 8). -/
def Obligations.PairStates : Prop :=
  ∀ (s : State) (p : Twin), p = s.twin →
    (s.power.st ≠ .off → s.phase ≠ 0 →
      (p.link = 1 → s.sec.recovering = false → p.st = .paired → p.hasKeys = true → p.hostless = false →
        core3Waits s = false → ∃ t, exec .wilrilLinkUp s = .next t ∧
        t.twin.link = 2 ∧ t.twin.lastHb = s.time ∧ t.twin.st = .paired ∧ sameMemory s t ∧
        ∀ m ∈ p.sendq, m.fresh = false → msgOut m ∈ t.outbox) ∧
      (p.link ≠ 2 → core3Waits s = true → ∃ t, exec .wilrilLinkUp s = .next t ∧ t.twin.link = 2 ∧ t.twin.st = p.st ∧
        t.twin.upHeld = some (decide (p.link = 0) || decide (p.upHeld = some true)) ∧ sameMemory s t) ∧
      (p.link ≠ 2 → core3Waits s = false → s.sec.recovering = false → p.st = .unpaired ∨ (p.st = .paired ∧ p.hasKeys = false) →
        ∃ t, exec .wilrilLinkUp s = .next t ∧ t.twin.link = 2 ∧ t.twin.st = .pairing ∧ t.twin.prev = p.st) ∧
      (p.link ≠ 2 → core3Waits s = false → s.sec.recovering = true → ∃ t fl n bs, exec .wilrilLinkUp s = .next t ∧
        t.twin.link = 2 ∧ t.twin.ecdhe.isSome = true ∧
        t.outbox.getLast? = some (.wilril 2 fl n 0 [8, gradeCode s, secCode s.otp.state] bs))) ∧
    (p.link = 1 → exec .wilrilRetrainTimeout s = .next { s with twin := { p with link := 0, keys := none } }) ∧
    (p.link ≠ 0 → exec .wilrilLinkDown s = .next { s with twin := { p with link := 0, keys := none } }) ∧
    (∀ u : State, p.st = .pairing → p.link = 2 → core3Waits s = false → pairCause s = some 0 → p.peerListed = true →
      tablesWait s = false → u = { s with
        pins := { s.pins with pairAliveIn := true }
        twin := { p with cause := 0, lastHb := s.time, aliveFall := none, hostless := false, sync := false } } →
      ∃ t, exec .pairingComplete s = .next t ∧ t.twin.cause = 0 ∧ t.twin.st = (if isSource u then
          (if soloHolds u then .syncSrc else .paired)
        else if isSink u then (if peerHolds u then .syncDst else .paired)
        else if p.prev = .split then .paired
        else if !(backlogOf u false).isEmpty && (!needsBlock u || myPos u == 0) then .syncSrc
        else if needsBlock u then .syncDst else .paired)) ∧
    (core3Waits s = true ∨ (pairCause s = some 0 ∧ p.peerListed = false) → exec .pairingComplete s = .next s) ∧
    (∀ c, p.st = .pairing → p.link = 2 → core3Waits s = false → pairCause s = some c → c ≠ 0 →
      ∃ t, exec .pairingComplete s = .next t ∧
      t.twin.st = .unpaired ∧ t.twin.cause = c ∧ t.twin.keys = none ∧ sameMemory s t) ∧
    (s.power.st ≠ .off → p.link = 2 → ∃ t, exec .heartbeatTimer s = .next t ∧ t.twin.hseq = p.hseq + 1 ∧
      t.outbox.getLast? = some (.wilril 1 0 (tget 0 p.txSeq 1) 0 (heartbeatArgs (heartbeatNow s)) []) ∧ sameMemory s t) ∧
    (p.st = .paired ∨ p.st = .syncSrc → p.link = 2 ∨ s.pins.pairAliveIn = false →
      ∃ t, exec .heartbeatTimeout s = .next t ∧ t.twin.st = .solo ∧ t.twin.takeover = some (s.time, false) ∧
        t.twin.waits = [] ∧ sameMemory s t) ∧
    (p.st = .syncDst → p.link = 2 ∨ s.pins.pairAliveIn = false → ∃ t, exec .heartbeatTimeout s = .next t ∧
      t.twin.st = .unpaired ∧ t.twin.keys = none ∧ sameMemory s t) ∧
    (paired s = true → p.link ≠ 2 → s.pins.pairAliveIn = true → ∃ t, exec .heartbeatTimeout s = .next t ∧
      t.twin.st = .split ∧ t.twin.splitSince = some s.time ∧ sameMemory s t) ∧
    exec .pairAliveFall s = .next { s with
      pins := { s.pins with pairAliveIn := false }, twin := { p with aliveFall := some s.time } } ∧
    (p.st = .paired ∨ p.st = .syncSrc → s.pins.pairAliveIn = false → p.aliveFall.isSome = true → ∃ t,
      exec .pairAliveLowTimeout s = .next t ∧ t.twin.st = .solo ∧ t.twin.aliveFall = none ∧ sameMemory s t) ∧
    (∀ w h, p.takeover = some (w, h) → core3Waits s = false → (∀ q ∈ p.tables, tableWaits s q.2 = false) → ∃ t,
      exec .takeoverComplete s = .next t ∧ t.twin.takeover = none ∧ ∀ y ∈ t.twin.waits, y.op ≠ 8) ∧
    (∀ k b rest x e u r, p.st = .syncSrc ∨ p.st = .syncDst ∨ (p.st = .paired ∧ p.sync = true) → p.hostless = false →
      p.link = 2 → core3Waits s = false → p.backlog = (k, b) :: rest → blockOf s k b = some (x, e) → tensorWaits s k = false →
      blockWaits s k b = false → u = touchBlock s k b → eSlot e ≠ noSlot →
      rangeError u (slotDa x (eSlot e)) (blockSize x) = false →
      mayCross u (slotDa x (eSlot e)) (blockSize x) (peerPkg u k b) = true →
      r = readAs u 0 0xFFF (slotDa x (eSlot e)) (blockSize x) → ∃ t, exec .backfillBlock s = .next t ∧
        t.twin.backlog = rest ∧ ∀ i bs, (chunks 65536 r.1)[i]? = some bs → ∃ m ∈ t.twin.sendq,
          m.cls = 6 ∧ m.args = [k, b, eSeq e, 65536 * i] ∧ m.payload = bs ∧ msgOut m ∈ t.outbox) ∧
    (p.backlog = [] → core3Waits s = false →
      (p.st = .syncSrc ∨ p.st = .syncDst → ∃ t, exec .backfillComplete s = .next t ∧ t.twin.st = .paired ∧ sameMemory s t) ∧
      (p.st = .paired → p.sync = true → exec .backfillComplete s
        = .next (kept s (copySessions { s with twin := { p with sync := false } }))))

/-- A message that is not the next of its class, or whose tag is bad, is dropped and the link retrains; a delivered one
acts: a partner that fails or has no host, its attestation with the keys exchanged (log 8), its tables and verdict, its
sessions, its split; an owner update, a request for a block, a replica and a block are answered by an acknowledgement,
and an acknowledgement ends what waited for it. Rests on R403–R405, R409–R415, R420, R422, R457. What the last block's
OWNER_UPD does, the bodies of messages and which message an ACK answers are the model's reading (logs 56, 58 and 76);
attestation is uninterpreted (log 8). -/
def Obligations.PairMessages : Prop :=
  ∀ (s u : State) (h : MsgHeader),
    (∀ (i : Instr) cls hb body k b q x im j n sq p r, (i, cls) ∈ [(.heartbeat h hb, 1), (.control h body, 2),
        (.ownerUpd h k b q, 3), (.ack h x, 4), (.replMessage h k b sq j n r, 5), (.bulk h k b sq p, 6),
        (.recovery h im, 7)] →
      s.twin.link = 2 → h.tagOk = false ∨ h.mseq ≠ tget 0 s.twin.rxSeq cls →
      ∃ t, exec i s = .next t ∧ t.twin = { s.twin with link := 1 } ∧ sameMemory s t) ∧
    (s.twin.link = 2 → h.cls = 0 ∨ 8 ≤ h.cls →
      exec (.reservedWilrilMessage h) s = .next (event s 2 8 2 (h.cls % 256) s.twin.peerSlot)) ∧
    (∀ hb, Delivers s h 1 u → hb.failed = false → hb.brake = false → hb.hostlink = 0 → s.twin.hostless = false →
      exec (.heartbeat h hb) s = .next (after s { u with twin := { u.twin with lastHb := s.time } })) ∧
    (∀ hb, Delivers s h 1 u → s.twin.st = .paired ∨ s.twin.st = .syncSrc → hb.failed = true ∨ hb.brake = true → ∃ t,
      exec (.heartbeat h hb) s = .next t ∧ t.twin.st = .solo ∧ sameMemory s t) ∧
    (∀ hb, Delivers s h 1 u → paired s = true → hb.failed = false → hb.brake = false → hb.hostlink ≠ 0 →
      s.twin.hostless = false → tablesWait s = false → ∃ t, exec (.heartbeat h hb) s = .next t ∧ t.twin.hostless = true ∧
        t.twin.takeover = some (s.time, true) ∧ t.twin.waits = [] ∧
        ((∀ w ∈ s.twin.waits, w.op ≠ 5 ∧ w.op ≠ 7) → sameMemory s t)) ∧
    (Delivers s h 2 u →
      (∀ l solo first last v, v = { u with twin := { u.twin with
            peerTables := joinTables (if first then [] else u.twin.peerTables) l, peerSolo := solo, peerListed := last } } →
        (s.twin.st ≠ .syncSrc → s.twin.sync = false →
          exec (.control h (.tables l solo first last)) s = .next (after s v)) ∧
        (last = true → s.twin.st = .syncSrc ∨ s.twin.sync = true → tablesWait s = false →
          exec (.control h (.tables l solo first last)) s = .next (kept s (after s (startBackfill v))))) ∧
      (∀ ed ml m state owner vendor share es ms ok, tablesWait s = false →
        ok = attested ed ml m (attestBytes m state owner vendor share) es ms →
        ∃ t, exec (.control h (.attest ed ml m state owner vendor share es ms)) s = .next t ∧
          t.twin.attested = some ok ∧ t.twin.secOk = some (securityAgrees s state owner vendor) ∧ t.twin.ecdhe = none ∧
          t.twin.keys = (if ok && s.twin.peerAttested != some false then s.twin.ecdhe.map (fun p => exchangeKeys s p share)
            else none)) ∧
      (∀ ok, exec (.control h (.verdict ok)) s = .next (after s { u with twin := { u.twin with
        peerAttested := some ok, keys := if ok then u.twin.keys else none } })) ∧
      (∀ b, exec (.control h (.splitResolution b)) s = .next (after s { u with twin := { u.twin with peerTook := b } })) ∧
      (paired s = true → ∃ t, exec (.control h .rePair) s = .next t ∧ t.twin.st = .pairing) ∧
      (∀ i k, findSession u i = none → u.twin.sessions.length < 4096 → exec (.control h (.session i k false)) s
        = .next (after s { u with twin := { u.twin with
            sessions := u.twin.sessions ++ [{ sid := i, tensor := k, ownedHere := false }] } })) ∧
      (∀ i k, exec (.control h (.session i k true)) s
        = .next (after s { u with twin := { u.twin with sessions := u.twin.sessions.filter (fun x => x.sid != i) } })) ∧
      (∀ r, exec (.control h (.sessions r)) s = .next (kept s (after s (r.foldl takeSession u)))) ∧
      (∀ share, s.sec.recovering = true → exec (.control h (.recoverySession share)) s
        = .next (after s (takeKeys u (u.twin.ecdhe.map (fun p => exchangeKeys u p share)))))) ∧
    (∀ k b q, Delivers s h 3 u → serveWaits s = false → blockOf u k b = none → exec (.ownerUpd h k b q) s = .next (kept s (after s (ackMsg u h.jobtag 3 false 0)))) ∧
    (∀ k b q x e, Delivers s h 3 u → serveWaits s = false → blockOf u k b = some (x, e) → eSlot e ≠ noSlot → ∃ t m,
      exec (.ownerUpd h k b (.take q)) s = .next t ∧
        t.outbox.getLast? = some (.wilril 4 0 m h.jobtag [3, 1, (q + 1) % 2 ^ 32] [])) ∧
    (∀ k b x e v pkg, Delivers s h 3 u → serveWaits s = false → blockWaits s k b = false → blockOf u k b = some (x, e) →
      v = touchBlock u k b →
      (eState e = 2 → ∃ t, exec (.ownerUpd h k b (.fetch pkg)) s = .next t ∧
        t.twin.serve = v.twin.serve ++ [(k, b, h.jobtag, pkg)]) ∧
      (eState e = 1 → eOwner e = mySlot v → eSlot e ≠ noSlot →
        rangeError v (slotDa x (eSlot e)) (blockSize x) = false →
        (mayCross v (slotDa x (eSlot e)) (blockSize x) pkg = true →
          ∃ t m, exec (.ownerUpd h k b (.fetch pkg)) s = .next t ∧
            t.outbox.getLast? = some (.wilril 4 0 m h.jobtag [3, 1, eSeq e] []) ∧
            ∃ y ∈ t.twin.sendq, y.cls = 6 ∧ y.args.take 3 = [k, b, eSeq e]) ∧
        (mayCross v (slotDa x (eSlot e)) (blockSize x) pkg = false →
          ∃ t m, exec (.ownerUpd h k b (.fetch pkg)) s = .next t ∧
            t.outbox.getLast? = some (.wilril 4 0 m h.jobtag [3, 0, eSeq e] [])))) ∧
    (∀ x m w d v, Delivers s h 4 u → serveWaits s = false → u.twin.sendq.find? (fun m => m.cls == x.cls && m.sent) = some m → m.did = some d →
      findWait u d = some w → v = { u with twin := { u.twin with sendq := u.twin.sendq.erase m } } →
      (x.cls = 5 → x.ok = false → exec (.ack h x) s = .next (kept s (after s (refusePair (dropWait v w.did) w.did)))) ∧
      (x.cls = 5 → x.ok = true → m.args.getD 6 0 = 0 → exec (.ack h x) s = .next (kept s (after s (count v oReplCnt)))) ∧
      (x.cls = 5 → x.ok = true → m.args.getD 6 0 ≠ 0 → ∃ t, exec (.ack h x) s = .next t ∧ admAt t w.did = none ∧
        ∀ y ∈ t.twin.waits, y.did ≠ w.did) ∧
      (x.cls = 3 → m.args.headD 0 = 1 → w.blocks = [m.args.getD 2 0] → ∃ t, exec (.ack h x) s = .next t ∧
        admAt t w.did = none ∧ ∀ y ∈ t.twin.waits, y.did ≠ w.did)) ∧
    (∀ k b i n q (p : ReplPart) bs' x e, Delivers s h 5 u → tensorWaits s k = false → blockOf s k b = some (x, e) → bs' = msgBytes h p.bytes →
      (eOwner e ≠ mySlot s → eSlot e ≠ noSlot → p.offset + bs'.length ≤ blockSize x →
        rangeError s (slotDa x (eSlot e) + p.offset) bs'.length = false → paired s = true →
        rangeWaits s (slotDa x (eSlot e) + p.offset) bs'.length true = false →
        ∃ t m, exec (.replMessage h k b q i n p) s = .next t ∧
          t.outbox.getLast? = some (.wilril 4 0 m h.jobtag [5, 1, q] [])) ∧
      (eOwner e = mySlot s ∨ eSlot e = noSlot ∨ blockSize x < p.offset + bs'.length ∨ paired s = false →
        ∃ t m, exec (.replMessage h k b q i n p) s = .next t ∧
          t.outbox.getLast? = some (.wilril 4 0 m h.jobtag [5, 0, eSeq e] []))) ∧
    (∀ k b q p x e, Delivers s h 6 u → tensorWaits s k = false → blockOf s k b = some (x, e) → p.offset < blockSize x →
      (eSlot e ≠ noSlot → s.twin.waits = [] → slotMoving s x k b (eSlot e) = false → rangeError s (slotDa x (eSlot e)) (blockSize x) = false →
        rangeWaits s (slotDa x (eSlot e)) (blockSize x) true = false → ∃ t m, exec (.bulk h k b q p) s = .next t ∧
          t.outbox.getLast? = some (.wilril 4 0 m h.jobtag [6, 1, q] [])) ∧
      (∀ w, s.twin.waits.find? (fun w => w.op == 6 && w.count == 0 && w.tensor == k && w.blocks.headD 0 == b) = some w →
        w.slot ≠ noSlot → slotMoving s x k b w.slot = false → rangeError s (slotDa x w.slot) (blockSize x) = false →
        rangeWaits s (slotDa x w.slot) (blockSize x) true = false → blockSize x ≤ p.offset + (msgBytes h p.bytes).length →
        ∃ t, exec (.bulk h k b q p) s = .next t ∧ admAt t w.did = none ∧ ∀ y ∈ t.twin.waits, y.did ≠ w.did)) ∧
    (∀ im, Delivers s h 7 u → s.sec.recovering = true → s.twin.hasKeys = true → exec (.recovery h im) s
      = .next (after s { u with sec := { u.sec with fwImage := some im } }))

/-- The TWIN descriptors. REGISTER and UNREGISTER change the list of tables, SESSION that of sessions, and a partner is
told; REPL, OWN, HANDOVER and FETCH wait for the partner; TAKEOVER leaves SPLIT for SOLO; QUERY writes the sessions'
records. Rests on R408–R420, R451. Statuses that R416 does not name, and the bodies of messages, are the model's reading
(logs 57 and 76). -/
def Obligations.TwinDescriptors : Prop :=
  ∀ (n : Fin 1024) (s u : State) (x : RDesc) (cores : List Nat), HandsOver s n x u cores → rCls x.d = 9 →
    (∀ da tab k v y, tOp x.d = 1 → da = fld x.d.w1 47 0 → checkTable u da = (.inr (tab, k), v) →
      y = v.twin.tables.foldl (fun s p => touchTable s p.1) v → (tdel k y.twin.tables).length < 256 →
      tableEntries { y with twin := { y.twin with tables := tdel k y.twin.tables } } + tab.nblock ≤ 8388608 →
      (partnerDiffers y k tab = false → ∃ t, exec (.register n) s = .next t ∧
        t.twin.tables = tins k da (tdel k y.twin.tables) ∧ admAt t x.did = none) ∧
      (partnerDiffers y k tab = true → exec (.register n) s = .next (kept s (after s (refusePair y x.did))))) ∧
    (∀ da off v, tOp x.d = 1 → da = fld x.d.w1 47 0 → checkTable u da = (.inl off, v) → exec (.register n) s
      = .next (kept s (after s (complete (event v 6 8 7 0 0 (da + put off 64) (dJobtag x.d)) x.did { status := 2 })))) ∧
    (∀ k, tOp x.d = 2 → k = tTensor x.d → (∀ y ∈ u.twin.sessions, y.tensor ≠ k) → thas u.twin.tables k = true →
      exec (.unregister n) s
        = .next (kept s (after s (complete (retellTables { u with twin := { u.twin with
            tables := tdel k u.twin.tables } }) x.did {})))) ∧
    (∀ i k, tOp x.d = 3 → i = w32 (fld x.d.w1 31 0) → bitOf x.d.w1 32 = false → k = fld x.d.w2 31 0 →
      findSession u i = none → u.twin.sessions.length < 4096 → thas u.twin.tables k = true →
      (u.twin.st = .solo ∨ u.twin.st = .split → exec (.session n) s = .next (kept s (after s (complete { u with twin := { u.twin with
        sessions := u.twin.sessions ++ [{ sid := i, tensor := k }] } } x.did {})))) ∧
      (u.twin.st = .paired → ∃ t, exec (.session n) s = .next t ∧ admAt t x.did = none ∧
        t.twin.sessions = u.twin.sessions ++ [{ sid := i, tensor := k }] ∧
        ∃ m ∈ t.twin.sendq, m.cls = 2 ∧ m.args = [5, i.toNat, k, 0])) ∧
    (∀ i y, tOp x.d = 3 → i = w32 (fld x.d.w1 31 0) → bitOf x.d.w1 32 = true →
      findSession u i = some y →
      (u.twin.st = .solo ∨ u.twin.st = .split → exec (.session n) s = .next (kept s (after s (complete { u with twin := { u.twin with
        sessions := u.twin.sessions.filter (fun y => y.sid != i) } } x.did {})))) ∧
      (u.twin.st = .paired → ∃ t, exec (.session n) s = .next t ∧ admAt t x.did = none ∧
        t.twin.sessions = u.twin.sessions.filter (fun y => y.sid != i) ∧
        ∃ m ∈ t.twin.sendq, m.cls = 2 ∧ m.args = [5, i.toNat, fld x.d.w2 31 0, 1])) ∧
    (∀ tab e se da len v, tOp x.d = 4 → blockOf u (tTensor x.d) (tBlock x.d) = some (tab, e) →
      v = touchBlock u (tTensor x.d) (tBlock x.d) → findSession v (w32 (fld x.d.w3 31 0)) = some se →
      pairWorks v = true → v.twin.sync = false → eOwner e = mySlot v → eState e = 1 → eSlot e ≠ noSlot → se.tensor = tTensor x.d →
      fld x.d.w2 31 0 + len ≤ blockSize tab → len = fld x.d.w2 63 32 → da = slotDa tab (eSlot e) + fld x.d.w2 31 0 →
      mayCross v da len (peerPkg v (tTensor x.d) (tBlock x.d)) = true → rangeError v da len = false →
      anyPoison (readAs v (dJobtag x.d) 0xFFF da len).2.1 = false → ∃ t, exec (.repl n) s = .next t ∧
        (∃ w ∈ t.twin.waits, w.did = x.did ∧ w.op = 4 ∧ w.blocks = [tBlock x.d]) ∧
        ∃ m ∈ t.twin.sendq, m.cls = 5 ∧ m.did = some x.did ∧ m.args.take 2 = [tTensor x.d, tBlock x.d] ∧
          m.args.getD 5 0 = replSeq v (tTensor x.d) (tBlock x.d) e) ∧
    (∀ tab l v, tOp x.d = 5 → tableOf u (tTensor x.d) = some tab → v = touchTable u (tTensor x.d) →
      pairWorks v = true → tBlock x.d + fld x.d.w2 31 0 ≤ tab.nblock →
      l = (List.range (fld x.d.w2 31 0)).map (· + tBlock x.d) → l ≠ [] → tableOf v (tTensor x.d) = some tab →
      (∀ b ∈ l, ownsBlock v (tTensor x.d) b = true) → allCross v tab (tTensor x.d) l = true → ∃ t, exec (.own n) s = .next t ∧
        ∃ w ∈ t.twin.waits, w.did = x.did ∧ w.op = 5 ∧ w.blocks = l) ∧
    (∀ se tab l v, tOp x.d = 7 → findSession u (w32 (fld x.d.w1 31 0)) = some se → tableOf u se.tensor = some tab →
      v = touchEntries u se.tensor → pairWorks v = true → se.ownedHere = true → l = (List.range tab.nblock).filter (fun b =>
        eOwner (getEntry v tab b).1 == mySlot v && eState (getEntry v tab b).1 == 1) →
      tableOf v se.tensor = some tab → (∀ b ∈ l, ownsBlock v se.tensor b = true) → allCross v tab se.tensor l = true →
      (l ≠ [] → ∃ t, exec (.handover n) s = .next t ∧ ∃ w ∈ t.twin.waits, w.did = x.did ∧ w.op = 7 ∧ w.blocks = l) ∧
      (l = [] → ∃ t, exec (.handover n) s = .next t ∧ admAt t x.did = none ∧
        (∀ y ∈ t.twin.sessions, y.sid = se.sid → y.ownedHere = false) ∧
        ∃ m ∈ t.twin.sendq, m.cls = 2 ∧ m.args = [7])) ∧
    (∀ tab e v z, tOp x.d = 6 → blockOf u (tTensor x.d) (tBlock x.d) = some (tab, e) →
      v = touchBlock u (tTensor x.d) (tBlock x.d) → pairWorks v = true → fld x.d.w2 23 0 < tab.nslot →
      eState e = 2 ∨ (eState e = 1 ∧ eOwner e = v.twin.peerSlot) → u.twin.waits = [] →
      z = addWait v { did := x.did, op := 6, tensor := tTensor x.d, blocks := [tBlock x.d], count := 1
                      slot := fld x.d.w2 23 0, jobtag := dJobtag x.d } →
      blockOf z (tTensor x.d) (tBlock x.d) = some (tab, e) → ∃ t, exec (.fetch n) s = .next t ∧
        ∃ w ∈ t.twin.waits, w.did = x.did ∧ w.op = 6 ∧ w.slot = fld x.d.w2 23 0 ∧
          w.count = if eState e = 2 ∨ slotMoving (touchBlock z (tTensor x.d) (tBlock x.d)) tab (tTensor x.d) (tBlock x.d)
              (fld x.d.w2 23 0)
            then 1 else 0) ∧
    (tOp x.d = 8 → u.twin.st = .split → ∃ t, exec (.takeover n) s = .next t ∧ t.twin.st = .solo ∧
      t.twin.takeover = some (u.time, false) ∧ t.twin.waits = [{ did := x.did, op := 8, tensor := 0 }]) ∧
    (∀ held v bs dst, tOp x.d = 9 → held = u.twin.sessions.take (fld x.d.w2 31 0) →
      v = held.foldl (fun s y => touchEntries s y.tensor) u →
      bs = (held.map (queryRec u)).flatten ++ List.replicate 16 0xFF → dst = x.d.w1.toNat →
      (bitOf x.d.w2 32 = true → exec (.query n) s
        = .next (kept s (after s (complete (hostWriteOut v dst bs (relaxedWrite v true)) x.did {})))) ∧
      (bitOf x.d.w2 32 = false → dst < 2 ^ 48 → rangeError v dst bs.length = false →
        rangeSealRefused v none dst bs.length true = false → ∃ t, exec (.query n) s = .next t ∧ admAt t x.did = none ∧
          sameMemory (daWrite v (fun _ => 2) dst bs (List.replicate (bs.length / 32 + 2) false)) t))

/-! ### Security, packages and the log -/

/-- The SPDM requests, on a port that carries messages: what each answers, and what becomes of the connection and its
sessions, whose secrets come from the shares. The order in which a connection is negotiated is the model's (log 23).
Rests on R433, R434. Keys, certificates and the encoding of answers are uninterpreted (log 8). -/
def Obligations.SpdmMessages : Prop :=
  ∀ (s : State) (p : SpdmPort) (b : List Byte) (x : Spdm), x = spdmAt s p → portUp s p = true →
    (∀ v, v = Config.spdmEncode ["1.2"] → ∃ t, exec (.getVersion p b) s = .next t ∧ sameMemory s t ∧
      t.outbox = s.outbox ++ [.spdm p "VERSION" v none] ∧
      spdmAt t p = { x with version := true, caps := false, algs := false, transcript := b ++ v, lastHash := none }) ∧
    (∀ v, x.version = true → v = Config.spdmEncode spdmCapabilities → ∃ t, exec (.getCapabilities p b) s = .next t ∧
      sameMemory s t ∧ t.outbox = s.outbox ++ [.spdm p "CAPABILITIES" v none] ∧
      spdmAt t p = { x with caps := true, transcript := x.transcript ++ b ++ v }) ∧
    (∀ v, x.caps = true → v = Config.spdmEncode spdmAlgorithms → ∃ t, exec (.negotiateAlgorithms p b) s = .next t ∧
      sameMemory s t ∧ t.outbox = s.outbox ++ [.spdm p "ALGORITHMS" v none] ∧
      spdmAt t p = { x with algs := true, transcript := x.transcript ++ b ++ v }) ∧
    (x.algs = true → ∃ t d, exec (.getDigests p b) s = .next t ∧ sameMemory s t ∧
      d = nBytes 48 (Config.sha384 (certChain s)).toNat ∧ t.outbox = s.outbox ++ [.spdm p "DIGESTS" d none] ∧
      spdmAt t p = { x with transcript := x.transcript ++ b ++ d }) ∧
    (∀ off len, x.algs = true → ∃ t c, exec (.getCertificate p 0 off len b) s = .next t ∧ sameMemory s t ∧
      c = ((certChain s).drop off).take len ∧ t.outbox = s.outbox ++ [.spdm p "CERTIFICATE" c none] ∧
      spdmAt t p = { x with transcript := x.transcript ++ b ++ c }) ∧
    (∀ (i : Instr) what payload, (i, what, payload) ∈ [(.challenge p b, "CHALLENGE_AUTH", allMeasurements s),
        (.getMeasurements p 0xFF b, "MEASUREMENTS", allMeasurements s)] → x.algs = true → ∃ t h,
      exec i s = .next t ∧ sameMemory s t ∧ h = Config.sha384 (x.transcript ++ b ++ payload) ∧
      spdmAt t p = { x with transcript := x.transcript ++ b ++ payload, lastHash := some h } ∧
      t.outbox = s.outbox ++ [.spdm p what payload (some (Config.ed25519Sign (aliasKey s) (nBytes 48 h.toNat)))]) ∧
    (∀ k m, x.algs = true → k ≠ 0xFF → measAt s k = some m → ∃ t sig, exec (.getMeasurements p k b) s = .next t ∧
      sameMemory s t ∧ t.outbox = s.outbox ++ [.spdm p "MEASUREMENTS" (nBytes 48 m.toNat) (some sig)]) ∧
    (x.algs = true → x.sessions.length < maxSessions p → ∃ t n sig, exec (.keyExchange p b) s = .next t ∧ sameMemory s t ∧
      (∀ y ∈ x.sessions, y.1 ≠ n) ∧ (spdmAt t p).sessions = x.sessions ++ [(n, false)] ∧
      tget 0 (spdmAt t p).secrets n = Config.hkdf (Config.ecdheShared (drawSecret s).1 (Config.spdmShare b)) [0x20] ∧
      t.outbox = s.outbox ++ [.spdm p "KEY_EXCHANGE_RSP" (nBytes 2 n ++ Config.ecdhePublic (drawSecret s).1) (some sig)]) ∧
    (x.algs = true → maxSessions p ≤ x.sessions.length →
      exec (.keyExchange p b) s = .next (emit s (.spdmError p "SessionLimitExceeded"))) ∧
    (∀ n, x.algs = true → (n, false) ∈ x.sessions → ∃ t, exec (.finish p n b) s = .next t ∧ sameMemory s t ∧
      (spdmAt t p).sessions = x.sessions.map (fun y => if y.1 = n then (n, true) else y) ∧
      t.outbox = s.outbox ++ [.spdm p "FINISH_RSP" [] none]) ∧
    (∀ n, (n, true) ∈ x.sessions → exec (.spdmHeartbeat p n) s = .next (emit s (.spdm p "HEARTBEAT_ACK" [] none))) ∧
    (∀ n, (n, true) ∈ x.sessions → ∃ t, exec (.keyUpdate p n) s = .next t ∧ sameMemory s t ∧
      spdmAt t p = { x with
        keyGen := x.keyGen + 1, secrets := tset 0 n (derive (tget 0 x.secrets n) [0x21]) x.secrets } ∧
      t.outbox = s.outbox ++ [.spdm p "KEY_UPDATE_ACK" [] none]) ∧
    (∀ n, (n, true) ∈ x.sessions → ∃ t, exec (.endSession p n) s = .next t ∧ sameMemory s t ∧
      spdmAt t p = { x with sessions := x.sessions.filter (fun y => y.1 != n), secrets := tset 0 n 0 x.secrets } ∧
      t.outbox = s.outbox ++ [.spdm p "END_SESSION_ACK" [] none]) ∧
    (∀ c, exec (.unsupportedSpdmRequest p c) s = .next (emit s (.spdmError p "UnsupportedRequest"))) ∧
    (∀ h, x.algs = true → x.lastHash = some h → exec (.pqSign p) s = .next (emit s (.spdm p "PQ_SIGN"
      (Config.mldsaSign (aliasPqKey s) (nBytes 48 h.toNat)) none))) ∧
    (∀ off len, x.algs = true → len ≤ 1024 → exec (.pqCert p off len) s
      = .next (emit s (.spdm p "PQ_CERT" (((pqChain s).drop off).take len) none))) ∧
    (∀ v, x.algs = true → v = Config.drbg s.free → ∃ t, exec (.nonce p) s = .next t ∧ sameMemory s t ∧
      t.sec = { s.sec with nonce := some v } ∧ t.outbox = s.outbox ++ [.spdm p "NONCE" (nBytes 32 v.toNat) none])

/-- Tokens and state commands in a session, with no earlier change under way and every package slot EMPTY; a change of
state takes effect with its fuse write; the pairing keys are renewed when that is due; the firmware update is checked,
and its flash is read back or has failed. Rests on R434–R436, R438, R439, R452, R456. A LEVEL 0 token without a
signature, and success at acceptance, are the model's reading (log 60); so is that a GO checks the image whole and
stands in WRITE at once (log 68); that the flash takes the image at the command, or has failed, is its choice (log 67);
signatures are uninterpreted (log 8). -/
def Obligations.SecurityCommands : Prop :=
  ∀ (s : State) (p : SpdmPort) (n : Nat) (c : Signed),
    (portUp s p = true → changePending s = false → s.sec.work = none → (∀ k < 4, (pkgAt s k).st = .empty) →
      ((spdmAt s p).algs = true →
        (c.level = 0 → s.sec.nonce = some c.nonce → c.device = deviceHash → ∃ t, exec (.dbgUnlock p c) s = .next t ∧
          t.sec.debug = .locked ∧ t.sec.nonce = none ∧ sameMemory s t) ∧
        (c.level = 1 → s.otp.state ≠ .decommissioned → ownerSigned s 1 c = true → ∃ t,
          exec (.dbgUnlock p c) s = .next t ∧ t.sec.debug = .customer ∧ t.sec.nonce = none ∧ sameMemory s t) ∧
        (c.level = 2 → s.otp.state ≠ .deployed → joranoSigned s 2 c = true → ∃ t, exec (.dbgUnlock p c) s = .next t ∧
          t.sec.debug = .vendor ∧ t.sec.nonce = none ∧ t.flash.owner = none ∧ sameMemory s t) ∧
        (c.level = 2 → s.otp.state = .deployed →
          exec (.dbgUnlock p c) s = .next (emit s (.spdmError p "InvalidRequest")))) ∧
      (inSession s p n = true →
        (∀ o b, s.otp.state = .provisioning → s.sec.debug ≠ .vendor → ∃ t, exec (.installOwner p n o b) s = .next t ∧
          t.flash = { s.flash with owner := some o, ideReq := b } ∧ t.sec.fuse = none ∧ sameMemory s t) ∧
        (s.otp.state = .provisioning → s.sec.debug ≠ .vendor → ownerSigned s 0x11 c = true → ∃ t,
          exec (.deploy p n c) s = .next t ∧ t.sec.fuse = some { state := .deployed, reprov := false } ∧
          t.sec.nonce = none ∧ t.flash = s.flash ∧ t.otp = s.otp ∧ sameMemory s t) ∧
        (s.otp.state ≠ .decommissioned →
          (s.otp.state = .provisioning ∧ s.flash.owner = none) ∨ ownerSigned s 0x12 c = true → ∃ t,
          exec (.decommission p n c) s = .next t ∧ t.sec.fuse = some { state := .decommissioned, reprov := false } ∧
          t.flash.owner = none ∧ t.sec.debug ≠ .customer ∧ t.otp = s.otp ∧ sameMemory s t) ∧
        (s.otp.state = .decommissioned → s.otp.reprov < 3 → joranoSigned s 0x13 c = true → ∃ t,
          exec (.reprovision p n c) s = .next t ∧ t.sec.fuse = some { state := .provisioning, reprov := true } ∧
          t.sec.nonce = none ∧ t.otp = s.otp ∧ sameMemory s t))) ∧
    (∀ f o, s.sec.fuse = some f → fuseRow s.otp f = some o → ∃ t, exec .fuseWriteComplete s = .next t ∧
      t.otp = o ∧ t.sec.fuse = none ∧ sameMemory s t) ∧
    (∀ key, s.twin.keys = some key →
      (keyUpdateDue s = true → exec .pairingKeyUpdate s = .next { s with twin := { s.twin with
        keys := some { tx := nextKey key.tx, rx := nextKey key.rx }, keySince := s.time, keyMsgs := 0
        keyGen := s.twin.keyGen + 1 } }) ∧
      (keyUpdateDue s = false → exec .pairingKeyUpdate s = .next s)) ∧
    (s.sec.fwState ≠ 1 → s.sec.fwState ≠ 2 → core3Waits s = true →
      exec .fwGo s = .next { s with sec := { s.sec with fwHeld := true } }) ∧
    (∀ off len, s.sec.fwState ≠ 1 → s.sec.fwState ≠ 2 → core3Waits s = false → off = regFld s oFwSrc 25 0 →
      len = regFld s oFwLen 24 0 →
      (off % 64 ≠ 0 ∨ len = 0 ∨ 24 * 2 ^ 20 < len ∨ windowSize < off + len → exec .fwGo s
        = .next { s with sec := { s.sec with fwState := 4, fwErr := 5 } }) ∧
      (∀ r u, off % 64 = 0 → 0 < len → len ≤ 24 * 2 ^ 20 → off + len ≤ windowSize →
        linkCarries s = true ∨ (∀ l ∈ linesOf off len, lineSnoops s l false = false) → (r, u) = windowRead s off len →
        (Config.fwFormatOk (Config.fwBody r) = true → s.otp.svn ≤ Config.fwSvn (Config.fwBody r) →
          imageSigned { bytes := Config.fwBody r, edSig := Config.fwEdSig r, mlSig := Config.fwMlSig r } = true →
          exec .fwGo s = .next (kept s { u with sec := { s.sec with
            fwState := 2, fwErr := 0, fwImage := some { bytes := Config.fwBody r, edSig := Config.fwEdSig r
                                                        mlSig := Config.fwMlSig r } } })) ∧
        (Config.fwFormatOk (Config.fwBody r) = false →
          exec .fwGo s = .next (kept s { u with sec := { s.sec with fwState := 4, fwErr := 1 } })))) ∧
    (∀ im d, s.sec.fwState = 2 → s.sec.fwImage = some im → s.sec.fwHeld = false → core3Waits s = false → d = draw s →
      ∃ t, exec .fwUpdateDone s = .next t ∧ sameMemory s t ∧ t.sec.fwImage = none ∧
        (bitOf d.1 0 = true → t.flash = { s.flash with image := im, imageValid := true } ∧ t.sec.fwState = 3 ∧
          t.sec.fwErr = 0) ∧
        (bitOf d.1 0 = false → t.flash = { s.flash with imageValid := false } ∧ t.sec.fwState = 4 ∧ t.sec.fwErr = 4)) ∧
    (s.otp.svn ≤ 64 → exec .svnCommit s
      = .next { s with otp := { s.otp with svn := min 64 (max s.otp.svn s.flash.imageSvn) } })

/-- A load fails at its first failed check, before it changes anything but its slot's state, or begins; its sections are
written and the slot becomes LOADED, or the slot is emptied after the first that fails, or when the source fails; an
unload stops the slot's cores and empties the slot; a command during either is ignored. Rests on R442–R444, R458. A LOAD
to a LOADED slot and an UNLOAD of an EMPTY one are the model's reading (log 61). -/
def Obligations.Packages : Prop :=
  ∀ (s : State) (v : W32) (k : Fin 4) (pk : Pkg), k = cmdSlot v → pk = pkgAt s k.val →
    (pkgBusy s = true → ∀ i : Instr, i ∈ [.pkgLoad v, .pkgUnload v, .pkgCmdReserved v] → ∃ t, exec i s = .next t ∧
      t.sec = s.sec ∧ regBit t oSecStatus 8 = true ∧ sameMemory s t) ∧
    (pkgBusy s = false →
      exec (.pkgCmdReserved v) s = .next s ∧
      (pk.st = .empty → exec (.pkgUnload v) s = .next s) ∧
      (pk.st ≠ .empty → ∃ t, exec (.pkgUnload v) s = .next t ∧ pkgAt t k.val = { pk with st := .unloading } ∧
        t.sec.work = some { slot := k, loading := false, tag := regGet s oPkgTag, failErr := 0 } ∧ sameMemory s t ∧
        ∀ n ∈ slotCores s k, (coreAt t n).st ≠ .running) ∧
      (pk.st ≠ .empty → pk.st ≠ .failed → ∃ t, exec (.pkgLoad v) s = .next t ∧ (pkgAt t k.val).st = .failed ∧
        (pkgAt t k.val).err = 9 ∧ sameMemory s t) ∧
      (pk.st = .empty ∨ pk.st = .failed → s.flash.owner = none → ∃ t, exec (.pkgLoad v) s = .next t ∧
        pkgAt t k.val = { pk with st := .failed, err := 3 } ∧ sameMemory s t) ∧
      (pk.st = .empty ∨ pk.st = .failed → s.otp.state ≠ .decommissioned → s.flash.owner ≠ none →
        s.sec.debug ≠ .vendor → bitOf v 8 = true →
        (linkCarries s = false → ∃ t, exec (.pkgLoad v) s = .next t ∧
          pkgAt t k.val = { pk with st := .failed, err := 8 } ∧ sameMemory s t) ∧
        (linkCarries s = true → ∃ t, exec (.pkgLoad v) s = .next t ∧ pkgAt t k.val = { pk with st := .loading, err := 0 } ∧
          t.link.reads.find? (fun p => p.1 == s.link.nextTag) = some (s.link.nextTag, .package) ∧ pkgBusy t = true ∧ sameMemory s t)) ∧
      (∀ key b, pk.st = .empty ∨ pk.st = .failed → s.otp.state ≠ .decommissioned → s.flash.owner ≠ none →
        s.sec.debug ≠ .vendor → bitOf v 8 = false → rangeError s (pkgSrc s) (pkgLen s) = false → rangeWaits s (pkgSrc s) (pkgLen s) = false →
        pkgSrc s < 2 ^ 48 → rangeSealRefused s none (pkgSrc s) (pkgLen s) false = false →
        anyPoison (daRead s (pkgSrc s) (pkgLen s)).2.1 = false → b = (daRead s (pkgSrc s) (pkgLen s)).1 →
        checkPackage (daRead s (pkgSrc s) (pkgLen s)).2.2 k b (pkgLen s) = .inr key → ∃ t, exec (.pkgLoad v) s = .next t ∧
          (pkgAt t k.val).st = .loading ∧ (pkgAt t k.val).err = 0 ∧ (pkgAt t k.val).id = w32 (mId (pManifest b)) ∧
          (pkgAt t k.val).key = some key ∧ pkgBusy t = true) ∧
      (pk.st = .empty ∨ pk.st = .failed → s.otp.state ≠ .decommissioned → s.flash.owner ≠ none →
        s.sec.debug ≠ .vendor → bitOf v 8 = false → rangeError s (pkgSrc s) (pkgLen s) = false →
        rangePaused s (pkgSrc s) (pkgLen s) = false → rangeWaits s (pkgSrc s) (pkgLen s) = true → pkgSrc s < 2 ^ 48 →
        rangeSealRefused s none (pkgSrc s) (pkgLen s) false = false → ∃ t, exec (.pkgLoad v) s = .next t ∧
          pkgAt t k.val = { pk with st := .loading, err := 0 } ∧ pkgBusy t = true ∧ sameMemory s t)) ∧
    (∀ w b key src, s.sec.work = some w → w.slot = k → w.loading = true → w.bytes = some b → pk.key = some key →
      w.failErr ≠ 0 ∨ w.fromHost = true ∨ rangeWaits s (pkgSrc s) b.length = false → s.sec.unloads = [] → s.sec.after = none →
      src = sectionSource s w →
      (w.failErr ≠ 0 → src.1 = none) ∧
      (src.1 = none → ∃ t, exec .pkgLoadComplete s = .next t ∧ (pkgAt t k.val).st = .unloading ∧
        t.sec.work = some { slot := k, loading := false, tag := w.tag, failErr := 8 }) ∧
      (∀ c u ok, src.1 = some c → loadWaits src.2 w key c = false →
        writeSections src.2 w key c (sections (pManifest c)) = (u, ok) →
        (ok = true → entriesLocked u k = true → ∃ t, exec .pkgLoadComplete s = .next t ∧ (pkgAt t k.val).st = .loaded ∧
          pkgBusy t = false ∧ (pkgAt t k.val).meas = some (Config.sha384 (c.take 64 ++ pManifest c)) ∧
          t.dram = u.dram ∧ t.scratch = u.scratch) ∧
        (ok = false ∨ entriesLocked u k = false → ∃ t, exec .pkgLoadComplete s = .next t ∧
          (pkgAt t k.val).st = .unloading ∧ t.sec.work = some { slot := k, loading := false, tag := w.tag, failErr := 7 }))) ∧
    (∀ w, s.sec.work = some w → w.slot = k → w.loading = false → w.failErr = 0 → unloadWaits s k = false →
      s.sec.unloads = [] → s.sec.after = none → (∀ o ∈ pk.locked, 0x502000 ≤ o ∧ o < 0x538000) → ∃ t,
        exec .pkgUnloadComplete s = .next t ∧ pkgAt t k.val = {} ∧ pkgBusy t = false ∧
        (∀ n ∈ slotCores s k, coreAt t n = {}) ∧ ∀ o ∈ pk.locked, regGet t o = 0)

/-- The oldest record enters the ring and its class is pending, and one that waited for a place takes it; a coalesced
run ends in one record; an alarm that waited for its gap goes out; clears; the latch of the time; and the trace's oldest
record goes to memory. Rests on R495, R498–R503. When the trace may write, and the index of its ring, are the model's
reading (log 42). -/
def Obligations.LogAndTrace : Prop :=
  ∀ (s : State),
    (∀ b r rest, s.log.ingress = (b, r) :: rest → r.cls < 8 → s.log.waiting = [] → s.log.dropped = false → ∃ t,
      exec .logRecordWrite s = .next t ∧ t.log.wptr = (s.log.wptr + 1) % 32768 ∧ t.log.ingress = rest ∧
      tget {} t.log.ring s.log.wptr = { r with lseq := regGet s oLogLseq + 1 } ∧ regBit t oLogPend r.cls = true ∧
      (r.cls = 4 → regBit t oLogStatus 16 = true) ∧ sameMemory s t) ∧
    (∀ r rest w, s.log.ingress = (false, r) :: rest → s.log.waiting = [(w, none)] → s.log.dropped = false →
      generalFill { s.log with ingress := rest } < 256 → ∃ t, exec .logRecordWrite s = .next t ∧ t.log.waiting = [] ∧
        t.log.ingress = rest ++ [(false, w)] ∧ sameMemory s t) ∧
    (∀ n e, s.log.coal[n]? = some e → e.count = 0 →
      exec (.coalesceWindowEnd n) s = .next { s with log := { s.log with coal := s.log.coal.eraseIdx n } }) ∧
    (∀ n e, s.log.coal[n]? = some e → e.count ≠ 0 → generalFill s.log < 256 → ∃ t span,
      exec (.coalesceWindowEnd n) s = .next t ∧ sameMemory s t ∧ t.log = { s.log with
        coal := s.log.coal.eraseIdx n
        ingress := s.log.ingress ++ [(false, { e.last with coalesced := true, count := e.count, span := span })] }) ∧
    (∀ c : Fin 8, c.val ∈ s.log.due → regBit s oLogPend c = true → ∃ t, exec (.alarmGapEnd c) s = .next t ∧
      c.val ∉ t.log.due ∧ tget 0 t.log.lastAlarm c.val = s.time + 1 ∧ sameMemory s t) ∧
    (∀ c : Fin 8, c.val ∈ s.log.due → regBit s oLogPend c = false → exec (.alarmGapEnd c) s
      = .next { s with log := { s.log with due := s.log.due.filter (· != c.val) } }) ∧
    exec .clearPerf s = .next { s with regs := s.regs.filter (fun p => (regDef p.1).cnt != some .perf) } ∧
    (∃ t, exec .clearErr s = .next t ∧ t.regs = s.regs.filter (fun p => (regDef p.1).cnt != some .err) ∧
      (∀ n < 4, (ctlAt t n).restarts = 0 ∧ (ctlAt t n).st = (ctlAt s n).st) ∧ sameMemory s t) ∧
    exec .faultClear s = .next (if faultPersists s then s else regClrBit s oLogStatus 16) ∧
    exec .logTimeRead s = .next { s with log := { s.log with timeHi := w32 (fld s.time 63 32) } } ∧
    (∀ r rest i da, s.trace = r :: rest → regBit s oTraceCtl 0 = true → i = (regGet s oTraceWptr).toNat % traceLen s →
      da = (traceBase s + 32 * i) % 2 ^ 48 → daKind s da ≠ .dram ∨ regGet s oCfgEpoch ≠ 0 → rangeWaits s da 32 true = false → rangeError s da 32 = false →
      (regBit s oTraceCtl 1 && regBit s oTraceStatus 0) = false → rangeSealRefused s none da 32 true = false → ∃ t,
      exec .traceRecordWrite s = .next t ∧ t.trace = rest ∧ regGet t oTraceWptr = regGet s oTraceWptr + 1 ∧
      sameMemory (daWrite s (fun _ => 2) da (leBytes 32 r.word.toNat) [false]) t)

/-! ### The module as a whole -/

/-- The command at the front of the queue runs on the rest of the queue. With an empty queue the module idles, and the
timestamp counts on (R488); that an idle step is one cycle of the management clock is the model's choice (log 3). -/
def Obligations.StepRunsFront : Prop :=
  (∀ (c : Instr) (s : State), step { s with pending := c :: s.pending } = exec c s) ∧
  (∀ s : State, s.pending = [] → step s = .next { s with time := s.time + 10 })

/-- The state after reset meets the invariant. It rests on the full-grade fuses (log 1) and on REPROV, SVN and the
security state (log 2) that the model chose for reset. -/
def Obligations.ResetInv : Prop := State.reset.inv = true

/-- From any state in which the waiting commands are well formed, the fuses of manufacture are those of a grade (80
present cores in every row, or all of them), REPROV is at most 3 and the SVN fuse at most 64, a step ends in such a
state. Every command completes, in every state: it ends in a next state, in which the queue is what stood behind it. The
security state and REPROV change only along the rows of the state table (R435), and then through a fuse write alone; the
SVN fuse never falls. Rests on R3, R435, R456. That every command completes in every state (log 18) and leaves the queue
as it was (log 11) are the model's choices. -/
def Obligations.StepInv : Prop :=
  (∀ s t : State, s.inv = true → step s = .next t → t.inv = true) ∧
  (∀ (c : Instr) (s : State), ∃ t : State, exec c s = .next t ∧ t.pending = s.pending ∧
    otpChange s.otp t.otp ∧ s.otp.svn ≤ t.otp.svn ∧
    (c ≠ .fuseWriteComplete → t.otp.state = s.otp.state ∧ t.otp.reprov = s.otp.reprov))

/-- R2: no command, a firmware update, a debug token and a fuse write among them, changes the grade or the set of
present cores. -/
def Obligations.FusesFixed : Prop :=
  ∀ (c : Instr) (s t : State), exec c s = .next t → t.fuses = s.fuses
end

