-- ==== Sys2Proof/Laws/Table.lean ====
section
/-! SUPPORT. Laws of the sparse tables and of byte memory. -/

namespace Sys2Proof.Machine

open Sys2Proof

variable {α : Type}

theorem tget_tins_same (d : α) (k : Nat) (v : α) (t : Table α) (h : ∀ p ∈ t, p.1 ≠ k) : tget d (tins k v t) k = v := by
  induction t with
  | nil => simp [tins, tget]
  | cons p r ih =>
    simp only [tins]
    split
    · simp [tget]
    · have := h p (by simp)
      simp [tget, this, ih (fun q hq => h q (by simp [hq]))]

theorem tget_tins_ne (d : α) (k j : Nat) (v : α) (t : Table α) (h : j ≠ k) : tget d (tins k v t) j = tget d t j := by
  induction t with
  | nil => simp [tins, tget, Ne.symm h]
  | cons p r ih =>
    simp only [tins]
    split
    · simp [tget, Ne.symm h]
    · simp [tget, ih]

theorem tget_tdel_same (d : α) (k : Nat) (t : Table α) : tget d (tdel k t) k = d := by
  induction t with
  | nil => rfl
  | cons p r ih =>
    simp only [tdel, List.filter_cons]
    split
    · rename_i h
      simp only [bne_iff_ne] at h
      have h' : tget d (List.filter (fun q => q.1 != k) r) k = d := ih
      simp [tget, h, h']
    · exact ih

theorem tget_tdel_ne (d : α) (k j : Nat) (t : Table α) (h : j ≠ k) : tget d (tdel k t) j = tget d t j := by
  induction t with
  | nil => rfl
  | cons p r ih =>
    simp only [tdel, List.filter_cons]
    split
    · have h' : tget d (List.filter (fun q => q.1 != k) r) j = tget d r j := ih
      simp [tget, h']
    · rename_i hk
      have hk' : p.1 = k := by simpa using hk
      have h' : tget d (List.filter (fun q => q.1 != k) r) j = tget d r j := ih
      have hj : ¬ p.1 = j := by rw [hk']; exact Ne.symm h
      simp only [tget, hj, if_false, h']

/-- What was set is read. -/
@[simp] theorem tget_tset_same [DecidableEq α] (d : α) (k : Nat) (v : α) (t : Table α) : tget d (tset d k v t) k = v := by
  unfold tset
  split
  · rename_i h; rw [tget_tdel_same, h]
  · exact tget_tins_same d k v _ (fun p hp => by
      have := (List.mem_filter.mp hp).2
      simpa using this)

/-- Every other number holds what it held. -/
@[simp] theorem tget_tset_ne [DecidableEq α] (d e : α) (k j : Nat) (v : α) (t : Table α) (h : j ≠ k) :
    tget e (tset d k v t) j = tget e t j := by
  unfold tset
  split
  · exact tget_tdel_ne e k j t h
  · rw [tget_tins_ne e k j v _ h, tget_tdel_ne e k j t h]

/-! ### The canonical form of memory -/

theorem sorted_iff (t : Table α) : Table.sorted t = true ↔ t.Pairwise (fun p q => p.1 < q.1) := by
  induction t with
  | nil => simp [Table.sorted]
  | cons p r ih =>
    cases r with
    | nil => simp [Table.sorted]
    | cons q r' =>
      simp only [Table.sorted, Bool.and_eq_true, decide_eq_true_eq, ih]
      constructor
      · rintro ⟨h, hr⟩
        refine List.pairwise_cons.mpr ⟨fun x hx => ?_, hr⟩
        rcases List.mem_cons.mp hx with rfl | hx
        · exact h
        · exact Nat.lt_trans h ((List.pairwise_cons.mp hr).1 x hx)
      · intro h
        exact ⟨(List.pairwise_cons.mp h).1 q (by simp), (List.pairwise_cons.mp h).2⟩

theorem mem_tins {k : Nat} {v : α} {t : Table α} {p : Nat × α} (h : p ∈ tins k v t) : p = (k, v) ∨ p ∈ t := by
  induction t with
  | nil => simpa [tins] using h
  | cons q r ih =>
    simp only [tins] at h
    split at h
    · simpa using h
    · rcases List.mem_cons.mp h with rfl | h
      · simp
      · rcases ih h with h | h <;> simp [h]

theorem pairwise_tins {k : Nat} {v : α} {t : Table α} (hs : t.Pairwise (fun p q => p.1 < q.1)) (h : ∀ p ∈ t, p.1 ≠ k) :
    (tins k v t).Pairwise (fun p q => p.1 < q.1) := by
  induction t with
  | nil => simp [tins]
  | cons q r ih =>
    simp only [tins]
    have hq := List.pairwise_cons.mp hs
    split
    · rename_i hk
      refine List.pairwise_cons.mpr ⟨fun x hx => ?_, hs⟩
      rcases List.mem_cons.mp hx with rfl | hx
      · exact hk
      · exact Nat.lt_trans hk (hq.1 x hx)
    · rename_i hk
      refine List.pairwise_cons.mpr ⟨fun x hx => ?_, ih hq.2 (fun p hp => h p (by simp [hp]))⟩
      rcases mem_tins hx with rfl | hx
      · have := h q (by simp)
        simp only; omega
      · exact hq.1 x hx

/-- A table stays in strictly rising order. -/
theorem sorted_tset [DecidableEq α] (d : α) (k : Nat) (v : α) (t : Table α) (h : Table.sorted t = true) :
    Table.sorted (tset d k v t) = true := by
  rw [sorted_iff] at h ⊢
  have hf : (tdel k t).Pairwise (fun p q => p.1 < q.1) := List.Pairwise.filter _ h
  unfold tset
  split
  · exact hf
  · exact pairwise_tins hf (fun p hp => by simpa using (List.mem_filter.mp hp).2)

/-- Setting a byte keeps the canonical form. -/
theorem memWf_mset (m : Memory) (a : Nat) (b : Byte) (h : memWf m = true) : memWf (mset m a b) = true := by
  simp only [memWf, Bool.and_eq_true, List.all_eq_true] at h ⊢
  refine ⟨sorted_tset 0 a b m h.1, fun p hp => ?_⟩
  unfold mset tset at hp
  split at hp
  · exact h.2 p (List.mem_filter.mp hp).1
  · rename_i hb
    rcases mem_tins hp with rfl | hp
    · simpa using hb
    · exact h.2 p (List.mem_filter.mp hp).1

/-- Writing bytes keeps the canonical form. -/
theorem memWf_mwrite (bs : List Byte) (m : Memory) (a : Nat) (h : memWf m = true) : memWf (mwrite m a bs) = true := by
  induction bs generalizing m a with
  | nil => exact h
  | cons b bs ih => exact ih _ _ (memWf_mset m a b h)

@[simp] theorem mget_mset_same (m : Memory) (a : Nat) (b : Byte) : mget (mset m a b) a = b := tget_tset_same 0 a b m

@[simp] theorem mget_mset_ne (m : Memory) (a x : Nat) (b : Byte) (h : x ≠ a) : mget (mset m a b) x = mget m x :=
  tget_tset_ne 0 0 a x b m h

/-- A write of bytes leaves every address outside them alone. -/
theorem mget_mwrite_ne (bs : List Byte) (m : Memory) (a x : Nat) (h : x < a ∨ a + bs.length ≤ x) :
    mget (mwrite m a bs) x = mget m x := by
  induction bs generalizing m a with
  | nil => rfl
  | cons b bs ih =>
    simp only [List.length_cons] at h
    show mget (mwrite (mset m a b) (a + 1) bs) x = mget m x
    rw [ih _ _ (by omega), mget_mset_ne _ _ _ _ (by omega)]

end Sys2Proof.Machine
end

