-- ==== Sys2Proof/Laws/State.lean ====
section
/-! SUPPORT. What each setter of Machine/Ops.lean leaves alone, and what reading a unit after setting one gives. -/

namespace Sys2Proof.Machine

open Sys2Proof

variable (s : State)

@[simp] theorem setStack_frame (k : Nat) (x : Stack) :
    (setStack s k x).pending = s.pending ∧ (setStack s k x).time = s.time ∧ (setStack s k x).free = s.free ∧
    (setStack s k x).fuses = s.fuses ∧ (setStack s k x).otp = s.otp ∧ (setStack s k x).pins = s.pins ∧
    (setStack s k x).flash = s.flash ∧ (setStack s k x).power = s.power ∧ (setStack s k x).sensors = s.sensors ∧
    (setStack s k x).regs = s.regs ∧ (setStack s k x).effect = s.effect ∧ (setStack s k x).phase = s.phase ∧
    (setStack s k x).lastReset = s.lastReset ∧ (setStack s k x).bootDone = s.bootDone ∧
    (setStack s k x).resetHeld = s.resetHeld ∧ (setStack s k x).ctl = s.ctl ∧ (setStack s k x).log = s.log ∧
    (setStack s k x).cause = s.cause ∧ (setStack s k x).trace = s.trace ∧ (setStack s k x).dram = s.dram ∧
    (setStack s k x).dramErr = s.dramErr ∧ (setStack s k x).poison = s.poison ∧
    (setStack s k x).scratch = s.scratch ∧ (setStack s k x).scratchPoison = s.scratchPoison ∧
    (setStack s k x).window = s.window ∧ (setStack s k x).chans = s.chans ∧ (setStack s k x).querns = s.querns ∧
    (setStack s k x).jobs = s.jobs ∧ (setStack s k x).nextId = s.nextId ∧ (setStack s k x).groups = s.groups ∧
    (setStack s k x).pk1 = s.pk1 ∧ (setStack s k x).cores = s.cores ∧ (setStack s k x).coreOps = s.coreOps ∧
    (setStack s k x).launches = s.launches ∧ (setStack s k x).stops = s.stops ∧ (setStack s k x).dmas = s.dmas ∧
    (setStack s k x).sluices = s.sluices ∧ (setStack s k x).rings = s.rings ∧
    (setStack s k x).admitted = s.admitted ∧ (setStack s k x).msix = s.msix ∧
    (setStack s k x).frontStopped = s.frontStopped ∧ (setStack s k x).turns = s.turns ∧
    (setStack s k x).cfgQueue = s.cfgQueue ∧ (setStack s k x).commit = s.commit ∧
    (setStack s k x).ctlHeld = s.ctlHeld ∧ (setStack s k x).link = s.link ∧ (setStack s k x).twin = s.twin ∧
    (setStack s k x).sec = s.sec ∧ (setStack s k x).outbox = s.outbox :=
  ⟨rfl, rfl, rfl, rfl, rfl, rfl, rfl, rfl, rfl, rfl, rfl, rfl, rfl, rfl, rfl, rfl, rfl, rfl, rfl, rfl, rfl, rfl, rfl,
    rfl, rfl, rfl, rfl, rfl, rfl, rfl, rfl, rfl, rfl, rfl, rfl, rfl, rfl, rfl, rfl, rfl, rfl, rfl, rfl, rfl, rfl,
    rfl, rfl, rfl, rfl⟩

@[simp] theorem setChan_frame (k c : Nat) (x : Chan) :
    (setChan s k c x).pending = s.pending ∧ (setChan s k c x).time = s.time ∧ (setChan s k c x).free = s.free ∧
    (setChan s k c x).fuses = s.fuses ∧ (setChan s k c x).otp = s.otp ∧ (setChan s k c x).pins = s.pins ∧
    (setChan s k c x).flash = s.flash ∧ (setChan s k c x).power = s.power ∧ (setChan s k c x).sensors = s.sensors ∧
    (setChan s k c x).regs = s.regs ∧ (setChan s k c x).effect = s.effect ∧ (setChan s k c x).phase = s.phase ∧
    (setChan s k c x).lastReset = s.lastReset ∧ (setChan s k c x).bootDone = s.bootDone ∧
    (setChan s k c x).resetHeld = s.resetHeld ∧ (setChan s k c x).ctl = s.ctl ∧ (setChan s k c x).log = s.log ∧
    (setChan s k c x).cause = s.cause ∧ (setChan s k c x).trace = s.trace ∧ (setChan s k c x).dram = s.dram ∧
    (setChan s k c x).dramErr = s.dramErr ∧ (setChan s k c x).poison = s.poison ∧
    (setChan s k c x).scratch = s.scratch ∧ (setChan s k c x).scratchPoison = s.scratchPoison ∧
    (setChan s k c x).window = s.window ∧ (setChan s k c x).stks = s.stks ∧ (setChan s k c x).querns = s.querns ∧
    (setChan s k c x).jobs = s.jobs ∧ (setChan s k c x).nextId = s.nextId ∧ (setChan s k c x).groups = s.groups ∧
    (setChan s k c x).pk1 = s.pk1 ∧ (setChan s k c x).cores = s.cores ∧ (setChan s k c x).coreOps = s.coreOps ∧
    (setChan s k c x).launches = s.launches ∧ (setChan s k c x).stops = s.stops ∧ (setChan s k c x).dmas = s.dmas ∧
    (setChan s k c x).sluices = s.sluices ∧ (setChan s k c x).rings = s.rings ∧
    (setChan s k c x).admitted = s.admitted ∧ (setChan s k c x).msix = s.msix ∧
    (setChan s k c x).frontStopped = s.frontStopped ∧ (setChan s k c x).turns = s.turns ∧
    (setChan s k c x).cfgQueue = s.cfgQueue ∧ (setChan s k c x).commit = s.commit ∧
    (setChan s k c x).ctlHeld = s.ctlHeld ∧ (setChan s k c x).link = s.link ∧ (setChan s k c x).twin = s.twin ∧
    (setChan s k c x).sec = s.sec ∧ (setChan s k c x).outbox = s.outbox :=
  ⟨rfl, rfl, rfl, rfl, rfl, rfl, rfl, rfl, rfl, rfl, rfl, rfl, rfl, rfl, rfl, rfl, rfl, rfl, rfl, rfl, rfl, rfl, rfl,
    rfl, rfl, rfl, rfl, rfl, rfl, rfl, rfl, rfl, rfl, rfl, rfl, rfl, rfl, rfl, rfl, rfl, rfl, rfl, rfl, rfl, rfl,
    rfl, rfl, rfl, rfl⟩

@[simp] theorem setQuern_frame (k c b : Nat) (x : Quern) :
    (setQuern s k c b x).pending = s.pending ∧ (setQuern s k c b x).time = s.time ∧
    (setQuern s k c b x).free = s.free ∧ (setQuern s k c b x).fuses = s.fuses ∧ (setQuern s k c b x).otp = s.otp ∧
    (setQuern s k c b x).pins = s.pins ∧ (setQuern s k c b x).flash = s.flash ∧
    (setQuern s k c b x).power = s.power ∧ (setQuern s k c b x).sensors = s.sensors ∧
    (setQuern s k c b x).regs = s.regs ∧ (setQuern s k c b x).effect = s.effect ∧
    (setQuern s k c b x).phase = s.phase ∧ (setQuern s k c b x).lastReset = s.lastReset ∧
    (setQuern s k c b x).bootDone = s.bootDone ∧ (setQuern s k c b x).resetHeld = s.resetHeld ∧
    (setQuern s k c b x).ctl = s.ctl ∧ (setQuern s k c b x).log = s.log ∧ (setQuern s k c b x).cause = s.cause ∧
    (setQuern s k c b x).trace = s.trace ∧ (setQuern s k c b x).dram = s.dram ∧
    (setQuern s k c b x).dramErr = s.dramErr ∧ (setQuern s k c b x).poison = s.poison ∧
    (setQuern s k c b x).scratch = s.scratch ∧ (setQuern s k c b x).scratchPoison = s.scratchPoison ∧
    (setQuern s k c b x).window = s.window ∧ (setQuern s k c b x).stks = s.stks ∧
    (setQuern s k c b x).chans = s.chans ∧ (setQuern s k c b x).jobs = s.jobs ∧
    (setQuern s k c b x).nextId = s.nextId ∧ (setQuern s k c b x).groups = s.groups ∧
    (setQuern s k c b x).pk1 = s.pk1 ∧ (setQuern s k c b x).cores = s.cores ∧
    (setQuern s k c b x).coreOps = s.coreOps ∧ (setQuern s k c b x).launches = s.launches ∧
    (setQuern s k c b x).stops = s.stops ∧ (setQuern s k c b x).dmas = s.dmas ∧
    (setQuern s k c b x).sluices = s.sluices ∧ (setQuern s k c b x).rings = s.rings ∧
    (setQuern s k c b x).admitted = s.admitted ∧ (setQuern s k c b x).msix = s.msix ∧
    (setQuern s k c b x).frontStopped = s.frontStopped ∧ (setQuern s k c b x).turns = s.turns ∧
    (setQuern s k c b x).cfgQueue = s.cfgQueue ∧ (setQuern s k c b x).commit = s.commit ∧
    (setQuern s k c b x).ctlHeld = s.ctlHeld ∧ (setQuern s k c b x).link = s.link ∧
    (setQuern s k c b x).twin = s.twin ∧ (setQuern s k c b x).sec = s.sec ∧ (setQuern s k c b x).outbox = s.outbox :=
  ⟨rfl, rfl, rfl, rfl, rfl, rfl, rfl, rfl, rfl, rfl, rfl, rfl, rfl, rfl, rfl, rfl, rfl, rfl, rfl, rfl, rfl, rfl, rfl,
    rfl, rfl, rfl, rfl, rfl, rfl, rfl, rfl, rfl, rfl, rfl, rfl, rfl, rfl, rfl, rfl, rfl, rfl, rfl, rfl, rfl, rfl,
    rfl, rfl, rfl, rfl⟩

@[simp] theorem setCore_frame (n : Nat) (x : Core) :
    (setCore s n x).pending = s.pending ∧ (setCore s n x).time = s.time ∧ (setCore s n x).free = s.free ∧
    (setCore s n x).fuses = s.fuses ∧ (setCore s n x).otp = s.otp ∧ (setCore s n x).pins = s.pins ∧
    (setCore s n x).flash = s.flash ∧ (setCore s n x).power = s.power ∧ (setCore s n x).sensors = s.sensors ∧
    (setCore s n x).regs = s.regs ∧ (setCore s n x).effect = s.effect ∧ (setCore s n x).phase = s.phase ∧
    (setCore s n x).lastReset = s.lastReset ∧ (setCore s n x).bootDone = s.bootDone ∧
    (setCore s n x).resetHeld = s.resetHeld ∧ (setCore s n x).ctl = s.ctl ∧ (setCore s n x).log = s.log ∧
    (setCore s n x).cause = s.cause ∧ (setCore s n x).trace = s.trace ∧ (setCore s n x).dram = s.dram ∧
    (setCore s n x).dramErr = s.dramErr ∧ (setCore s n x).poison = s.poison ∧ (setCore s n x).scratch = s.scratch ∧
    (setCore s n x).scratchPoison = s.scratchPoison ∧ (setCore s n x).window = s.window ∧
    (setCore s n x).stks = s.stks ∧ (setCore s n x).chans = s.chans ∧ (setCore s n x).querns = s.querns ∧
    (setCore s n x).jobs = s.jobs ∧ (setCore s n x).nextId = s.nextId ∧ (setCore s n x).groups = s.groups ∧
    (setCore s n x).pk1 = s.pk1 ∧ (setCore s n x).coreOps = s.coreOps ∧ (setCore s n x).launches = s.launches ∧
    (setCore s n x).stops = s.stops ∧ (setCore s n x).dmas = s.dmas ∧ (setCore s n x).sluices = s.sluices ∧
    (setCore s n x).rings = s.rings ∧ (setCore s n x).admitted = s.admitted ∧ (setCore s n x).msix = s.msix ∧
    (setCore s n x).frontStopped = s.frontStopped ∧ (setCore s n x).turns = s.turns ∧
    (setCore s n x).cfgQueue = s.cfgQueue ∧ (setCore s n x).commit = s.commit ∧ (setCore s n x).ctlHeld = s.ctlHeld ∧
    (setCore s n x).link = s.link ∧ (setCore s n x).twin = s.twin ∧ (setCore s n x).sec = s.sec ∧
    (setCore s n x).outbox = s.outbox :=
  ⟨rfl, rfl, rfl, rfl, rfl, rfl, rfl, rfl, rfl, rfl, rfl, rfl, rfl, rfl, rfl, rfl, rfl, rfl, rfl, rfl, rfl, rfl, rfl,
    rfl, rfl, rfl, rfl, rfl, rfl, rfl, rfl, rfl, rfl, rfl, rfl, rfl, rfl, rfl, rfl, rfl, rfl, rfl, rfl, rfl, rfl,
    rfl, rfl, rfl, rfl⟩

@[simp] theorem setDma_frame (g : Nat) (x : DmaCh) :
    (setDma s g x).pending = s.pending ∧ (setDma s g x).time = s.time ∧ (setDma s g x).free = s.free ∧
    (setDma s g x).fuses = s.fuses ∧ (setDma s g x).otp = s.otp ∧ (setDma s g x).pins = s.pins ∧
    (setDma s g x).flash = s.flash ∧ (setDma s g x).power = s.power ∧ (setDma s g x).sensors = s.sensors ∧
    (setDma s g x).regs = s.regs ∧ (setDma s g x).effect = s.effect ∧ (setDma s g x).phase = s.phase ∧
    (setDma s g x).lastReset = s.lastReset ∧ (setDma s g x).bootDone = s.bootDone ∧
    (setDma s g x).resetHeld = s.resetHeld ∧ (setDma s g x).ctl = s.ctl ∧ (setDma s g x).log = s.log ∧
    (setDma s g x).cause = s.cause ∧ (setDma s g x).trace = s.trace ∧ (setDma s g x).dram = s.dram ∧
    (setDma s g x).dramErr = s.dramErr ∧ (setDma s g x).poison = s.poison ∧ (setDma s g x).scratch = s.scratch ∧
    (setDma s g x).scratchPoison = s.scratchPoison ∧ (setDma s g x).window = s.window ∧
    (setDma s g x).stks = s.stks ∧ (setDma s g x).chans = s.chans ∧ (setDma s g x).querns = s.querns ∧
    (setDma s g x).jobs = s.jobs ∧ (setDma s g x).nextId = s.nextId ∧ (setDma s g x).groups = s.groups ∧
    (setDma s g x).pk1 = s.pk1 ∧ (setDma s g x).cores = s.cores ∧ (setDma s g x).coreOps = s.coreOps ∧
    (setDma s g x).launches = s.launches ∧ (setDma s g x).stops = s.stops ∧ (setDma s g x).sluices = s.sluices ∧
    (setDma s g x).rings = s.rings ∧ (setDma s g x).admitted = s.admitted ∧ (setDma s g x).msix = s.msix ∧
    (setDma s g x).frontStopped = s.frontStopped ∧ (setDma s g x).turns = s.turns ∧
    (setDma s g x).cfgQueue = s.cfgQueue ∧ (setDma s g x).commit = s.commit ∧ (setDma s g x).ctlHeld = s.ctlHeld ∧
    (setDma s g x).link = s.link ∧ (setDma s g x).twin = s.twin ∧ (setDma s g x).sec = s.sec ∧
    (setDma s g x).outbox = s.outbox :=
  ⟨rfl, rfl, rfl, rfl, rfl, rfl, rfl, rfl, rfl, rfl, rfl, rfl, rfl, rfl, rfl, rfl, rfl, rfl, rfl, rfl, rfl, rfl, rfl,
    rfl, rfl, rfl, rfl, rfl, rfl, rfl, rfl, rfl, rfl, rfl, rfl, rfl, rfl, rfl, rfl, rfl, rfl, rfl, rfl, rfl, rfl,
    rfl, rfl, rfl, rfl⟩

@[simp] theorem setRing_frame (n : Nat) (x : Ring) :
    (setRing s n x).pending = s.pending ∧ (setRing s n x).time = s.time ∧ (setRing s n x).free = s.free ∧
    (setRing s n x).fuses = s.fuses ∧ (setRing s n x).otp = s.otp ∧ (setRing s n x).pins = s.pins ∧
    (setRing s n x).flash = s.flash ∧ (setRing s n x).power = s.power ∧ (setRing s n x).sensors = s.sensors ∧
    (setRing s n x).regs = s.regs ∧ (setRing s n x).effect = s.effect ∧ (setRing s n x).phase = s.phase ∧
    (setRing s n x).lastReset = s.lastReset ∧ (setRing s n x).bootDone = s.bootDone ∧
    (setRing s n x).resetHeld = s.resetHeld ∧ (setRing s n x).ctl = s.ctl ∧ (setRing s n x).log = s.log ∧
    (setRing s n x).cause = s.cause ∧ (setRing s n x).trace = s.trace ∧ (setRing s n x).dram = s.dram ∧
    (setRing s n x).dramErr = s.dramErr ∧ (setRing s n x).poison = s.poison ∧ (setRing s n x).scratch = s.scratch ∧
    (setRing s n x).scratchPoison = s.scratchPoison ∧ (setRing s n x).window = s.window ∧
    (setRing s n x).stks = s.stks ∧ (setRing s n x).chans = s.chans ∧ (setRing s n x).querns = s.querns ∧
    (setRing s n x).jobs = s.jobs ∧ (setRing s n x).nextId = s.nextId ∧ (setRing s n x).groups = s.groups ∧
    (setRing s n x).pk1 = s.pk1 ∧ (setRing s n x).cores = s.cores ∧ (setRing s n x).coreOps = s.coreOps ∧
    (setRing s n x).launches = s.launches ∧ (setRing s n x).stops = s.stops ∧ (setRing s n x).dmas = s.dmas ∧
    (setRing s n x).sluices = s.sluices ∧ (setRing s n x).admitted = s.admitted ∧ (setRing s n x).msix = s.msix ∧
    (setRing s n x).frontStopped = s.frontStopped ∧ (setRing s n x).turns = s.turns ∧
    (setRing s n x).cfgQueue = s.cfgQueue ∧ (setRing s n x).commit = s.commit ∧ (setRing s n x).ctlHeld = s.ctlHeld ∧
    (setRing s n x).link = s.link ∧ (setRing s n x).twin = s.twin ∧ (setRing s n x).sec = s.sec ∧
    (setRing s n x).outbox = s.outbox :=
  ⟨rfl, rfl, rfl, rfl, rfl, rfl, rfl, rfl, rfl, rfl, rfl, rfl, rfl, rfl, rfl, rfl, rfl, rfl, rfl, rfl, rfl, rfl, rfl,
    rfl, rfl, rfl, rfl, rfl, rfl, rfl, rfl, rfl, rfl, rfl, rfl, rfl, rfl, rfl, rfl, rfl, rfl, rfl, rfl, rfl, rfl,
    rfl, rfl, rfl, rfl⟩

@[simp] theorem setPkg_frame (k : Nat) (x : Pkg) :
    (setPkg s k x).pending = s.pending ∧ (setPkg s k x).time = s.time ∧ (setPkg s k x).free = s.free ∧
    (setPkg s k x).fuses = s.fuses ∧ (setPkg s k x).otp = s.otp ∧ (setPkg s k x).pins = s.pins ∧
    (setPkg s k x).flash = s.flash ∧ (setPkg s k x).power = s.power ∧ (setPkg s k x).sensors = s.sensors ∧
    (setPkg s k x).regs = s.regs ∧ (setPkg s k x).effect = s.effect ∧ (setPkg s k x).phase = s.phase ∧
    (setPkg s k x).lastReset = s.lastReset ∧ (setPkg s k x).bootDone = s.bootDone ∧
    (setPkg s k x).resetHeld = s.resetHeld ∧ (setPkg s k x).ctl = s.ctl ∧ (setPkg s k x).log = s.log ∧
    (setPkg s k x).cause = s.cause ∧ (setPkg s k x).trace = s.trace ∧ (setPkg s k x).dram = s.dram ∧
    (setPkg s k x).dramErr = s.dramErr ∧ (setPkg s k x).poison = s.poison ∧ (setPkg s k x).scratch = s.scratch ∧
    (setPkg s k x).scratchPoison = s.scratchPoison ∧ (setPkg s k x).window = s.window ∧
    (setPkg s k x).stks = s.stks ∧ (setPkg s k x).chans = s.chans ∧ (setPkg s k x).querns = s.querns ∧
    (setPkg s k x).jobs = s.jobs ∧ (setPkg s k x).nextId = s.nextId ∧ (setPkg s k x).groups = s.groups ∧
    (setPkg s k x).pk1 = s.pk1 ∧ (setPkg s k x).cores = s.cores ∧ (setPkg s k x).coreOps = s.coreOps ∧
    (setPkg s k x).launches = s.launches ∧ (setPkg s k x).stops = s.stops ∧ (setPkg s k x).dmas = s.dmas ∧
    (setPkg s k x).sluices = s.sluices ∧ (setPkg s k x).rings = s.rings ∧ (setPkg s k x).admitted = s.admitted ∧
    (setPkg s k x).msix = s.msix ∧ (setPkg s k x).frontStopped = s.frontStopped ∧ (setPkg s k x).turns = s.turns ∧
    (setPkg s k x).cfgQueue = s.cfgQueue ∧ (setPkg s k x).commit = s.commit ∧ (setPkg s k x).ctlHeld = s.ctlHeld ∧
    (setPkg s k x).link = s.link ∧ (setPkg s k x).twin = s.twin ∧ (setPkg s k x).outbox = s.outbox :=
  ⟨rfl, rfl, rfl, rfl, rfl, rfl, rfl, rfl, rfl, rfl, rfl, rfl, rfl, rfl, rfl, rfl, rfl, rfl, rfl, rfl, rfl, rfl, rfl,
    rfl, rfl, rfl, rfl, rfl, rfl, rfl, rfl, rfl, rfl, rfl, rfl, rfl, rfl, rfl, rfl, rfl, rfl, rfl, rfl, rfl, rfl,
    rfl, rfl, rfl, rfl⟩

@[simp] theorem setCtl_frame (n : Nat) (x : CtlCore) :
    (setCtl s n x).pending = s.pending ∧ (setCtl s n x).time = s.time ∧ (setCtl s n x).free = s.free ∧
    (setCtl s n x).fuses = s.fuses ∧ (setCtl s n x).otp = s.otp ∧ (setCtl s n x).pins = s.pins ∧
    (setCtl s n x).flash = s.flash ∧ (setCtl s n x).power = s.power ∧ (setCtl s n x).sensors = s.sensors ∧
    (setCtl s n x).regs = s.regs ∧ (setCtl s n x).effect = s.effect ∧ (setCtl s n x).phase = s.phase ∧
    (setCtl s n x).lastReset = s.lastReset ∧ (setCtl s n x).bootDone = s.bootDone ∧
    (setCtl s n x).resetHeld = s.resetHeld ∧ (setCtl s n x).log = s.log ∧ (setCtl s n x).cause = s.cause ∧
    (setCtl s n x).trace = s.trace ∧ (setCtl s n x).dram = s.dram ∧ (setCtl s n x).dramErr = s.dramErr ∧
    (setCtl s n x).poison = s.poison ∧ (setCtl s n x).scratch = s.scratch ∧
    (setCtl s n x).scratchPoison = s.scratchPoison ∧ (setCtl s n x).window = s.window ∧
    (setCtl s n x).stks = s.stks ∧ (setCtl s n x).chans = s.chans ∧ (setCtl s n x).querns = s.querns ∧
    (setCtl s n x).jobs = s.jobs ∧ (setCtl s n x).nextId = s.nextId ∧ (setCtl s n x).groups = s.groups ∧
    (setCtl s n x).pk1 = s.pk1 ∧ (setCtl s n x).cores = s.cores ∧ (setCtl s n x).coreOps = s.coreOps ∧
    (setCtl s n x).launches = s.launches ∧ (setCtl s n x).stops = s.stops ∧ (setCtl s n x).dmas = s.dmas ∧
    (setCtl s n x).sluices = s.sluices ∧ (setCtl s n x).rings = s.rings ∧ (setCtl s n x).admitted = s.admitted ∧
    (setCtl s n x).msix = s.msix ∧ (setCtl s n x).frontStopped = s.frontStopped ∧ (setCtl s n x).turns = s.turns ∧
    (setCtl s n x).cfgQueue = s.cfgQueue ∧ (setCtl s n x).commit = s.commit ∧ (setCtl s n x).ctlHeld = s.ctlHeld ∧
    (setCtl s n x).link = s.link ∧ (setCtl s n x).twin = s.twin ∧ (setCtl s n x).sec = s.sec ∧
    (setCtl s n x).outbox = s.outbox :=
  ⟨rfl, rfl, rfl, rfl, rfl, rfl, rfl, rfl, rfl, rfl, rfl, rfl, rfl, rfl, rfl, rfl, rfl, rfl, rfl, rfl, rfl, rfl, rfl,
    rfl, rfl, rfl, rfl, rfl, rfl, rfl, rfl, rfl, rfl, rfl, rfl, rfl, rfl, rfl, rfl, rfl, rfl, rfl, rfl, rfl, rfl,
    rfl, rfl, rfl, rfl⟩

@[simp] theorem setSensor_frame (i : Nat) (x : Sensor) :
    (setSensor s i x).pending = s.pending ∧ (setSensor s i x).time = s.time ∧ (setSensor s i x).free = s.free ∧
    (setSensor s i x).fuses = s.fuses ∧ (setSensor s i x).otp = s.otp ∧ (setSensor s i x).pins = s.pins ∧
    (setSensor s i x).flash = s.flash ∧ (setSensor s i x).power = s.power ∧ (setSensor s i x).regs = s.regs ∧
    (setSensor s i x).effect = s.effect ∧ (setSensor s i x).phase = s.phase ∧
    (setSensor s i x).lastReset = s.lastReset ∧ (setSensor s i x).bootDone = s.bootDone ∧
    (setSensor s i x).resetHeld = s.resetHeld ∧ (setSensor s i x).ctl = s.ctl ∧ (setSensor s i x).log = s.log ∧
    (setSensor s i x).cause = s.cause ∧ (setSensor s i x).trace = s.trace ∧ (setSensor s i x).dram = s.dram ∧
    (setSensor s i x).dramErr = s.dramErr ∧ (setSensor s i x).poison = s.poison ∧
    (setSensor s i x).scratch = s.scratch ∧ (setSensor s i x).scratchPoison = s.scratchPoison ∧
    (setSensor s i x).window = s.window ∧ (setSensor s i x).stks = s.stks ∧ (setSensor s i x).chans = s.chans ∧
    (setSensor s i x).querns = s.querns ∧ (setSensor s i x).jobs = s.jobs ∧ (setSensor s i x).nextId = s.nextId ∧
    (setSensor s i x).groups = s.groups ∧ (setSensor s i x).pk1 = s.pk1 ∧ (setSensor s i x).cores = s.cores ∧
    (setSensor s i x).coreOps = s.coreOps ∧ (setSensor s i x).launches = s.launches ∧
    (setSensor s i x).stops = s.stops ∧ (setSensor s i x).dmas = s.dmas ∧ (setSensor s i x).sluices = s.sluices ∧
    (setSensor s i x).rings = s.rings ∧ (setSensor s i x).admitted = s.admitted ∧ (setSensor s i x).msix = s.msix ∧
    (setSensor s i x).frontStopped = s.frontStopped ∧ (setSensor s i x).turns = s.turns ∧
    (setSensor s i x).cfgQueue = s.cfgQueue ∧ (setSensor s i x).commit = s.commit ∧
    (setSensor s i x).ctlHeld = s.ctlHeld ∧ (setSensor s i x).link = s.link ∧ (setSensor s i x).twin = s.twin ∧
    (setSensor s i x).sec = s.sec ∧ (setSensor s i x).outbox = s.outbox :=
  ⟨rfl, rfl, rfl, rfl, rfl, rfl, rfl, rfl, rfl, rfl, rfl, rfl, rfl, rfl, rfl, rfl, rfl, rfl, rfl, rfl, rfl, rfl, rfl,
    rfl, rfl, rfl, rfl, rfl, rfl, rfl, rfl, rfl, rfl, rfl, rfl, rfl, rfl, rfl, rfl, rfl, rfl, rfl, rfl, rfl, rfl,
    rfl, rfl, rfl, rfl⟩

@[simp] theorem setMsix_frame (v : Nat) (x : MsixEntry) :
    (setMsix s v x).pending = s.pending ∧ (setMsix s v x).time = s.time ∧ (setMsix s v x).free = s.free ∧
    (setMsix s v x).fuses = s.fuses ∧ (setMsix s v x).otp = s.otp ∧ (setMsix s v x).pins = s.pins ∧
    (setMsix s v x).flash = s.flash ∧ (setMsix s v x).power = s.power ∧ (setMsix s v x).sensors = s.sensors ∧
    (setMsix s v x).regs = s.regs ∧ (setMsix s v x).effect = s.effect ∧ (setMsix s v x).phase = s.phase ∧
    (setMsix s v x).lastReset = s.lastReset ∧ (setMsix s v x).bootDone = s.bootDone ∧
    (setMsix s v x).resetHeld = s.resetHeld ∧ (setMsix s v x).ctl = s.ctl ∧ (setMsix s v x).log = s.log ∧
    (setMsix s v x).cause = s.cause ∧ (setMsix s v x).trace = s.trace ∧ (setMsix s v x).dram = s.dram ∧
    (setMsix s v x).dramErr = s.dramErr ∧ (setMsix s v x).poison = s.poison ∧ (setMsix s v x).scratch = s.scratch ∧
    (setMsix s v x).scratchPoison = s.scratchPoison ∧ (setMsix s v x).window = s.window ∧
    (setMsix s v x).stks = s.stks ∧ (setMsix s v x).chans = s.chans ∧ (setMsix s v x).querns = s.querns ∧
    (setMsix s v x).jobs = s.jobs ∧ (setMsix s v x).nextId = s.nextId ∧ (setMsix s v x).groups = s.groups ∧
    (setMsix s v x).pk1 = s.pk1 ∧ (setMsix s v x).cores = s.cores ∧ (setMsix s v x).coreOps = s.coreOps ∧
    (setMsix s v x).launches = s.launches ∧ (setMsix s v x).stops = s.stops ∧ (setMsix s v x).dmas = s.dmas ∧
    (setMsix s v x).sluices = s.sluices ∧ (setMsix s v x).rings = s.rings ∧ (setMsix s v x).admitted = s.admitted ∧
    (setMsix s v x).frontStopped = s.frontStopped ∧ (setMsix s v x).turns = s.turns ∧
    (setMsix s v x).cfgQueue = s.cfgQueue ∧ (setMsix s v x).commit = s.commit ∧ (setMsix s v x).ctlHeld = s.ctlHeld ∧
    (setMsix s v x).link = s.link ∧ (setMsix s v x).twin = s.twin ∧ (setMsix s v x).sec = s.sec ∧
    (setMsix s v x).outbox = s.outbox :=
  ⟨rfl, rfl, rfl, rfl, rfl, rfl, rfl, rfl, rfl, rfl, rfl, rfl, rfl, rfl, rfl, rfl, rfl, rfl, rfl, rfl, rfl, rfl, rfl,
    rfl, rfl, rfl, rfl, rfl, rfl, rfl, rfl, rfl, rfl, rfl, rfl, rfl, rfl, rfl, rfl, rfl, rfl, rfl, rfl, rfl, rfl,
    rfl, rfl, rfl, rfl⟩

@[simp] theorem emit_frame (o : Out) :
    (emit s o).pending = s.pending ∧ (emit s o).time = s.time ∧ (emit s o).free = s.free ∧
    (emit s o).fuses = s.fuses ∧ (emit s o).otp = s.otp ∧ (emit s o).pins = s.pins ∧ (emit s o).flash = s.flash ∧
    (emit s o).power = s.power ∧ (emit s o).sensors = s.sensors ∧ (emit s o).regs = s.regs ∧
    (emit s o).effect = s.effect ∧ (emit s o).phase = s.phase ∧ (emit s o).lastReset = s.lastReset ∧
    (emit s o).bootDone = s.bootDone ∧ (emit s o).resetHeld = s.resetHeld ∧ (emit s o).ctl = s.ctl ∧
    (emit s o).log = s.log ∧ (emit s o).cause = s.cause ∧ (emit s o).trace = s.trace ∧ (emit s o).dram = s.dram ∧
    (emit s o).dramErr = s.dramErr ∧ (emit s o).poison = s.poison ∧ (emit s o).scratch = s.scratch ∧
    (emit s o).scratchPoison = s.scratchPoison ∧ (emit s o).window = s.window ∧ (emit s o).stks = s.stks ∧
    (emit s o).chans = s.chans ∧ (emit s o).querns = s.querns ∧ (emit s o).jobs = s.jobs ∧
    (emit s o).nextId = s.nextId ∧ (emit s o).groups = s.groups ∧ (emit s o).pk1 = s.pk1 ∧
    (emit s o).cores = s.cores ∧ (emit s o).coreOps = s.coreOps ∧ (emit s o).launches = s.launches ∧
    (emit s o).stops = s.stops ∧ (emit s o).dmas = s.dmas ∧ (emit s o).sluices = s.sluices ∧
    (emit s o).rings = s.rings ∧ (emit s o).admitted = s.admitted ∧ (emit s o).msix = s.msix ∧
    (emit s o).frontStopped = s.frontStopped ∧ (emit s o).turns = s.turns ∧ (emit s o).cfgQueue = s.cfgQueue ∧
    (emit s o).commit = s.commit ∧ (emit s o).ctlHeld = s.ctlHeld ∧ (emit s o).link = s.link ∧
    (emit s o).twin = s.twin ∧ (emit s o).sec = s.sec :=
  ⟨rfl, rfl, rfl, rfl, rfl, rfl, rfl, rfl, rfl, rfl, rfl, rfl, rfl, rfl, rfl, rfl, rfl, rfl, rfl, rfl, rfl, rfl, rfl,
    rfl, rfl, rfl, rfl, rfl, rfl, rfl, rfl, rfl, rfl, rfl, rfl, rfl, rfl, rfl, rfl, rfl, rfl, rfl, rfl, rfl, rfl,
    rfl, rfl, rfl, rfl⟩

@[simp] theorem regSet_frame (o : Nat) (v : W32) :
    (regSet s o v).pending = s.pending ∧ (regSet s o v).time = s.time ∧ (regSet s o v).free = s.free ∧
    (regSet s o v).fuses = s.fuses ∧ (regSet s o v).otp = s.otp ∧ (regSet s o v).pins = s.pins ∧
    (regSet s o v).flash = s.flash ∧ (regSet s o v).power = s.power ∧ (regSet s o v).sensors = s.sensors ∧
    (regSet s o v).effect = s.effect ∧ (regSet s o v).phase = s.phase ∧ (regSet s o v).lastReset = s.lastReset ∧
    (regSet s o v).bootDone = s.bootDone ∧ (regSet s o v).resetHeld = s.resetHeld ∧ (regSet s o v).ctl = s.ctl ∧
    (regSet s o v).log = s.log ∧ (regSet s o v).cause = s.cause ∧ (regSet s o v).trace = s.trace ∧
    (regSet s o v).dram = s.dram ∧ (regSet s o v).dramErr = s.dramErr ∧ (regSet s o v).poison = s.poison ∧
    (regSet s o v).scratch = s.scratch ∧ (regSet s o v).scratchPoison = s.scratchPoison ∧
    (regSet s o v).window = s.window ∧ (regSet s o v).stks = s.stks ∧ (regSet s o v).chans = s.chans ∧
    (regSet s o v).querns = s.querns ∧ (regSet s o v).jobs = s.jobs ∧ (regSet s o v).nextId = s.nextId ∧
    (regSet s o v).groups = s.groups ∧ (regSet s o v).pk1 = s.pk1 ∧ (regSet s o v).cores = s.cores ∧
    (regSet s o v).coreOps = s.coreOps ∧ (regSet s o v).launches = s.launches ∧ (regSet s o v).stops = s.stops ∧
    (regSet s o v).dmas = s.dmas ∧ (regSet s o v).sluices = s.sluices ∧ (regSet s o v).rings = s.rings ∧
    (regSet s o v).admitted = s.admitted ∧ (regSet s o v).msix = s.msix ∧
    (regSet s o v).frontStopped = s.frontStopped ∧ (regSet s o v).turns = s.turns ∧
    (regSet s o v).cfgQueue = s.cfgQueue ∧ (regSet s o v).commit = s.commit ∧ (regSet s o v).ctlHeld = s.ctlHeld ∧
    (regSet s o v).link = s.link ∧ (regSet s o v).twin = s.twin ∧ (regSet s o v).sec = s.sec ∧
    (regSet s o v).outbox = s.outbox :=
  ⟨rfl, rfl, rfl, rfl, rfl, rfl, rfl, rfl, rfl, rfl, rfl, rfl, rfl, rfl, rfl, rfl, rfl, rfl, rfl, rfl, rfl, rfl, rfl,
    rfl, rfl, rfl, rfl, rfl, rfl, rfl, rfl, rfl, rfl, rfl, rfl, rfl, rfl, rfl, rfl, rfl, rfl, rfl, rfl, rfl, rfl,
    rfl, rfl, rfl, rfl⟩

@[simp] theorem modStack_frame (k : Nat) (f : Stack → Stack) :
    (modStack s k f).pending = s.pending ∧ (modStack s k f).time = s.time ∧ (modStack s k f).free = s.free ∧
    (modStack s k f).fuses = s.fuses ∧ (modStack s k f).otp = s.otp ∧ (modStack s k f).pins = s.pins ∧
    (modStack s k f).flash = s.flash ∧ (modStack s k f).power = s.power ∧ (modStack s k f).sensors = s.sensors ∧
    (modStack s k f).regs = s.regs ∧ (modStack s k f).effect = s.effect ∧ (modStack s k f).phase = s.phase ∧
    (modStack s k f).lastReset = s.lastReset ∧ (modStack s k f).bootDone = s.bootDone ∧
    (modStack s k f).resetHeld = s.resetHeld ∧ (modStack s k f).ctl = s.ctl ∧ (modStack s k f).log = s.log ∧
    (modStack s k f).cause = s.cause ∧ (modStack s k f).trace = s.trace ∧ (modStack s k f).dram = s.dram ∧
    (modStack s k f).dramErr = s.dramErr ∧ (modStack s k f).poison = s.poison ∧
    (modStack s k f).scratch = s.scratch ∧ (modStack s k f).scratchPoison = s.scratchPoison ∧
    (modStack s k f).window = s.window ∧ (modStack s k f).chans = s.chans ∧ (modStack s k f).querns = s.querns ∧
    (modStack s k f).jobs = s.jobs ∧ (modStack s k f).nextId = s.nextId ∧ (modStack s k f).groups = s.groups ∧
    (modStack s k f).pk1 = s.pk1 ∧ (modStack s k f).cores = s.cores ∧ (modStack s k f).coreOps = s.coreOps ∧
    (modStack s k f).launches = s.launches ∧ (modStack s k f).stops = s.stops ∧ (modStack s k f).dmas = s.dmas ∧
    (modStack s k f).sluices = s.sluices ∧ (modStack s k f).rings = s.rings ∧
    (modStack s k f).admitted = s.admitted ∧ (modStack s k f).msix = s.msix ∧
    (modStack s k f).frontStopped = s.frontStopped ∧ (modStack s k f).turns = s.turns ∧
    (modStack s k f).cfgQueue = s.cfgQueue ∧ (modStack s k f).commit = s.commit ∧
    (modStack s k f).ctlHeld = s.ctlHeld ∧ (modStack s k f).link = s.link ∧ (modStack s k f).twin = s.twin ∧
    (modStack s k f).sec = s.sec ∧ (modStack s k f).outbox = s.outbox :=
  ⟨rfl, rfl, rfl, rfl, rfl, rfl, rfl, rfl, rfl, rfl, rfl, rfl, rfl, rfl, rfl, rfl, rfl, rfl, rfl, rfl, rfl, rfl, rfl,
    rfl, rfl, rfl, rfl, rfl, rfl, rfl, rfl, rfl, rfl, rfl, rfl, rfl, rfl, rfl, rfl, rfl, rfl, rfl, rfl, rfl, rfl,
    rfl, rfl, rfl, rfl⟩

@[simp] theorem modChan_frame (k c : Nat) (f : Chan → Chan) :
    (modChan s k c f).pending = s.pending ∧ (modChan s k c f).time = s.time ∧ (modChan s k c f).free = s.free ∧
    (modChan s k c f).fuses = s.fuses ∧ (modChan s k c f).otp = s.otp ∧ (modChan s k c f).pins = s.pins ∧
    (modChan s k c f).flash = s.flash ∧ (modChan s k c f).power = s.power ∧ (modChan s k c f).sensors = s.sensors ∧
    (modChan s k c f).regs = s.regs ∧ (modChan s k c f).effect = s.effect ∧ (modChan s k c f).phase = s.phase ∧
    (modChan s k c f).lastReset = s.lastReset ∧ (modChan s k c f).bootDone = s.bootDone ∧
    (modChan s k c f).resetHeld = s.resetHeld ∧ (modChan s k c f).ctl = s.ctl ∧ (modChan s k c f).log = s.log ∧
    (modChan s k c f).cause = s.cause ∧ (modChan s k c f).trace = s.trace ∧ (modChan s k c f).dram = s.dram ∧
    (modChan s k c f).dramErr = s.dramErr ∧ (modChan s k c f).poison = s.poison ∧
    (modChan s k c f).scratch = s.scratch ∧ (modChan s k c f).scratchPoison = s.scratchPoison ∧
    (modChan s k c f).window = s.window ∧ (modChan s k c f).stks = s.stks ∧ (modChan s k c f).querns = s.querns ∧
    (modChan s k c f).jobs = s.jobs ∧ (modChan s k c f).nextId = s.nextId ∧ (modChan s k c f).groups = s.groups ∧
    (modChan s k c f).pk1 = s.pk1 ∧ (modChan s k c f).cores = s.cores ∧ (modChan s k c f).coreOps = s.coreOps ∧
    (modChan s k c f).launches = s.launches ∧ (modChan s k c f).stops = s.stops ∧ (modChan s k c f).dmas = s.dmas ∧
    (modChan s k c f).sluices = s.sluices ∧ (modChan s k c f).rings = s.rings ∧
    (modChan s k c f).admitted = s.admitted ∧ (modChan s k c f).msix = s.msix ∧
    (modChan s k c f).frontStopped = s.frontStopped ∧ (modChan s k c f).turns = s.turns ∧
    (modChan s k c f).cfgQueue = s.cfgQueue ∧ (modChan s k c f).commit = s.commit ∧
    (modChan s k c f).ctlHeld = s.ctlHeld ∧ (modChan s k c f).link = s.link ∧ (modChan s k c f).twin = s.twin ∧
    (modChan s k c f).sec = s.sec ∧ (modChan s k c f).outbox = s.outbox :=
  ⟨rfl, rfl, rfl, rfl, rfl, rfl, rfl, rfl, rfl, rfl, rfl, rfl, rfl, rfl, rfl, rfl, rfl, rfl, rfl, rfl, rfl, rfl, rfl,
    rfl, rfl, rfl, rfl, rfl, rfl, rfl, rfl, rfl, rfl, rfl, rfl, rfl, rfl, rfl, rfl, rfl, rfl, rfl, rfl, rfl, rfl,
    rfl, rfl, rfl, rfl⟩

@[simp] theorem modQuern_frame (k c b : Nat) (f : Quern → Quern) :
    (modQuern s k c b f).pending = s.pending ∧ (modQuern s k c b f).time = s.time ∧
    (modQuern s k c b f).free = s.free ∧ (modQuern s k c b f).fuses = s.fuses ∧ (modQuern s k c b f).otp = s.otp ∧
    (modQuern s k c b f).pins = s.pins ∧ (modQuern s k c b f).flash = s.flash ∧
    (modQuern s k c b f).power = s.power ∧ (modQuern s k c b f).sensors = s.sensors ∧
    (modQuern s k c b f).regs = s.regs ∧ (modQuern s k c b f).effect = s.effect ∧
    (modQuern s k c b f).phase = s.phase ∧ (modQuern s k c b f).lastReset = s.lastReset ∧
    (modQuern s k c b f).bootDone = s.bootDone ∧ (modQuern s k c b f).resetHeld = s.resetHeld ∧
    (modQuern s k c b f).ctl = s.ctl ∧ (modQuern s k c b f).log = s.log ∧ (modQuern s k c b f).cause = s.cause ∧
    (modQuern s k c b f).trace = s.trace ∧ (modQuern s k c b f).dram = s.dram ∧
    (modQuern s k c b f).dramErr = s.dramErr ∧ (modQuern s k c b f).poison = s.poison ∧
    (modQuern s k c b f).scratch = s.scratch ∧ (modQuern s k c b f).scratchPoison = s.scratchPoison ∧
    (modQuern s k c b f).window = s.window ∧ (modQuern s k c b f).stks = s.stks ∧
    (modQuern s k c b f).chans = s.chans ∧ (modQuern s k c b f).jobs = s.jobs ∧
    (modQuern s k c b f).nextId = s.nextId ∧ (modQuern s k c b f).groups = s.groups ∧
    (modQuern s k c b f).pk1 = s.pk1 ∧ (modQuern s k c b f).cores = s.cores ∧
    (modQuern s k c b f).coreOps = s.coreOps ∧ (modQuern s k c b f).launches = s.launches ∧
    (modQuern s k c b f).stops = s.stops ∧ (modQuern s k c b f).dmas = s.dmas ∧
    (modQuern s k c b f).sluices = s.sluices ∧ (modQuern s k c b f).rings = s.rings ∧
    (modQuern s k c b f).admitted = s.admitted ∧ (modQuern s k c b f).msix = s.msix ∧
    (modQuern s k c b f).frontStopped = s.frontStopped ∧ (modQuern s k c b f).turns = s.turns ∧
    (modQuern s k c b f).cfgQueue = s.cfgQueue ∧ (modQuern s k c b f).commit = s.commit ∧
    (modQuern s k c b f).ctlHeld = s.ctlHeld ∧ (modQuern s k c b f).link = s.link ∧
    (modQuern s k c b f).twin = s.twin ∧ (modQuern s k c b f).sec = s.sec ∧ (modQuern s k c b f).outbox = s.outbox :=
  ⟨rfl, rfl, rfl, rfl, rfl, rfl, rfl, rfl, rfl, rfl, rfl, rfl, rfl, rfl, rfl, rfl, rfl, rfl, rfl, rfl, rfl, rfl, rfl,
    rfl, rfl, rfl, rfl, rfl, rfl, rfl, rfl, rfl, rfl, rfl, rfl, rfl, rfl, rfl, rfl, rfl, rfl, rfl, rfl, rfl, rfl,
    rfl, rfl, rfl, rfl⟩

@[simp] theorem modCore_frame (n : Nat) (f : Core → Core) :
    (modCore s n f).pending = s.pending ∧ (modCore s n f).time = s.time ∧ (modCore s n f).free = s.free ∧
    (modCore s n f).fuses = s.fuses ∧ (modCore s n f).otp = s.otp ∧ (modCore s n f).pins = s.pins ∧
    (modCore s n f).flash = s.flash ∧ (modCore s n f).power = s.power ∧ (modCore s n f).sensors = s.sensors ∧
    (modCore s n f).regs = s.regs ∧ (modCore s n f).effect = s.effect ∧ (modCore s n f).phase = s.phase ∧
    (modCore s n f).lastReset = s.lastReset ∧ (modCore s n f).bootDone = s.bootDone ∧
    (modCore s n f).resetHeld = s.resetHeld ∧ (modCore s n f).ctl = s.ctl ∧ (modCore s n f).log = s.log ∧
    (modCore s n f).cause = s.cause ∧ (modCore s n f).trace = s.trace ∧ (modCore s n f).dram = s.dram ∧
    (modCore s n f).dramErr = s.dramErr ∧ (modCore s n f).poison = s.poison ∧ (modCore s n f).scratch = s.scratch ∧
    (modCore s n f).scratchPoison = s.scratchPoison ∧ (modCore s n f).window = s.window ∧
    (modCore s n f).stks = s.stks ∧ (modCore s n f).chans = s.chans ∧ (modCore s n f).querns = s.querns ∧
    (modCore s n f).jobs = s.jobs ∧ (modCore s n f).nextId = s.nextId ∧ (modCore s n f).groups = s.groups ∧
    (modCore s n f).pk1 = s.pk1 ∧ (modCore s n f).coreOps = s.coreOps ∧ (modCore s n f).launches = s.launches ∧
    (modCore s n f).stops = s.stops ∧ (modCore s n f).dmas = s.dmas ∧ (modCore s n f).sluices = s.sluices ∧
    (modCore s n f).rings = s.rings ∧ (modCore s n f).admitted = s.admitted ∧ (modCore s n f).msix = s.msix ∧
    (modCore s n f).frontStopped = s.frontStopped ∧ (modCore s n f).turns = s.turns ∧
    (modCore s n f).cfgQueue = s.cfgQueue ∧ (modCore s n f).commit = s.commit ∧ (modCore s n f).ctlHeld = s.ctlHeld ∧
    (modCore s n f).link = s.link ∧ (modCore s n f).twin = s.twin ∧ (modCore s n f).sec = s.sec ∧
    (modCore s n f).outbox = s.outbox :=
  ⟨rfl, rfl, rfl, rfl, rfl, rfl, rfl, rfl, rfl, rfl, rfl, rfl, rfl, rfl, rfl, rfl, rfl, rfl, rfl, rfl, rfl, rfl, rfl,
    rfl, rfl, rfl, rfl, rfl, rfl, rfl, rfl, rfl, rfl, rfl, rfl, rfl, rfl, rfl, rfl, rfl, rfl, rfl, rfl, rfl, rfl,
    rfl, rfl, rfl, rfl⟩

@[simp] theorem modDma_frame (g : Nat) (f : DmaCh → DmaCh) :
    (modDma s g f).pending = s.pending ∧ (modDma s g f).time = s.time ∧ (modDma s g f).free = s.free ∧
    (modDma s g f).fuses = s.fuses ∧ (modDma s g f).otp = s.otp ∧ (modDma s g f).pins = s.pins ∧
    (modDma s g f).flash = s.flash ∧ (modDma s g f).power = s.power ∧ (modDma s g f).sensors = s.sensors ∧
    (modDma s g f).regs = s.regs ∧ (modDma s g f).effect = s.effect ∧ (modDma s g f).phase = s.phase ∧
    (modDma s g f).lastReset = s.lastReset ∧ (modDma s g f).bootDone = s.bootDone ∧
    (modDma s g f).resetHeld = s.resetHeld ∧ (modDma s g f).ctl = s.ctl ∧ (modDma s g f).log = s.log ∧
    (modDma s g f).cause = s.cause ∧ (modDma s g f).trace = s.trace ∧ (modDma s g f).dram = s.dram ∧
    (modDma s g f).dramErr = s.dramErr ∧ (modDma s g f).poison = s.poison ∧ (modDma s g f).scratch = s.scratch ∧
    (modDma s g f).scratchPoison = s.scratchPoison ∧ (modDma s g f).window = s.window ∧
    (modDma s g f).stks = s.stks ∧ (modDma s g f).chans = s.chans ∧ (modDma s g f).querns = s.querns ∧
    (modDma s g f).jobs = s.jobs ∧ (modDma s g f).nextId = s.nextId ∧ (modDma s g f).groups = s.groups ∧
    (modDma s g f).pk1 = s.pk1 ∧ (modDma s g f).cores = s.cores ∧ (modDma s g f).coreOps = s.coreOps ∧
    (modDma s g f).launches = s.launches ∧ (modDma s g f).stops = s.stops ∧ (modDma s g f).sluices = s.sluices ∧
    (modDma s g f).rings = s.rings ∧ (modDma s g f).admitted = s.admitted ∧ (modDma s g f).msix = s.msix ∧
    (modDma s g f).frontStopped = s.frontStopped ∧ (modDma s g f).turns = s.turns ∧
    (modDma s g f).cfgQueue = s.cfgQueue ∧ (modDma s g f).commit = s.commit ∧ (modDma s g f).ctlHeld = s.ctlHeld ∧
    (modDma s g f).link = s.link ∧ (modDma s g f).twin = s.twin ∧ (modDma s g f).sec = s.sec ∧
    (modDma s g f).outbox = s.outbox :=
  ⟨rfl, rfl, rfl, rfl, rfl, rfl, rfl, rfl, rfl, rfl, rfl, rfl, rfl, rfl, rfl, rfl, rfl, rfl, rfl, rfl, rfl, rfl, rfl,
    rfl, rfl, rfl, rfl, rfl, rfl, rfl, rfl, rfl, rfl, rfl, rfl, rfl, rfl, rfl, rfl, rfl, rfl, rfl, rfl, rfl, rfl,
    rfl, rfl, rfl, rfl⟩

@[simp] theorem modRing_frame (n : Nat) (f : Ring → Ring) :
    (modRing s n f).pending = s.pending ∧ (modRing s n f).time = s.time ∧ (modRing s n f).free = s.free ∧
    (modRing s n f).fuses = s.fuses ∧ (modRing s n f).otp = s.otp ∧ (modRing s n f).pins = s.pins ∧
    (modRing s n f).flash = s.flash ∧ (modRing s n f).power = s.power ∧ (modRing s n f).sensors = s.sensors ∧
    (modRing s n f).regs = s.regs ∧ (modRing s n f).effect = s.effect ∧ (modRing s n f).phase = s.phase ∧
    (modRing s n f).lastReset = s.lastReset ∧ (modRing s n f).bootDone = s.bootDone ∧
    (modRing s n f).resetHeld = s.resetHeld ∧ (modRing s n f).ctl = s.ctl ∧ (modRing s n f).log = s.log ∧
    (modRing s n f).cause = s.cause ∧ (modRing s n f).trace = s.trace ∧ (modRing s n f).dram = s.dram ∧
    (modRing s n f).dramErr = s.dramErr ∧ (modRing s n f).poison = s.poison ∧ (modRing s n f).scratch = s.scratch ∧
    (modRing s n f).scratchPoison = s.scratchPoison ∧ (modRing s n f).window = s.window ∧
    (modRing s n f).stks = s.stks ∧ (modRing s n f).chans = s.chans ∧ (modRing s n f).querns = s.querns ∧
    (modRing s n f).jobs = s.jobs ∧ (modRing s n f).nextId = s.nextId ∧ (modRing s n f).groups = s.groups ∧
    (modRing s n f).pk1 = s.pk1 ∧ (modRing s n f).cores = s.cores ∧ (modRing s n f).coreOps = s.coreOps ∧
    (modRing s n f).launches = s.launches ∧ (modRing s n f).stops = s.stops ∧ (modRing s n f).dmas = s.dmas ∧
    (modRing s n f).sluices = s.sluices ∧ (modRing s n f).admitted = s.admitted ∧ (modRing s n f).msix = s.msix ∧
    (modRing s n f).frontStopped = s.frontStopped ∧ (modRing s n f).turns = s.turns ∧
    (modRing s n f).cfgQueue = s.cfgQueue ∧ (modRing s n f).commit = s.commit ∧ (modRing s n f).ctlHeld = s.ctlHeld ∧
    (modRing s n f).link = s.link ∧ (modRing s n f).twin = s.twin ∧ (modRing s n f).sec = s.sec ∧
    (modRing s n f).outbox = s.outbox :=
  ⟨rfl, rfl, rfl, rfl, rfl, rfl, rfl, rfl, rfl, rfl, rfl, rfl, rfl, rfl, rfl, rfl, rfl, rfl, rfl, rfl, rfl, rfl, rfl,
    rfl, rfl, rfl, rfl, rfl, rfl, rfl, rfl, rfl, rfl, rfl, rfl, rfl, rfl, rfl, rfl, rfl, rfl, rfl, rfl, rfl, rfl,
    rfl, rfl, rfl, rfl⟩

@[simp] theorem regSetFld_frame (o hi lo v : Nat) :
    (regSetFld s o hi lo v).pending = s.pending ∧ (regSetFld s o hi lo v).time = s.time ∧
    (regSetFld s o hi lo v).free = s.free ∧ (regSetFld s o hi lo v).fuses = s.fuses ∧
    (regSetFld s o hi lo v).otp = s.otp ∧ (regSetFld s o hi lo v).pins = s.pins ∧
    (regSetFld s o hi lo v).flash = s.flash ∧ (regSetFld s o hi lo v).power = s.power ∧
    (regSetFld s o hi lo v).sensors = s.sensors ∧ (regSetFld s o hi lo v).effect = s.effect ∧
    (regSetFld s o hi lo v).phase = s.phase ∧ (regSetFld s o hi lo v).lastReset = s.lastReset ∧
    (regSetFld s o hi lo v).bootDone = s.bootDone ∧ (regSetFld s o hi lo v).resetHeld = s.resetHeld ∧
    (regSetFld s o hi lo v).ctl = s.ctl ∧ (regSetFld s o hi lo v).log = s.log ∧
    (regSetFld s o hi lo v).cause = s.cause ∧ (regSetFld s o hi lo v).trace = s.trace ∧
    (regSetFld s o hi lo v).dram = s.dram ∧ (regSetFld s o hi lo v).dramErr = s.dramErr ∧
    (regSetFld s o hi lo v).poison = s.poison ∧ (regSetFld s o hi lo v).scratch = s.scratch ∧
    (regSetFld s o hi lo v).scratchPoison = s.scratchPoison ∧ (regSetFld s o hi lo v).window = s.window ∧
    (regSetFld s o hi lo v).stks = s.stks ∧ (regSetFld s o hi lo v).chans = s.chans ∧
    (regSetFld s o hi lo v).querns = s.querns ∧ (regSetFld s o hi lo v).jobs = s.jobs ∧
    (regSetFld s o hi lo v).nextId = s.nextId ∧ (regSetFld s o hi lo v).groups = s.groups ∧
    (regSetFld s o hi lo v).pk1 = s.pk1 ∧ (regSetFld s o hi lo v).cores = s.cores ∧
    (regSetFld s o hi lo v).coreOps = s.coreOps ∧ (regSetFld s o hi lo v).launches = s.launches ∧
    (regSetFld s o hi lo v).stops = s.stops ∧ (regSetFld s o hi lo v).dmas = s.dmas ∧
    (regSetFld s o hi lo v).sluices = s.sluices ∧ (regSetFld s o hi lo v).rings = s.rings ∧
    (regSetFld s o hi lo v).admitted = s.admitted ∧ (regSetFld s o hi lo v).msix = s.msix ∧
    (regSetFld s o hi lo v).frontStopped = s.frontStopped ∧ (regSetFld s o hi lo v).turns = s.turns ∧
    (regSetFld s o hi lo v).cfgQueue = s.cfgQueue ∧ (regSetFld s o hi lo v).commit = s.commit ∧
    (regSetFld s o hi lo v).ctlHeld = s.ctlHeld ∧ (regSetFld s o hi lo v).link = s.link ∧
    (regSetFld s o hi lo v).twin = s.twin ∧ (regSetFld s o hi lo v).sec = s.sec ∧
    (regSetFld s o hi lo v).outbox = s.outbox :=
  ⟨rfl, rfl, rfl, rfl, rfl, rfl, rfl, rfl, rfl, rfl, rfl, rfl, rfl, rfl, rfl, rfl, rfl, rfl, rfl, rfl, rfl, rfl, rfl,
    rfl, rfl, rfl, rfl, rfl, rfl, rfl, rfl, rfl, rfl, rfl, rfl, rfl, rfl, rfl, rfl, rfl, rfl, rfl, rfl, rfl, rfl,
    rfl, rfl, rfl, rfl⟩

@[simp] theorem regSetBit_frame (o i : Nat) :
    (regSetBit s o i).pending = s.pending ∧ (regSetBit s o i).time = s.time ∧ (regSetBit s o i).free = s.free ∧
    (regSetBit s o i).fuses = s.fuses ∧ (regSetBit s o i).otp = s.otp ∧ (regSetBit s o i).pins = s.pins ∧
    (regSetBit s o i).flash = s.flash ∧ (regSetBit s o i).power = s.power ∧ (regSetBit s o i).sensors = s.sensors ∧
    (regSetBit s o i).effect = s.effect ∧ (regSetBit s o i).phase = s.phase ∧
    (regSetBit s o i).lastReset = s.lastReset ∧ (regSetBit s o i).bootDone = s.bootDone ∧
    (regSetBit s o i).resetHeld = s.resetHeld ∧ (regSetBit s o i).ctl = s.ctl ∧ (regSetBit s o i).log = s.log ∧
    (regSetBit s o i).cause = s.cause ∧ (regSetBit s o i).trace = s.trace ∧ (regSetBit s o i).dram = s.dram ∧
    (regSetBit s o i).dramErr = s.dramErr ∧ (regSetBit s o i).poison = s.poison ∧
    (regSetBit s o i).scratch = s.scratch ∧ (regSetBit s o i).scratchPoison = s.scratchPoison ∧
    (regSetBit s o i).window = s.window ∧ (regSetBit s o i).stks = s.stks ∧ (regSetBit s o i).chans = s.chans ∧
    (regSetBit s o i).querns = s.querns ∧ (regSetBit s o i).jobs = s.jobs ∧ (regSetBit s o i).nextId = s.nextId ∧
    (regSetBit s o i).groups = s.groups ∧ (regSetBit s o i).pk1 = s.pk1 ∧ (regSetBit s o i).cores = s.cores ∧
    (regSetBit s o i).coreOps = s.coreOps ∧ (regSetBit s o i).launches = s.launches ∧
    (regSetBit s o i).stops = s.stops ∧ (regSetBit s o i).dmas = s.dmas ∧ (regSetBit s o i).sluices = s.sluices ∧
    (regSetBit s o i).rings = s.rings ∧ (regSetBit s o i).admitted = s.admitted ∧ (regSetBit s o i).msix = s.msix ∧
    (regSetBit s o i).frontStopped = s.frontStopped ∧ (regSetBit s o i).turns = s.turns ∧
    (regSetBit s o i).cfgQueue = s.cfgQueue ∧ (regSetBit s o i).commit = s.commit ∧
    (regSetBit s o i).ctlHeld = s.ctlHeld ∧ (regSetBit s o i).link = s.link ∧ (regSetBit s o i).twin = s.twin ∧
    (regSetBit s o i).sec = s.sec ∧ (regSetBit s o i).outbox = s.outbox :=
  ⟨rfl, rfl, rfl, rfl, rfl, rfl, rfl, rfl, rfl, rfl, rfl, rfl, rfl, rfl, rfl, rfl, rfl, rfl, rfl, rfl, rfl, rfl, rfl,
    rfl, rfl, rfl, rfl, rfl, rfl, rfl, rfl, rfl, rfl, rfl, rfl, rfl, rfl, rfl, rfl, rfl, rfl, rfl, rfl, rfl, rfl,
    rfl, rfl, rfl, rfl⟩

@[simp] theorem regClrBit_frame (o i : Nat) :
    (regClrBit s o i).pending = s.pending ∧ (regClrBit s o i).time = s.time ∧ (regClrBit s o i).free = s.free ∧
    (regClrBit s o i).fuses = s.fuses ∧ (regClrBit s o i).otp = s.otp ∧ (regClrBit s o i).pins = s.pins ∧
    (regClrBit s o i).flash = s.flash ∧ (regClrBit s o i).power = s.power ∧ (regClrBit s o i).sensors = s.sensors ∧
    (regClrBit s o i).effect = s.effect ∧ (regClrBit s o i).phase = s.phase ∧
    (regClrBit s o i).lastReset = s.lastReset ∧ (regClrBit s o i).bootDone = s.bootDone ∧
    (regClrBit s o i).resetHeld = s.resetHeld ∧ (regClrBit s o i).ctl = s.ctl ∧ (regClrBit s o i).log = s.log ∧
    (regClrBit s o i).cause = s.cause ∧ (regClrBit s o i).trace = s.trace ∧ (regClrBit s o i).dram = s.dram ∧
    (regClrBit s o i).dramErr = s.dramErr ∧ (regClrBit s o i).poison = s.poison ∧
    (regClrBit s o i).scratch = s.scratch ∧ (regClrBit s o i).scratchPoison = s.scratchPoison ∧
    (regClrBit s o i).window = s.window ∧ (regClrBit s o i).stks = s.stks ∧ (regClrBit s o i).chans = s.chans ∧
    (regClrBit s o i).querns = s.querns ∧ (regClrBit s o i).jobs = s.jobs ∧ (regClrBit s o i).nextId = s.nextId ∧
    (regClrBit s o i).groups = s.groups ∧ (regClrBit s o i).pk1 = s.pk1 ∧ (regClrBit s o i).cores = s.cores ∧
    (regClrBit s o i).coreOps = s.coreOps ∧ (regClrBit s o i).launches = s.launches ∧
    (regClrBit s o i).stops = s.stops ∧ (regClrBit s o i).dmas = s.dmas ∧ (regClrBit s o i).sluices = s.sluices ∧
    (regClrBit s o i).rings = s.rings ∧ (regClrBit s o i).admitted = s.admitted ∧ (regClrBit s o i).msix = s.msix ∧
    (regClrBit s o i).frontStopped = s.frontStopped ∧ (regClrBit s o i).turns = s.turns ∧
    (regClrBit s o i).cfgQueue = s.cfgQueue ∧ (regClrBit s o i).commit = s.commit ∧
    (regClrBit s o i).ctlHeld = s.ctlHeld ∧ (regClrBit s o i).link = s.link ∧ (regClrBit s o i).twin = s.twin ∧
    (regClrBit s o i).sec = s.sec ∧ (regClrBit s o i).outbox = s.outbox :=
  ⟨rfl, rfl, rfl, rfl, rfl, rfl, rfl, rfl, rfl, rfl, rfl, rfl, rfl, rfl, rfl, rfl, rfl, rfl, rfl, rfl, rfl, rfl, rfl,
    rfl, rfl, rfl, rfl, rfl, rfl, rfl, rfl, rfl, rfl, rfl, rfl, rfl, rfl, rfl, rfl, rfl, rfl, rfl, rfl, rfl, rfl,
    rfl, rfl, rfl, rfl⟩

/-! ### Reading back -/

@[simp] theorem stackAt_setStack (k : Nat) (x : Stack) : stackAt (setStack s k x) k = x := tget_tset_same _ _ _ _

@[simp] theorem stackAt_setStack_ne (k j : Nat) (x : Stack) (h : j ≠ k) : stackAt (setStack s k x) j = stackAt s j :=
  tget_tset_ne _ _ _ _ _ _ h

@[simp] theorem stackAt_modStack (k : Nat) (f : Stack → Stack) : stackAt (modStack s k f) k = f (stackAt s k) :=
  tget_tset_same _ _ _ _

@[simp] theorem stackAt_modStack_ne (k j : Nat) (f : Stack → Stack) (h : j ≠ k) : stackAt (modStack s k f) j = stackAt s j :=
  tget_tset_ne _ _ _ _ _ _ h

@[simp] theorem coreAt_setCore (n : Nat) (x : Core) : coreAt (setCore s n x) n = x := tget_tset_same _ _ _ _

@[simp] theorem coreAt_setCore_ne (n j : Nat) (x : Core) (h : j ≠ n) : coreAt (setCore s n x) j = coreAt s j :=
  tget_tset_ne _ _ _ _ _ _ h

@[simp] theorem coreAt_modCore (n : Nat) (f : Core → Core) : coreAt (modCore s n f) n = f (coreAt s n) :=
  tget_tset_same _ _ _ _

@[simp] theorem coreAt_modCore_ne (n j : Nat) (f : Core → Core) (h : j ≠ n) : coreAt (modCore s n f) j = coreAt s j :=
  tget_tset_ne _ _ _ _ _ _ h

@[simp] theorem dmaAt_setDma (g : Nat) (x : DmaCh) : dmaAt (setDma s g x) g = x := tget_tset_same _ _ _ _

@[simp] theorem dmaAt_setDma_ne (g j : Nat) (x : DmaCh) (h : j ≠ g) : dmaAt (setDma s g x) j = dmaAt s j :=
  tget_tset_ne _ _ _ _ _ _ h

@[simp] theorem dmaAt_modDma (g : Nat) (f : DmaCh → DmaCh) : dmaAt (modDma s g f) g = f (dmaAt s g) :=
  tget_tset_same _ _ _ _

@[simp] theorem dmaAt_modDma_ne (g j : Nat) (f : DmaCh → DmaCh) (h : j ≠ g) : dmaAt (modDma s g f) j = dmaAt s j :=
  tget_tset_ne _ _ _ _ _ _ h

@[simp] theorem ringAt_setRing (n : Nat) (x : Ring) : ringAt (setRing s n x) n = x := tget_tset_same _ _ _ _

@[simp] theorem ringAt_setRing_ne (n j : Nat) (x : Ring) (h : j ≠ n) : ringAt (setRing s n x) j = ringAt s j :=
  tget_tset_ne _ _ _ _ _ _ h

@[simp] theorem ringAt_modRing (n : Nat) (f : Ring → Ring) : ringAt (modRing s n f) n = f (ringAt s n) :=
  tget_tset_same _ _ _ _

@[simp] theorem ringAt_modRing_ne (n j : Nat) (f : Ring → Ring) (h : j ≠ n) : ringAt (modRing s n f) j = ringAt s j :=
  tget_tset_ne _ _ _ _ _ _ h

@[simp] theorem ctlAt_setCtl (n : Nat) (x : CtlCore) : ctlAt (setCtl s n x) n = x := tget_tset_same _ _ _ _

@[simp] theorem ctlAt_setCtl_ne (n j : Nat) (x : CtlCore) (h : j ≠ n) : ctlAt (setCtl s n x) j = ctlAt s j :=
  tget_tset_ne _ _ _ _ _ _ h

@[simp] theorem sensorAt_setSensor (i : Nat) (x : Sensor) : sensorAt (setSensor s i x) i = x := tget_tset_same _ _ _ _

@[simp] theorem sensorAt_setSensor_ne (i j : Nat) (x : Sensor) (h : j ≠ i) : sensorAt (setSensor s i x) j = sensorAt s j :=
  tget_tset_ne _ _ _ _ _ _ h

@[simp] theorem msixAt_setMsix (v : Nat) (x : MsixEntry) : msixAt (setMsix s v x) v = x := tget_tset_same _ _ _ _

@[simp] theorem msixAt_setMsix_ne (v j : Nat) (x : MsixEntry) (h : j ≠ v) : msixAt (setMsix s v x) j = msixAt s j :=
  tget_tset_ne _ _ _ _ _ _ h

@[simp] theorem pkgAt_setPkg (k : Nat) (x : Pkg) : pkgAt (setPkg s k x) k = x := tget_tset_same _ _ _ _

@[simp] theorem pkgAt_setPkg_ne (k j : Nat) (x : Pkg) (h : j ≠ k) : pkgAt (setPkg s k x) j = pkgAt s j :=
  tget_tset_ne _ _ _ _ _ _ h

@[simp] theorem chanAt_setChan (k c : Nat) (x : Chan) : chanAt (setChan s k c x) k c = x := tget_tset_same _ _ _ _

@[simp] theorem chanAt_modChan (k c : Nat) (f : Chan → Chan) : chanAt (modChan s k c f) k c = f (chanAt s k c) :=
  tget_tset_same _ _ _ _

@[simp] theorem quernAt_setQuern (k c b : Nat) (x : Quern) : quernAt (setQuern s k c b x) k c b = x := tget_tset_same _ _ _ _

@[simp] theorem quernAt_modQuern (k c b : Nat) (f : Quern → Quern) : quernAt (modQuern s k c b f) k c b = f (quernAt s k c b) :=
  tget_tset_same _ _ _ _

@[simp] theorem regGet_regSet (o : Nat) (v : W32) : regGet (regSet s o v) o = v := tget_tset_same _ _ _ _

@[simp] theorem regGet_regSet_ne (o p : Nat) (v : W32) (h : p ≠ o) : regGet (regSet s o v) p = regGet s p :=
  tget_tset_ne _ _ _ _ _ _ h

@[simp] theorem taskAt_setTask (c : Core) (t : Nat) (x : Task) : taskAt (setTask c t x) t = x := tget_tset_same _ _ _ _

@[simp] theorem taskAt_setTask_ne (c : Core) (t u : Nat) (x : Task) (h : u ≠ t) : taskAt (setTask c t x) u = taskAt c u :=
  tget_tset_ne _ _ _ _ _ _ h

@[simp] theorem taskAt_modTask (c : Core) (t : Nat) (f : Task → Task) : taskAt (modTask c t f) t = f (taskAt c t) :=
  tget_tset_same _ _ _ _

@[simp] theorem taskAt_modTask_ne (c : Core) (t u : Nat) (f : Task → Task) (h : u ≠ t) :
    taskAt (modTask c t f) u = taskAt c u :=
  tget_tset_ne _ _ _ _ _ _ h

end Sys2Proof.Machine
end

