-- ==== Sys2Proof/Laws/Log.lean ====
section
/-! SUPPORT. What counting, the event log and the trace change: the log, the trace and register bits, and nothing else. -/

namespace Sys2Proof.Machine

open Sys2Proof

/-- A state that differs from `s` in the log and the stored register bits alone. -/
def logRegs (s t : State) : Prop := ∃ l r, t = { s with log := l, regs := r }

theorem logRegs_refl (s : State) : logRegs s s := ⟨s.log, s.regs, rfl⟩

theorem logRegs_trans {s t u : State} (h : logRegs s t) (k : logRegs t u) : logRegs s u := by
  obtain ⟨l, r, rfl⟩ := h
  obtain ⟨l', r', rfl⟩ := k
  exact ⟨l', r', rfl⟩

theorem logRegs_regSet (s : State) (o : Nat) (v : W32) : logRegs s (regSet s o v) := ⟨s.log, _, rfl⟩

theorem logRegs_log (s : State) (l : Log) : logRegs s { s with log := l } := ⟨l, s.regs, rfl⟩

theorem logHold_logRegs (s : State) (r : Rec) (d : Option LogOwner) : logRegs s (logHold s r d) := by
  unfold logHold
  repeat' split
  all_goals exact logRegs_log s _

/-- An occurrence and a count change the log and register bits alone. -/
theorem logStep_logRegs (n : Nat) (s : State) (r : Option Rec) (off k : Nat) : logRegs s (logStep n s r off k) := by
  induction n generalizing s r off k with
  | zero => exact logRegs_refl s
  | succ n ih =>
    cases r with
    | none =>
      simp only [logStep]
      split
      · split
        · exact logRegs_regSet s _ _
        · exact logRegs_trans (logRegs_regSet s _ _) (ih _ _ _ _)
      · split
        · exact logRegs_trans (logRegs_regSet s _ _) (ih _ _ _ _)
        · exact logRegs_regSet s _ _
      · exact logRegs_regSet s _ _
    | some r =>
      simp only [logStep]
      split
      · split
        · exact logRegs_trans (logRegs_log s _) (ih _ _ _ _)
        · split
          · split
            · exact logRegs_trans (logRegs_log s _) (logRegs_log _ _)
            · exact logRegs_trans (logRegs_log s _) (logRegs_trans (logRegs_log _ _) (ih _ _ _ _))
          · split
            · exact logRegs_log s _
            · exact logRegs_trans (logRegs_log s _) (ih _ _ _ _)
      · exact logHold_logRegs s r none

theorem countBy_logRegs (s : State) (off k : Nat) : logRegs s (countBy s off k) := by
  unfold countBy
  split
  · exact logRegs_refl s
  · exact logStep_logRegs _ _ _ _ _

theorem count_logRegs (s : State) (off : Nat) : logRegs s (count s off) := countBy_logRegs s off 1

theorem countIf_logRegs (s : State) (b : Bool) (off : Nat) : logRegs s (countIf s b off) := by
  unfold countIf
  split
  · exact count_logRegs s off
  · exact logRegs_refl s

theorem event_logRegs (s : State) (cls source kind sub unit payload : Nat) (jobtag : W32) (tag : Nat) :
    logRegs s (event s cls source kind sub unit payload jobtag tag) := logStep_logRegs _ _ _ _ _

theorem logSummary_logRegs (s : State) : logRegs s (logSummary s) := by
  unfold logSummary
  split
  · exact logRegs_log s _
  · exact logRegs_refl s

/-- A trace record enters its queue, or is counted as dropped. -/
theorem trace_frame' (s : State) (kind unit : Nat) (jobtag : W32) (tag task pc : Nat) (isCore sealedUnit : Bool)
    (data : Nat) : ∃ l r tr, trace s kind unit jobtag tag task pc isCore sealedUnit data
      = { s with log := l, regs := r, trace := tr } := by
  unfold trace
  simp only []
  split
  · exact ⟨s.log, s.regs, s.trace, rfl⟩
  · split
    · exact ⟨s.log, s.regs, s.trace, rfl⟩
    · split
      · obtain ⟨l, r, h⟩ := count_logRegs s oTraceDrop
        exact ⟨l, r, s.trace, h⟩
      · exact ⟨s.log, s.regs, _, rfl⟩

variable (s : State)

@[simp] theorem countBy_frame (off k : Nat) :
    (countBy s off k).pending = s.pending ∧ (countBy s off k).time = s.time ∧ (countBy s off k).free = s.free ∧
    (countBy s off k).fuses = s.fuses ∧ (countBy s off k).otp = s.otp ∧ (countBy s off k).pins = s.pins ∧
    (countBy s off k).flash = s.flash ∧ (countBy s off k).power = s.power ∧ (countBy s off k).sensors = s.sensors ∧
    (countBy s off k).effect = s.effect ∧ (countBy s off k).phase = s.phase ∧
    (countBy s off k).lastReset = s.lastReset ∧ (countBy s off k).bootDone = s.bootDone ∧
    (countBy s off k).resetHeld = s.resetHeld ∧ (countBy s off k).ctl = s.ctl ∧ (countBy s off k).trace = s.trace ∧
    (countBy s off k).dram = s.dram ∧ (countBy s off k).dramErr = s.dramErr ∧ (countBy s off k).poison = s.poison ∧
    (countBy s off k).scratch = s.scratch ∧ (countBy s off k).scratchPoison = s.scratchPoison ∧
    (countBy s off k).window = s.window ∧ (countBy s off k).stks = s.stks ∧ (countBy s off k).chans = s.chans ∧
    (countBy s off k).querns = s.querns ∧ (countBy s off k).jobs = s.jobs ∧ (countBy s off k).nextId = s.nextId ∧
    (countBy s off k).groups = s.groups ∧ (countBy s off k).pk1 = s.pk1 ∧ (countBy s off k).cores = s.cores ∧
    (countBy s off k).coreOps = s.coreOps ∧ (countBy s off k).launches = s.launches ∧
    (countBy s off k).stops = s.stops ∧ (countBy s off k).dmas = s.dmas ∧ (countBy s off k).sluices = s.sluices ∧
    (countBy s off k).rings = s.rings ∧ (countBy s off k).admitted = s.admitted ∧ (countBy s off k).msix = s.msix ∧
    (countBy s off k).frontStopped = s.frontStopped ∧ (countBy s off k).cfgQueue = s.cfgQueue ∧
    (countBy s off k).commit = s.commit ∧ (countBy s off k).ctlHeld = s.ctlHeld ∧ (countBy s off k).link = s.link ∧
    (countBy s off k).twin = s.twin ∧ (countBy s off k).sec = s.sec ∧ (countBy s off k).outbox = s.outbox := by
  obtain ⟨l, r, h⟩ := countBy_logRegs s off k
  rw [h]
  exact ⟨rfl, rfl, rfl, rfl, rfl, rfl, rfl, rfl, rfl, rfl, rfl, rfl, rfl, rfl, rfl, rfl, rfl, rfl, rfl, rfl, rfl, rfl,
    rfl, rfl, rfl, rfl, rfl, rfl, rfl, rfl, rfl, rfl, rfl, rfl, rfl, rfl, rfl, rfl, rfl, rfl, rfl, rfl, rfl, rfl,
    rfl, rfl⟩

@[simp] theorem count_frame (off : Nat) :
    (count s off).pending = s.pending ∧ (count s off).time = s.time ∧ (count s off).free = s.free ∧
    (count s off).fuses = s.fuses ∧ (count s off).otp = s.otp ∧ (count s off).pins = s.pins ∧
    (count s off).flash = s.flash ∧ (count s off).power = s.power ∧ (count s off).sensors = s.sensors ∧
    (count s off).effect = s.effect ∧ (count s off).phase = s.phase ∧ (count s off).lastReset = s.lastReset ∧
    (count s off).bootDone = s.bootDone ∧ (count s off).resetHeld = s.resetHeld ∧ (count s off).ctl = s.ctl ∧
    (count s off).trace = s.trace ∧ (count s off).dram = s.dram ∧ (count s off).dramErr = s.dramErr ∧
    (count s off).poison = s.poison ∧ (count s off).scratch = s.scratch ∧
    (count s off).scratchPoison = s.scratchPoison ∧ (count s off).window = s.window ∧ (count s off).stks = s.stks ∧
    (count s off).chans = s.chans ∧ (count s off).querns = s.querns ∧ (count s off).jobs = s.jobs ∧
    (count s off).nextId = s.nextId ∧ (count s off).groups = s.groups ∧ (count s off).pk1 = s.pk1 ∧
    (count s off).cores = s.cores ∧ (count s off).coreOps = s.coreOps ∧ (count s off).launches = s.launches ∧
    (count s off).stops = s.stops ∧ (count s off).dmas = s.dmas ∧ (count s off).sluices = s.sluices ∧
    (count s off).rings = s.rings ∧ (count s off).admitted = s.admitted ∧ (count s off).msix = s.msix ∧
    (count s off).frontStopped = s.frontStopped ∧ (count s off).cfgQueue = s.cfgQueue ∧
    (count s off).commit = s.commit ∧ (count s off).ctlHeld = s.ctlHeld ∧ (count s off).link = s.link ∧
    (count s off).twin = s.twin ∧ (count s off).sec = s.sec ∧ (count s off).outbox = s.outbox := by
  obtain ⟨l, r, h⟩ := count_logRegs s off
  rw [h]
  exact ⟨rfl, rfl, rfl, rfl, rfl, rfl, rfl, rfl, rfl, rfl, rfl, rfl, rfl, rfl, rfl, rfl, rfl, rfl, rfl, rfl, rfl, rfl,
    rfl, rfl, rfl, rfl, rfl, rfl, rfl, rfl, rfl, rfl, rfl, rfl, rfl, rfl, rfl, rfl, rfl, rfl, rfl, rfl, rfl, rfl,
    rfl, rfl⟩

@[simp] theorem countIf_frame (b : Bool) (off : Nat) :
    (countIf s b off).pending = s.pending ∧ (countIf s b off).time = s.time ∧ (countIf s b off).free = s.free ∧
    (countIf s b off).fuses = s.fuses ∧ (countIf s b off).otp = s.otp ∧ (countIf s b off).pins = s.pins ∧
    (countIf s b off).flash = s.flash ∧ (countIf s b off).power = s.power ∧ (countIf s b off).sensors = s.sensors ∧
    (countIf s b off).effect = s.effect ∧ (countIf s b off).phase = s.phase ∧
    (countIf s b off).lastReset = s.lastReset ∧ (countIf s b off).bootDone = s.bootDone ∧
    (countIf s b off).resetHeld = s.resetHeld ∧ (countIf s b off).ctl = s.ctl ∧ (countIf s b off).trace = s.trace ∧
    (countIf s b off).dram = s.dram ∧ (countIf s b off).dramErr = s.dramErr ∧ (countIf s b off).poison = s.poison ∧
    (countIf s b off).scratch = s.scratch ∧ (countIf s b off).scratchPoison = s.scratchPoison ∧
    (countIf s b off).window = s.window ∧ (countIf s b off).stks = s.stks ∧ (countIf s b off).chans = s.chans ∧
    (countIf s b off).querns = s.querns ∧ (countIf s b off).jobs = s.jobs ∧ (countIf s b off).nextId = s.nextId ∧
    (countIf s b off).groups = s.groups ∧ (countIf s b off).pk1 = s.pk1 ∧ (countIf s b off).cores = s.cores ∧
    (countIf s b off).coreOps = s.coreOps ∧ (countIf s b off).launches = s.launches ∧
    (countIf s b off).stops = s.stops ∧ (countIf s b off).dmas = s.dmas ∧ (countIf s b off).sluices = s.sluices ∧
    (countIf s b off).rings = s.rings ∧ (countIf s b off).admitted = s.admitted ∧ (countIf s b off).msix = s.msix ∧
    (countIf s b off).frontStopped = s.frontStopped ∧ (countIf s b off).cfgQueue = s.cfgQueue ∧
    (countIf s b off).commit = s.commit ∧ (countIf s b off).ctlHeld = s.ctlHeld ∧ (countIf s b off).link = s.link ∧
    (countIf s b off).twin = s.twin ∧ (countIf s b off).sec = s.sec ∧ (countIf s b off).outbox = s.outbox := by
  obtain ⟨l, r, h⟩ := countIf_logRegs s b off
  rw [h]
  exact ⟨rfl, rfl, rfl, rfl, rfl, rfl, rfl, rfl, rfl, rfl, rfl, rfl, rfl, rfl, rfl, rfl, rfl, rfl, rfl, rfl, rfl, rfl,
    rfl, rfl, rfl, rfl, rfl, rfl, rfl, rfl, rfl, rfl, rfl, rfl, rfl, rfl, rfl, rfl, rfl, rfl, rfl, rfl, rfl, rfl,
    rfl, rfl⟩

@[simp] theorem event_frame (cls source kind sub unit payload : Nat) (jobtag : W32) (tag : Nat) :
    (event s cls source kind sub unit payload jobtag tag).pending = s.pending ∧
    (event s cls source kind sub unit payload jobtag tag).time = s.time ∧
    (event s cls source kind sub unit payload jobtag tag).free = s.free ∧
    (event s cls source kind sub unit payload jobtag tag).fuses = s.fuses ∧
    (event s cls source kind sub unit payload jobtag tag).otp = s.otp ∧
    (event s cls source kind sub unit payload jobtag tag).pins = s.pins ∧
    (event s cls source kind sub unit payload jobtag tag).flash = s.flash ∧
    (event s cls source kind sub unit payload jobtag tag).power = s.power ∧
    (event s cls source kind sub unit payload jobtag tag).sensors = s.sensors ∧
    (event s cls source kind sub unit payload jobtag tag).effect = s.effect ∧
    (event s cls source kind sub unit payload jobtag tag).phase = s.phase ∧
    (event s cls source kind sub unit payload jobtag tag).lastReset = s.lastReset ∧
    (event s cls source kind sub unit payload jobtag tag).bootDone = s.bootDone ∧
    (event s cls source kind sub unit payload jobtag tag).resetHeld = s.resetHeld ∧
    (event s cls source kind sub unit payload jobtag tag).ctl = s.ctl ∧
    (event s cls source kind sub unit payload jobtag tag).trace = s.trace ∧
    (event s cls source kind sub unit payload jobtag tag).dram = s.dram ∧
    (event s cls source kind sub unit payload jobtag tag).dramErr = s.dramErr ∧
    (event s cls source kind sub unit payload jobtag tag).poison = s.poison ∧
    (event s cls source kind sub unit payload jobtag tag).scratch = s.scratch ∧
    (event s cls source kind sub unit payload jobtag tag).scratchPoison = s.scratchPoison ∧
    (event s cls source kind sub unit payload jobtag tag).window = s.window ∧
    (event s cls source kind sub unit payload jobtag tag).stks = s.stks ∧
    (event s cls source kind sub unit payload jobtag tag).chans = s.chans ∧
    (event s cls source kind sub unit payload jobtag tag).querns = s.querns ∧
    (event s cls source kind sub unit payload jobtag tag).jobs = s.jobs ∧
    (event s cls source kind sub unit payload jobtag tag).nextId = s.nextId ∧
    (event s cls source kind sub unit payload jobtag tag).groups = s.groups ∧
    (event s cls source kind sub unit payload jobtag tag).pk1 = s.pk1 ∧
    (event s cls source kind sub unit payload jobtag tag).cores = s.cores ∧
    (event s cls source kind sub unit payload jobtag tag).coreOps = s.coreOps ∧
    (event s cls source kind sub unit payload jobtag tag).launches = s.launches ∧
    (event s cls source kind sub unit payload jobtag tag).stops = s.stops ∧
    (event s cls source kind sub unit payload jobtag tag).dmas = s.dmas ∧
    (event s cls source kind sub unit payload jobtag tag).sluices = s.sluices ∧
    (event s cls source kind sub unit payload jobtag tag).rings = s.rings ∧
    (event s cls source kind sub unit payload jobtag tag).admitted = s.admitted ∧
    (event s cls source kind sub unit payload jobtag tag).msix = s.msix ∧
    (event s cls source kind sub unit payload jobtag tag).frontStopped = s.frontStopped ∧
    (event s cls source kind sub unit payload jobtag tag).cfgQueue = s.cfgQueue ∧
    (event s cls source kind sub unit payload jobtag tag).commit = s.commit ∧
    (event s cls source kind sub unit payload jobtag tag).ctlHeld = s.ctlHeld ∧
    (event s cls source kind sub unit payload jobtag tag).link = s.link ∧
    (event s cls source kind sub unit payload jobtag tag).twin = s.twin ∧
    (event s cls source kind sub unit payload jobtag tag).sec = s.sec ∧
    (event s cls source kind sub unit payload jobtag tag).outbox = s.outbox := by
  obtain ⟨l, r, h⟩ := event_logRegs s cls source kind sub unit payload jobtag tag
  rw [h]
  exact ⟨rfl, rfl, rfl, rfl, rfl, rfl, rfl, rfl, rfl, rfl, rfl, rfl, rfl, rfl, rfl, rfl, rfl, rfl, rfl, rfl, rfl, rfl,
    rfl, rfl, rfl, rfl, rfl, rfl, rfl, rfl, rfl, rfl, rfl, rfl, rfl, rfl, rfl, rfl, rfl, rfl, rfl, rfl, rfl, rfl,
    rfl, rfl⟩

@[simp] theorem logSummary_frame :
    (logSummary s).pending = s.pending ∧ (logSummary s).time = s.time ∧ (logSummary s).free = s.free ∧
    (logSummary s).fuses = s.fuses ∧ (logSummary s).otp = s.otp ∧ (logSummary s).pins = s.pins ∧
    (logSummary s).flash = s.flash ∧ (logSummary s).power = s.power ∧ (logSummary s).sensors = s.sensors ∧
    (logSummary s).effect = s.effect ∧ (logSummary s).phase = s.phase ∧ (logSummary s).lastReset = s.lastReset ∧
    (logSummary s).bootDone = s.bootDone ∧ (logSummary s).resetHeld = s.resetHeld ∧ (logSummary s).ctl = s.ctl ∧
    (logSummary s).trace = s.trace ∧ (logSummary s).dram = s.dram ∧ (logSummary s).dramErr = s.dramErr ∧
    (logSummary s).poison = s.poison ∧ (logSummary s).scratch = s.scratch ∧
    (logSummary s).scratchPoison = s.scratchPoison ∧ (logSummary s).window = s.window ∧
    (logSummary s).stks = s.stks ∧ (logSummary s).chans = s.chans ∧ (logSummary s).querns = s.querns ∧
    (logSummary s).jobs = s.jobs ∧ (logSummary s).nextId = s.nextId ∧ (logSummary s).groups = s.groups ∧
    (logSummary s).pk1 = s.pk1 ∧ (logSummary s).cores = s.cores ∧ (logSummary s).coreOps = s.coreOps ∧
    (logSummary s).launches = s.launches ∧ (logSummary s).stops = s.stops ∧ (logSummary s).dmas = s.dmas ∧
    (logSummary s).sluices = s.sluices ∧ (logSummary s).rings = s.rings ∧ (logSummary s).admitted = s.admitted ∧
    (logSummary s).msix = s.msix ∧ (logSummary s).frontStopped = s.frontStopped ∧
    (logSummary s).cfgQueue = s.cfgQueue ∧ (logSummary s).commit = s.commit ∧ (logSummary s).ctlHeld = s.ctlHeld ∧
    (logSummary s).link = s.link ∧ (logSummary s).twin = s.twin ∧ (logSummary s).sec = s.sec ∧
    (logSummary s).outbox = s.outbox := by
  obtain ⟨l, r, h⟩ := logSummary_logRegs s
  rw [h]
  exact ⟨rfl, rfl, rfl, rfl, rfl, rfl, rfl, rfl, rfl, rfl, rfl, rfl, rfl, rfl, rfl, rfl, rfl, rfl, rfl, rfl, rfl, rfl,
    rfl, rfl, rfl, rfl, rfl, rfl, rfl, rfl, rfl, rfl, rfl, rfl, rfl, rfl, rfl, rfl, rfl, rfl, rfl, rfl, rfl, rfl,
    rfl, rfl⟩

@[simp] theorem trace_frame (kind unit : Nat) (jobtag : W32) (tag task pc : Nat) (isCore sealedUnit : Bool) (data : Nat) :
    (trace s kind unit jobtag tag task pc isCore sealedUnit data).pending = s.pending ∧
    (trace s kind unit jobtag tag task pc isCore sealedUnit data).time = s.time ∧
    (trace s kind unit jobtag tag task pc isCore sealedUnit data).free = s.free ∧
    (trace s kind unit jobtag tag task pc isCore sealedUnit data).fuses = s.fuses ∧
    (trace s kind unit jobtag tag task pc isCore sealedUnit data).otp = s.otp ∧
    (trace s kind unit jobtag tag task pc isCore sealedUnit data).pins = s.pins ∧
    (trace s kind unit jobtag tag task pc isCore sealedUnit data).flash = s.flash ∧
    (trace s kind unit jobtag tag task pc isCore sealedUnit data).power = s.power ∧
    (trace s kind unit jobtag tag task pc isCore sealedUnit data).sensors = s.sensors ∧
    (trace s kind unit jobtag tag task pc isCore sealedUnit data).effect = s.effect ∧
    (trace s kind unit jobtag tag task pc isCore sealedUnit data).phase = s.phase ∧
    (trace s kind unit jobtag tag task pc isCore sealedUnit data).lastReset = s.lastReset ∧
    (trace s kind unit jobtag tag task pc isCore sealedUnit data).bootDone = s.bootDone ∧
    (trace s kind unit jobtag tag task pc isCore sealedUnit data).resetHeld = s.resetHeld ∧
    (trace s kind unit jobtag tag task pc isCore sealedUnit data).ctl = s.ctl ∧
    (trace s kind unit jobtag tag task pc isCore sealedUnit data).dram = s.dram ∧
    (trace s kind unit jobtag tag task pc isCore sealedUnit data).dramErr = s.dramErr ∧
    (trace s kind unit jobtag tag task pc isCore sealedUnit data).poison = s.poison ∧
    (trace s kind unit jobtag tag task pc isCore sealedUnit data).scratch = s.scratch ∧
    (trace s kind unit jobtag tag task pc isCore sealedUnit data).scratchPoison = s.scratchPoison ∧
    (trace s kind unit jobtag tag task pc isCore sealedUnit data).window = s.window ∧
    (trace s kind unit jobtag tag task pc isCore sealedUnit data).stks = s.stks ∧
    (trace s kind unit jobtag tag task pc isCore sealedUnit data).chans = s.chans ∧
    (trace s kind unit jobtag tag task pc isCore sealedUnit data).querns = s.querns ∧
    (trace s kind unit jobtag tag task pc isCore sealedUnit data).jobs = s.jobs ∧
    (trace s kind unit jobtag tag task pc isCore sealedUnit data).nextId = s.nextId ∧
    (trace s kind unit jobtag tag task pc isCore sealedUnit data).groups = s.groups ∧
    (trace s kind unit jobtag tag task pc isCore sealedUnit data).pk1 = s.pk1 ∧
    (trace s kind unit jobtag tag task pc isCore sealedUnit data).cores = s.cores ∧
    (trace s kind unit jobtag tag task pc isCore sealedUnit data).coreOps = s.coreOps ∧
    (trace s kind unit jobtag tag task pc isCore sealedUnit data).launches = s.launches ∧
    (trace s kind unit jobtag tag task pc isCore sealedUnit data).stops = s.stops ∧
    (trace s kind unit jobtag tag task pc isCore sealedUnit data).dmas = s.dmas ∧
    (trace s kind unit jobtag tag task pc isCore sealedUnit data).sluices = s.sluices ∧
    (trace s kind unit jobtag tag task pc isCore sealedUnit data).rings = s.rings ∧
    (trace s kind unit jobtag tag task pc isCore sealedUnit data).admitted = s.admitted ∧
    (trace s kind unit jobtag tag task pc isCore sealedUnit data).msix = s.msix ∧
    (trace s kind unit jobtag tag task pc isCore sealedUnit data).frontStopped = s.frontStopped ∧
    (trace s kind unit jobtag tag task pc isCore sealedUnit data).cfgQueue = s.cfgQueue ∧
    (trace s kind unit jobtag tag task pc isCore sealedUnit data).commit = s.commit ∧
    (trace s kind unit jobtag tag task pc isCore sealedUnit data).ctlHeld = s.ctlHeld ∧
    (trace s kind unit jobtag tag task pc isCore sealedUnit data).link = s.link ∧
    (trace s kind unit jobtag tag task pc isCore sealedUnit data).twin = s.twin ∧
    (trace s kind unit jobtag tag task pc isCore sealedUnit data).sec = s.sec ∧
    (trace s kind unit jobtag tag task pc isCore sealedUnit data).outbox = s.outbox := by
  obtain ⟨l, r, tr, h⟩ := trace_frame' s kind unit jobtag tag task pc isCore sealedUnit data
  rw [h]
  exact ⟨rfl, rfl, rfl, rfl, rfl, rfl, rfl, rfl, rfl, rfl, rfl, rfl, rfl, rfl, rfl, rfl, rfl, rfl, rfl, rfl, rfl, rfl,
    rfl, rfl, rfl, rfl, rfl, rfl, rfl, rfl, rfl, rfl, rfl, rfl, rfl, rfl, rfl, rfl, rfl, rfl, rfl, rfl, rfl, rfl, rfl⟩

end Sys2Proof.Machine
end

