-- ==== Sys2Proof/Laws/Regs.lean ====
section
/-! SUPPORT. Which register bits counting, the log, the trace and a completion leave alone. -/

namespace Sys2Proof.Machine

open Sys2Proof

/-- A register that neither the log nor the trace counts in. -/
def notLogReg (p : Nat) : Prop := p ≠ oCoalCnt ∧ p ≠ oTraceDrop ∧ (∀ c, p ≠ oLogDrop c)

theorem regGet_log (s : State) (l : Log) (p : Nat) : regGet { s with log := l } p = regGet s p := rfl

theorem regGet_logHold (s : State) (r : Rec) (d : Option LogOwner) (p : Nat) : regGet (logHold s r d) p = regGet s p := by
  unfold logHold
  repeat' split
  all_goals rfl

theorem regGet_logStep (n : Nat) (s : State) (r : Option Rec) (off k p : Nat) (h : notLogReg p)
    (ho : r = none → p ≠ off) : regGet (logStep n s r off k) p = regGet s p := by
  induction n generalizing s r off k with
  | zero => rfl
  | succ n ih =>
    cases r with
    | none =>
      have hp := ho rfl
      simp only [logStep]
      split
      · split
        · exact regGet_regSet_ne s _ _ _ hp
        · rw [ih _ _ _ _ (by simp)]; exact regGet_regSet_ne s _ _ _ hp
      · split
        · rw [ih _ _ _ _ (by simp)]; exact regGet_regSet_ne s _ _ _ hp
        · exact regGet_regSet_ne s _ _ _ hp
      · exact regGet_regSet_ne s _ _ _ hp
    | some r =>
      simp only [logStep]
      split
      · split
        · rw [ih _ _ _ _ (fun _ => h.1)]; rfl
        · split
          · split
            · rfl
            · rw [ih _ _ _ _ (fun _ => h.2.2 _)]; rfl
          · split
            · rfl
            · rw [ih _ _ _ _ (fun _ => h.2.2 _)]; rfl
      · exact regGet_logHold s r none p

@[simp] theorem regGet_countBy (s : State) (off k p : Nat) (h : notLogReg p) (ho : p ≠ off) :
    regGet (countBy s off k) p = regGet s p := by
  unfold countBy
  split
  · rfl
  · exact regGet_logStep 6 s none off k p h (fun _ => ho)

@[simp] theorem regGet_count (s : State) (off p : Nat) (h : notLogReg p) (ho : p ≠ off) :
    regGet (count s off) p = regGet s p := regGet_countBy s off 1 p h ho

@[simp] theorem regGet_countIf (s : State) (b : Bool) (off p : Nat) (h : notLogReg p) (ho : p ≠ off) :
    regGet (countIf s b off) p = regGet s p := by
  unfold countIf
  split
  · exact regGet_count s off p h ho
  · rfl

@[simp] theorem regGet_event (s : State) (cls source kind sub unit payload : Nat) (jobtag : W32) (tag p : Nat)
    (h : notLogReg p) : regGet (event s cls source kind sub unit payload jobtag tag) p = regGet s p :=
  regGet_logStep 6 s _ 0 0 p h (by simp)

@[simp] theorem regGet_trace (s : State) (kind unit : Nat) (jobtag : W32) (tag task pc : Nat) (isCore sealedUnit : Bool)
    (data p : Nat) (h : notLogReg p) :
    regGet (trace s kind unit jobtag tag task pc isCore sealedUnit data) p = regGet s p := by
  unfold trace
  simp only []
  split
  · rfl
  · split
    · rfl
    · split
      · exact regGet_count s _ p h h.2.1
      · rfl

theorem regGet_msixRaise (s : State) (v p : Nat) : regGet (msixRaise s v) p = regGet s p := by
  unfold msixRaise
  simp only []
  split <;> rfl

theorem regGet_settleRing (s : State) (n p : Nat) : regGet (settleRing s n) p = regGet s p := by
  unfold settleRing
  split <;> rfl

theorem regGet_ringTrigger (s : State) (n : Nat) (b : Bool) (k p : Nat) :
    regGet (ringTrigger s n b k) p = regGet s p := by
  unfold ringTrigger ringInterrupt
  simp only []
  split
  · rw [regGet_msixRaise]; rfl
  · rfl

/-- A state that differs in what went to the host, or waits to go, alone. -/
def hostOut (s t : State) : Prop := ∃ he ou, t = { s with link := { s.link with held := he }, outbox := ou }

theorem hostOut_refl (s : State) : hostOut s s := ⟨s.link.held, s.outbox, rfl⟩

theorem hostOut_trans {s t u : State} (h : hostOut s t) (k : hostOut t u) : hostOut s u := by
  obtain ⟨_, _, rfl⟩ := h
  obtain ⟨he, ou, rfl⟩ := k
  exact ⟨he, ou, rfl⟩

theorem hostOut_hostSend (s : State) (o : Out) : hostOut s (hostSend s o) := by
  unfold hostSend
  split
  · exact ⟨s.link.held, _, rfl⟩
  · split
    · exact ⟨_, s.outbox, rfl⟩
    · exact hostOut_refl s

/-- A write of host memory leaves, or waits to leave. -/
theorem hostOut_hostWriteOut (s : State) (addr : Nat) (data : List Byte) (relaxed : Bool) :
    hostOut s (hostWriteOut s addr data relaxed) := by
  unfold hostWriteOut
  generalize hostCuts s 512 addr data.length = l
  have h : ∀ (f : State × Nat → Nat × Nat → HostReq) (a : State × Nat), hostOut s a.1 →
      hostOut s (l.foldl (fun a p => (hostSend a.1 (.hostWrite p.1 ((data.drop a.2).take p.2) relaxed (f a p)), a.2 + p.2))
        a).1 := by
    intro f
    induction l with
    | nil => exact fun a h => h
    | cons x r ih => exact fun a h => ih _ (hostOut_trans h (hostOut_hostSend _ _))
  exact h (fun _ p => if !coherent s then pcieReq s else if Config.peerAddress addr then .cxlIo
    else if p.2 = 64 then .itoMWr else .woWrInv) (s, 0) (hostOut_refl s)

theorem hostOut_hostReadOut (s : State) (addr len tag : Nat) (desc : Bool) :
    hostOut s (hostReadOut s addr len tag desc) := by
  unfold hostReadOut
  generalize hostCuts s 4096 addr len = l
  have h : ∀ (f : State → Nat × Nat → Out) (a : State), hostOut s a →
      hostOut s (l.foldl (fun s p => hostSend s (f s p)) a) := by
    intro f
    induction l with
    | nil => exact fun a h => h
    | cons x r ih => exact fun a h => ih _ (hostOut_trans h (hostOut_hostSend _ _))
  exact h (fun s p => .hostReadReq p.1 p.2 tag (if !coherent s then pcieReq s
    else if Config.peerAddress addr then .cxlIo else if desc then .rdShared else .rdCurr)) s (hostOut_refl s)

theorem regGet_hostOut {s t : State} (h : hostOut s t) (p : Nat) : regGet t p = regGet s p := by
  obtain ⟨_, _, rfl⟩ := h
  rfl

theorem regGet_setRing (s : State) (n : Nat) (x : Ring) (p : Nat) : regGet (setRing s n x) p = regGet s p := rfl

theorem regGet_writeRecord (s : State) (a : Adm) (x : Done) (p : Nat) (h : notLogReg p) (hl : p ≠ oLateCnt) :
    regGet (writeRecord s a x) p = regGet s p := by
  unfold writeRecord
  simp only []
  rw [regGet_ringTrigger, regGet_countIf _ _ _ _ h hl, regGet_trace _ _ _ _ _ _ _ _ _ _ _ h]
  exact (regGet_setRing _ _ _ p).trans (regGet_hostOut (hostOut_hostWriteOut s _ _ _) p)

/-- A completion leaves the registers alone, but for the count of late records. -/
@[simp] theorem regGet_complete (s : State) (did : Nat) (x : Done) (p : Nat) (h : notLogReg p) (hl : p ≠ oLateCnt) :
    regGet (complete s did x) p = regGet s p := by
  unfold complete
  split
  · rfl
  · simp only []
    rw [regGet_settleRing]
    split
    · rfl
    · rw [regGet_writeRecord _ _ _ _ h hl]; rfl

end Sys2Proof.Machine
end

