-- ==== Sys2Proof/Laws/Complete.lean ====
section
/-! SUPPORT. What a completion changes: the ring and its record, the host-bound messages, the counters, log and trace. -/

namespace Sys2Proof.Machine

open Sys2Proof

variable (s : State)

@[simp] theorem msixRaise_frame (v : Nat) :
    (msixRaise s v).pending = s.pending ∧ (msixRaise s v).time = s.time ∧ (msixRaise s v).free = s.free ∧
    (msixRaise s v).fuses = s.fuses ∧ (msixRaise s v).otp = s.otp ∧ (msixRaise s v).pins = s.pins ∧
    (msixRaise s v).flash = s.flash ∧ (msixRaise s v).power = s.power ∧ (msixRaise s v).sensors = s.sensors ∧
    (msixRaise s v).regs = s.regs ∧ (msixRaise s v).effect = s.effect ∧ (msixRaise s v).phase = s.phase ∧
    (msixRaise s v).lastReset = s.lastReset ∧ (msixRaise s v).bootDone = s.bootDone ∧
    (msixRaise s v).resetHeld = s.resetHeld ∧ (msixRaise s v).ctl = s.ctl ∧ (msixRaise s v).log = s.log ∧
    (msixRaise s v).trace = s.trace ∧ (msixRaise s v).dram = s.dram ∧ (msixRaise s v).dramErr = s.dramErr ∧
    (msixRaise s v).poison = s.poison ∧ (msixRaise s v).scratch = s.scratch ∧
    (msixRaise s v).scratchPoison = s.scratchPoison ∧ (msixRaise s v).window = s.window ∧
    (msixRaise s v).stks = s.stks ∧ (msixRaise s v).chans = s.chans ∧ (msixRaise s v).querns = s.querns ∧
    (msixRaise s v).jobs = s.jobs ∧ (msixRaise s v).nextId = s.nextId ∧ (msixRaise s v).groups = s.groups ∧
    (msixRaise s v).pk1 = s.pk1 ∧ (msixRaise s v).cores = s.cores ∧ (msixRaise s v).coreOps = s.coreOps ∧
    (msixRaise s v).launches = s.launches ∧ (msixRaise s v).stops = s.stops ∧ (msixRaise s v).dmas = s.dmas ∧
    (msixRaise s v).sluices = s.sluices ∧ (msixRaise s v).rings = s.rings ∧ (msixRaise s v).admitted = s.admitted ∧
    (msixRaise s v).frontStopped = s.frontStopped ∧ (msixRaise s v).cfgQueue = s.cfgQueue ∧
    (msixRaise s v).commit = s.commit ∧ (msixRaise s v).ctlHeld = s.ctlHeld ∧ (msixRaise s v).link = s.link ∧
    (msixRaise s v).twin = s.twin ∧ (msixRaise s v).sec = s.sec := by
  unfold msixRaise
  simp only []
  split <;> simp

@[simp] theorem ringInterrupt_frame (n : Nat) :
    (ringInterrupt s n).pending = s.pending ∧ (ringInterrupt s n).time = s.time ∧ (ringInterrupt s n).free = s.free ∧
    (ringInterrupt s n).fuses = s.fuses ∧ (ringInterrupt s n).otp = s.otp ∧ (ringInterrupt s n).pins = s.pins ∧
    (ringInterrupt s n).flash = s.flash ∧ (ringInterrupt s n).power = s.power ∧
    (ringInterrupt s n).sensors = s.sensors ∧ (ringInterrupt s n).regs = s.regs ∧
    (ringInterrupt s n).effect = s.effect ∧ (ringInterrupt s n).phase = s.phase ∧
    (ringInterrupt s n).lastReset = s.lastReset ∧ (ringInterrupt s n).bootDone = s.bootDone ∧
    (ringInterrupt s n).resetHeld = s.resetHeld ∧ (ringInterrupt s n).ctl = s.ctl ∧ (ringInterrupt s n).log = s.log ∧
    (ringInterrupt s n).trace = s.trace ∧ (ringInterrupt s n).dram = s.dram ∧
    (ringInterrupt s n).dramErr = s.dramErr ∧ (ringInterrupt s n).poison = s.poison ∧
    (ringInterrupt s n).scratch = s.scratch ∧ (ringInterrupt s n).scratchPoison = s.scratchPoison ∧
    (ringInterrupt s n).window = s.window ∧ (ringInterrupt s n).stks = s.stks ∧ (ringInterrupt s n).chans = s.chans ∧
    (ringInterrupt s n).querns = s.querns ∧ (ringInterrupt s n).jobs = s.jobs ∧
    (ringInterrupt s n).nextId = s.nextId ∧ (ringInterrupt s n).groups = s.groups ∧ (ringInterrupt s n).pk1 = s.pk1 ∧
    (ringInterrupt s n).cores = s.cores ∧ (ringInterrupt s n).coreOps = s.coreOps ∧
    (ringInterrupt s n).launches = s.launches ∧ (ringInterrupt s n).stops = s.stops ∧
    (ringInterrupt s n).dmas = s.dmas ∧ (ringInterrupt s n).sluices = s.sluices ∧
    (ringInterrupt s n).admitted = s.admitted ∧ (ringInterrupt s n).frontStopped = s.frontStopped ∧
    (ringInterrupt s n).cfgQueue = s.cfgQueue ∧ (ringInterrupt s n).commit = s.commit ∧
    (ringInterrupt s n).ctlHeld = s.ctlHeld ∧ (ringInterrupt s n).link = s.link ∧ (ringInterrupt s n).twin = s.twin ∧
    (ringInterrupt s n).sec = s.sec := by
  unfold ringInterrupt
  simp

@[simp] theorem ringTrigger_frame (n : Nat) (b : Bool) (k : Nat) :
    (ringTrigger s n b k).pending = s.pending ∧ (ringTrigger s n b k).time = s.time ∧
    (ringTrigger s n b k).free = s.free ∧ (ringTrigger s n b k).fuses = s.fuses ∧ (ringTrigger s n b k).otp = s.otp ∧
    (ringTrigger s n b k).pins = s.pins ∧ (ringTrigger s n b k).flash = s.flash ∧
    (ringTrigger s n b k).power = s.power ∧ (ringTrigger s n b k).sensors = s.sensors ∧
    (ringTrigger s n b k).regs = s.regs ∧ (ringTrigger s n b k).effect = s.effect ∧
    (ringTrigger s n b k).phase = s.phase ∧ (ringTrigger s n b k).lastReset = s.lastReset ∧
    (ringTrigger s n b k).bootDone = s.bootDone ∧ (ringTrigger s n b k).resetHeld = s.resetHeld ∧
    (ringTrigger s n b k).ctl = s.ctl ∧ (ringTrigger s n b k).log = s.log ∧ (ringTrigger s n b k).trace = s.trace ∧
    (ringTrigger s n b k).dram = s.dram ∧ (ringTrigger s n b k).dramErr = s.dramErr ∧
    (ringTrigger s n b k).poison = s.poison ∧ (ringTrigger s n b k).scratch = s.scratch ∧
    (ringTrigger s n b k).scratchPoison = s.scratchPoison ∧ (ringTrigger s n b k).window = s.window ∧
    (ringTrigger s n b k).stks = s.stks ∧ (ringTrigger s n b k).chans = s.chans ∧
    (ringTrigger s n b k).querns = s.querns ∧ (ringTrigger s n b k).jobs = s.jobs ∧
    (ringTrigger s n b k).nextId = s.nextId ∧ (ringTrigger s n b k).groups = s.groups ∧
    (ringTrigger s n b k).pk1 = s.pk1 ∧ (ringTrigger s n b k).cores = s.cores ∧
    (ringTrigger s n b k).coreOps = s.coreOps ∧ (ringTrigger s n b k).launches = s.launches ∧
    (ringTrigger s n b k).stops = s.stops ∧ (ringTrigger s n b k).dmas = s.dmas ∧
    (ringTrigger s n b k).sluices = s.sluices ∧ (ringTrigger s n b k).admitted = s.admitted ∧
    (ringTrigger s n b k).frontStopped = s.frontStopped ∧ (ringTrigger s n b k).cfgQueue = s.cfgQueue ∧
    (ringTrigger s n b k).commit = s.commit ∧ (ringTrigger s n b k).ctlHeld = s.ctlHeld ∧
    (ringTrigger s n b k).link = s.link ∧ (ringTrigger s n b k).twin = s.twin ∧
    (ringTrigger s n b k).sec = s.sec := by
  unfold ringTrigger
  simp only []
  split <;> simp

@[simp] theorem settleRing_frame (n : Nat) :
    (settleRing s n).pending = s.pending ∧ (settleRing s n).time = s.time ∧ (settleRing s n).free = s.free ∧
    (settleRing s n).fuses = s.fuses ∧ (settleRing s n).otp = s.otp ∧ (settleRing s n).pins = s.pins ∧
    (settleRing s n).flash = s.flash ∧ (settleRing s n).power = s.power ∧ (settleRing s n).sensors = s.sensors ∧
    (settleRing s n).regs = s.regs ∧ (settleRing s n).effect = s.effect ∧ (settleRing s n).phase = s.phase ∧
    (settleRing s n).lastReset = s.lastReset ∧ (settleRing s n).bootDone = s.bootDone ∧
    (settleRing s n).resetHeld = s.resetHeld ∧ (settleRing s n).ctl = s.ctl ∧ (settleRing s n).log = s.log ∧
    (settleRing s n).trace = s.trace ∧ (settleRing s n).dram = s.dram ∧ (settleRing s n).dramErr = s.dramErr ∧
    (settleRing s n).poison = s.poison ∧ (settleRing s n).scratch = s.scratch ∧
    (settleRing s n).scratchPoison = s.scratchPoison ∧ (settleRing s n).window = s.window ∧
    (settleRing s n).stks = s.stks ∧ (settleRing s n).chans = s.chans ∧ (settleRing s n).querns = s.querns ∧
    (settleRing s n).jobs = s.jobs ∧ (settleRing s n).nextId = s.nextId ∧ (settleRing s n).groups = s.groups ∧
    (settleRing s n).pk1 = s.pk1 ∧ (settleRing s n).cores = s.cores ∧ (settleRing s n).coreOps = s.coreOps ∧
    (settleRing s n).launches = s.launches ∧ (settleRing s n).stops = s.stops ∧ (settleRing s n).dmas = s.dmas ∧
    (settleRing s n).sluices = s.sluices ∧ (settleRing s n).admitted = s.admitted ∧ (settleRing s n).msix = s.msix ∧
    (settleRing s n).frontStopped = s.frontStopped ∧ (settleRing s n).cfgQueue = s.cfgQueue ∧
    (settleRing s n).commit = s.commit ∧ (settleRing s n).ctlHeld = s.ctlHeld ∧ (settleRing s n).link = s.link ∧
    (settleRing s n).twin = s.twin ∧ (settleRing s n).sec = s.sec ∧ (settleRing s n).outbox = s.outbox := by
  unfold settleRing
  split <;> simp

@[simp] theorem hostWriteOut_frame (a : Nat) (d : List Byte) (r : Bool) :
    (hostWriteOut s a d r).pending = s.pending ∧
    (hostWriteOut s a d r).time = s.time ∧
    (hostWriteOut s a d r).free = s.free ∧
    (hostWriteOut s a d r).fuses = s.fuses ∧
    (hostWriteOut s a d r).otp = s.otp ∧
    (hostWriteOut s a d r).pins = s.pins ∧
    (hostWriteOut s a d r).flash = s.flash ∧
    (hostWriteOut s a d r).power = s.power ∧
    (hostWriteOut s a d r).sensors = s.sensors ∧
    (hostWriteOut s a d r).regs = s.regs ∧
    (hostWriteOut s a d r).effect = s.effect ∧
    (hostWriteOut s a d r).phase = s.phase ∧
    (hostWriteOut s a d r).lastReset = s.lastReset ∧
    (hostWriteOut s a d r).bootDone = s.bootDone ∧
    (hostWriteOut s a d r).resetHeld = s.resetHeld ∧
    (hostWriteOut s a d r).ctl = s.ctl ∧
    (hostWriteOut s a d r).log = s.log ∧
    (hostWriteOut s a d r).trace = s.trace ∧
    (hostWriteOut s a d r).dram = s.dram ∧
    (hostWriteOut s a d r).dramErr = s.dramErr ∧
    (hostWriteOut s a d r).poison = s.poison ∧
    (hostWriteOut s a d r).scratch = s.scratch ∧
    (hostWriteOut s a d r).scratchPoison = s.scratchPoison ∧
    (hostWriteOut s a d r).window = s.window ∧
    (hostWriteOut s a d r).stks = s.stks ∧
    (hostWriteOut s a d r).chans = s.chans ∧
    (hostWriteOut s a d r).querns = s.querns ∧
    (hostWriteOut s a d r).jobs = s.jobs ∧
    (hostWriteOut s a d r).nextId = s.nextId ∧
    (hostWriteOut s a d r).groups = s.groups ∧
    (hostWriteOut s a d r).pk1 = s.pk1 ∧
    (hostWriteOut s a d r).cores = s.cores ∧
    (hostWriteOut s a d r).coreOps = s.coreOps ∧
    (hostWriteOut s a d r).launches = s.launches ∧
    (hostWriteOut s a d r).stops = s.stops ∧
    (hostWriteOut s a d r).dmas = s.dmas ∧
    (hostWriteOut s a d r).sluices = s.sluices ∧
    (hostWriteOut s a d r).admitted = s.admitted ∧
    (hostWriteOut s a d r).msix = s.msix ∧
    (hostWriteOut s a d r).frontStopped = s.frontStopped ∧
    (hostWriteOut s a d r).cfgQueue = s.cfgQueue ∧
    (hostWriteOut s a d r).commit = s.commit ∧
    (hostWriteOut s a d r).ctlHeld = s.ctlHeld ∧
    (hostWriteOut s a d r).twin = s.twin ∧
    (hostWriteOut s a d r).sec = s.sec ∧
    (hostWriteOut s a d r).rings = s.rings ∧
    (hostWriteOut s a d r).cause = s.cause ∧
    (hostWriteOut s a d r).turns = s.turns ∧
    (hostWriteOut s a d r).link.st = s.link.st ∧ (hostWriteOut s a d r).link.mode = s.link.mode := by
  obtain ⟨_, _, h⟩ := hostOut_hostWriteOut s a d r
  rw [h]
  simp

@[simp] theorem writeRecord_frame (a : Adm) (x : Done) :
    (writeRecord s a x).pending = s.pending ∧ (writeRecord s a x).time = s.time ∧ (writeRecord s a x).free = s.free ∧
    (writeRecord s a x).fuses = s.fuses ∧ (writeRecord s a x).otp = s.otp ∧ (writeRecord s a x).pins = s.pins ∧
    (writeRecord s a x).flash = s.flash ∧ (writeRecord s a x).power = s.power ∧
    (writeRecord s a x).sensors = s.sensors ∧ (writeRecord s a x).effect = s.effect ∧
    (writeRecord s a x).phase = s.phase ∧ (writeRecord s a x).lastReset = s.lastReset ∧
    (writeRecord s a x).bootDone = s.bootDone ∧ (writeRecord s a x).resetHeld = s.resetHeld ∧
    (writeRecord s a x).ctl = s.ctl ∧ (writeRecord s a x).dram = s.dram ∧ (writeRecord s a x).dramErr = s.dramErr ∧
    (writeRecord s a x).poison = s.poison ∧ (writeRecord s a x).scratch = s.scratch ∧
    (writeRecord s a x).scratchPoison = s.scratchPoison ∧ (writeRecord s a x).window = s.window ∧
    (writeRecord s a x).stks = s.stks ∧ (writeRecord s a x).chans = s.chans ∧ (writeRecord s a x).querns = s.querns ∧
    (writeRecord s a x).jobs = s.jobs ∧ (writeRecord s a x).nextId = s.nextId ∧
    (writeRecord s a x).groups = s.groups ∧ (writeRecord s a x).pk1 = s.pk1 ∧ (writeRecord s a x).cores = s.cores ∧
    (writeRecord s a x).coreOps = s.coreOps ∧ (writeRecord s a x).launches = s.launches ∧
    (writeRecord s a x).stops = s.stops ∧ (writeRecord s a x).dmas = s.dmas ∧
    (writeRecord s a x).sluices = s.sluices ∧ (writeRecord s a x).admitted = s.admitted ∧
    (writeRecord s a x).frontStopped = s.frontStopped ∧ (writeRecord s a x).cfgQueue = s.cfgQueue ∧
    (writeRecord s a x).commit = s.commit ∧ (writeRecord s a x).ctlHeld = s.ctlHeld ∧
    (writeRecord s a x).link.st = s.link.st ∧ (writeRecord s a x).twin = s.twin ∧ (writeRecord s a x).sec = s.sec := by
  unfold writeRecord
  simp

@[simp] theorem complete_frame (did : Nat) (x : Done) :
    (complete s did x).pending = s.pending ∧ (complete s did x).time = s.time ∧ (complete s did x).free = s.free ∧
    (complete s did x).fuses = s.fuses ∧ (complete s did x).otp = s.otp ∧ (complete s did x).pins = s.pins ∧
    (complete s did x).flash = s.flash ∧ (complete s did x).power = s.power ∧
    (complete s did x).sensors = s.sensors ∧ (complete s did x).effect = s.effect ∧
    (complete s did x).phase = s.phase ∧ (complete s did x).lastReset = s.lastReset ∧
    (complete s did x).bootDone = s.bootDone ∧ (complete s did x).resetHeld = s.resetHeld ∧
    (complete s did x).ctl = s.ctl ∧ (complete s did x).dram = s.dram ∧ (complete s did x).dramErr = s.dramErr ∧
    (complete s did x).poison = s.poison ∧ (complete s did x).scratch = s.scratch ∧
    (complete s did x).scratchPoison = s.scratchPoison ∧ (complete s did x).window = s.window ∧
    (complete s did x).stks = s.stks ∧ (complete s did x).chans = s.chans ∧ (complete s did x).querns = s.querns ∧
    (complete s did x).jobs = s.jobs ∧ (complete s did x).nextId = s.nextId ∧ (complete s did x).groups = s.groups ∧
    (complete s did x).pk1 = s.pk1 ∧ (complete s did x).cores = s.cores ∧ (complete s did x).coreOps = s.coreOps ∧
    (complete s did x).launches = s.launches ∧ (complete s did x).stops = s.stops ∧
    (complete s did x).dmas = s.dmas ∧ (complete s did x).sluices = s.sluices ∧
    (complete s did x).frontStopped = s.frontStopped ∧ (complete s did x).cfgQueue = s.cfgQueue ∧
    (complete s did x).commit = s.commit ∧ (complete s did x).ctlHeld = s.ctlHeld ∧
    (complete s did x).link.st = s.link.st ∧ (complete s did x).twin = s.twin ∧ (complete s did x).sec = s.sec := by
  unfold complete
  split
  · simp
  · simp only []
    split <;> simp

end Sys2Proof.Machine
end

