-- ==== Sys2Proof/Laws/CoreState.lean ====
section
/-! SUPPORT. What the end of a core's part, a trap, and the waiting loads and launches change. -/

namespace Sys2Proof.Machine

open Sys2Proof

/-- A state that differs from `s` in cores and their work, completions, counters, log and trace alone. -/
def coreWork (s t : State) : Prop :=
  ∃ cs co la st re lo tr ri ad ms ou he, t = { s with
    cores := cs, coreOps := co, launches := la, stops := st, regs := re, log := lo, trace := tr, rings := ri
    admitted := ad, msix := ms, outbox := ou, link := { s.link with held := he } }

theorem coreWork_refl (s : State) : coreWork s s := ⟨_, _, _, _, _, _, _, _, _, _, _, _, rfl⟩

theorem coreWork_trans {s t u : State} (h : coreWork s t) (k : coreWork t u) : coreWork s u := by
  obtain ⟨_, _, _, _, _, _, _, _, _, _, _, _, rfl⟩ := h
  obtain ⟨_, _, _, _, _, _, _, _, _, _, _, _, rfl⟩ := k
  exact ⟨_, _, _, _, _, _, _, _, _, _, _, _, rfl⟩

theorem coreWork_of {s t : State} (h : logRegs s t) : coreWork s t := by
  obtain ⟨_, _, rfl⟩ := h
  exact ⟨_, _, _, _, _, _, _, _, _, _, _, _, rfl⟩

theorem coreWork_modCore (s : State) (n : Nat) (f : Core → Core) : coreWork s (modCore s n f) :=
  ⟨_, _, _, _, _, _, _, _, _, _, _, _, rfl⟩

theorem coreWork_trace (s : State) (k u : Nat) (j : W32) (tag task pc : Nat) (a b : Bool) (d : Nat) :
    coreWork s (trace s k u j tag task pc a b d) := by
  obtain ⟨_, _, _, h⟩ := trace_frame' s k u j tag task pc a b d
  rw [h]
  exact ⟨_, _, _, _, _, _, _, _, _, _, _, _, rfl⟩

theorem coreWork_msixRaise (s : State) (v : Nat) : coreWork s (msixRaise s v) := by
  unfold msixRaise
  simp only []
  split <;> exact ⟨_, _, _, _, _, _, _, _, _, _, _, _, rfl⟩

theorem coreWork_ringTrigger (s : State) (n : Nat) (b : Bool) (k : Nat) : coreWork s (ringTrigger s n b k) := by
  unfold ringTrigger ringInterrupt
  simp only []
  split
  · refine coreWork_trans ?_ (coreWork_msixRaise _ _)
    exact ⟨_, _, _, _, _, _, _, _, _, _, _, _, rfl⟩
  · exact coreWork_refl s

theorem coreWork_writeRecord (s : State) (a : Adm) (x : Done) : coreWork s (writeRecord s a x) := by
  unfold writeRecord
  simp only []
  refine coreWork_trans (coreWork_trans (coreWork_trans ?_ (coreWork_trace _ _ _ _ _ _ _ _ _ _))
    (coreWork_of (countIf_logRegs _ _ _))) (coreWork_ringTrigger _ _ _ _)
  obtain ⟨_, _, h⟩ := hostOut_hostWriteOut s (cqBase s a.ring + 32 * (ringAt s a.ring).cqTail)
    (recordBytes s a (ringAt s a.ring) x) (relaxedWrite s (!a.fen && a.cls != 6))
  rw [h]
  exact ⟨_, _, _, _, _, _, _, _, _, _, _, _, rfl⟩

theorem coreWork_complete (s : State) (did : Nat) (x : Done) : coreWork s (complete s did x) := by
  unfold complete
  split
  · exact coreWork_refl s
  · rename_i a _
    have h1 : coreWork s { s with admitted := s.admitted.filter (fun b => b.did != did) } :=
      ⟨_, _, _, _, _, _, _, _, _, _, _, _, rfl⟩
    have h2 : ∀ u, coreWork s u → coreWork s (settleRing u a.ring) := fun u h => coreWork_trans h (by
      unfold settleRing
      split
      · exact ⟨_, _, _, _, _, _, _, _, _, _, _, _, rfl⟩
      · exact coreWork_refl u)
    simp only []
    split
    · exact h2 _ h1
    · exact h2 _ (coreWork_trans h1 (coreWork_writeRecord _ _ _))

theorem coreWork_fold {α : Type} (g : State → α → State) (h : ∀ s x, coreWork s (g s x)) (l : List α) (s : State) :
    coreWork s (l.foldl g s) := by
  induction l generalizing s with
  | nil => exact coreWork_refl s
  | cons x r ih => exact coreWork_trans (h s x) (ih _)

theorem coreWork_startLaunch (s : State) (did : Nat) (cores : List Nat) (prog jobtag : W32) :
    coreWork s (startLaunch s did cores prog jobtag) := by
  unfold startLaunch
  split
  · exact coreWork_complete _ _ _
  · refine coreWork_trans (coreWork_fold (fun s n => modCore s n (fun c => startCore c did jobtag))
      (fun s n => coreWork_modCore s n _) cores s) ?_
    exact ⟨_, _, _, _, _, _, _, _, _, _, _, _, rfl⟩

theorem coreWork_passOp (a : OpPass) (op : CoreOp) : coreWork a.s (passOp a op).s := by
  unfold passOp
  split
  · split
    · exact coreWork_startLaunch _ _ _ _ _
    · exact coreWork_refl _
  · simp only []
    split
    · exact coreWork_trans (coreWork_fold _ (fun s n => coreWork_modCore s n _) _ _) (coreWork_complete _ _ _)
    · exact coreWork_fold _ (fun s n => coreWork_modCore s n _) _ _
  · exact coreWork_fold _ (fun s n => coreWork_modCore s n _) _ _

theorem coreWork_pumpOps (s : State) : coreWork s (pumpOps s) := by
  unfold pumpOps
  simp only []
  have h : ∀ (l : List CoreOp) (a : OpPass), coreWork s a.s → coreWork s (l.foldl passOp a).s := by
    intro l
    induction l with
    | nil => exact fun a h => h
    | cons x r ih => exact fun a h => ih _ (coreWork_trans h (coreWork_passOp a x))
  refine coreWork_trans (h s.coreOps { s := { s with coreOps := [] } } ?_) ?_
  · exact ⟨_, _, _, _, _, _, _, _, _, _, _, _, rfl⟩
  · exact ⟨_, _, _, _, _, _, _, _, _, _, _, _, rfl⟩

theorem coreWork_settleStops (s : State) : coreWork s (settleStops s) := by
  unfold settleStops
  simp only []
  refine coreWork_trans ?_ (coreWork_fold (fun s (p : Nat × List Nat) => complete s p.1 {})
    (fun s p => coreWork_complete s _ _) _ _)
  exact ⟨_, _, _, _, _, _, _, _, _, _, _, _, rfl⟩

theorem coreWork_leaveLaunch (s : State) (n : Nat) : coreWork s (leaveLaunch s n) := by
  unfold leaveLaunch
  split
  · exact coreWork_refl s
  · simp only []
    split
    · refine coreWork_trans ?_ (coreWork_complete _ _ _)
      exact ⟨_, _, _, _, _, _, _, _, _, _, _, _, rfl⟩
    · exact ⟨_, _, _, _, _, _, _, _, _, _, _, _, rfl⟩

/-- The end of a core's part changes cores, completions and what they count alone. -/
theorem coreWork_settleCore (s : State) (n : Nat) : coreWork s (settleCore s n) := by
  unfold settleCore
  simp only []
  have h : ∀ u, coreWork s u → coreWork s (pumpOps (settleStops (leaveLaunch u n))) := fun u hu =>
    coreWork_trans hu (coreWork_trans (coreWork_leaveLaunch u n)
      (coreWork_trans (coreWork_settleStops _) (coreWork_pumpOps _)))
  split
  · exact coreWork_refl s
  · split
    · exact h _ (coreWork_modCore s n _)
    · split
      · exact h _ (coreWork_refl s)
      · exact coreWork_refl s

theorem coreWork_launches {s u : State} (h : coreWork s u) (l : List Launch) : coreWork s { u with launches := l } := by
  obtain ⟨_, _, _, _, _, _, _, _, _, _, _, _, rfl⟩ := h
  exact ⟨_, _, _, _, _, _, _, _, _, _, _, _, rfl⟩

/-- ... and so does a trap. -/
theorem coreWork_trapCore (s : State) (n cause task pc tag queue code : Nat) (more : Bool) :
    coreWork s (trapCore s n cause task pc tag queue code more) := by
  have hr : ∀ {u : State} (o : Nat) (v : W32), coreWork s u → coreWork s (regSet u o v) := fun o v h =>
    coreWork_trans h (coreWork_of (logRegs_regSet _ o v))
  unfold trapCore
  simp only []
  split
  · split
    · exact hr _ _ (coreWork_refl s)
    · exact coreWork_refl s
  · refine coreWork_trans ?_ (coreWork_settleCore _ n)
    split
    · apply coreWork_launches
      refine coreWork_trans (coreWork_trans (coreWork_trans ?_ (coreWork_of (event_logRegs _ _ _ _ _ _ _ _ _)))
        (coreWork_trace _ _ _ _ _ _ _ _ _ _)) (coreWork_modCore _ _ _)
      exact hr _ _ (hr _ _ (hr _ _ (coreWork_refl s)))
    · refine coreWork_trans (coreWork_trans (coreWork_trans ?_ (coreWork_of (event_logRegs _ _ _ _ _ _ _ _ _)))
        (coreWork_trace _ _ _ _ _ _ _ _ _ _)) (coreWork_modCore _ _ _)
      exact hr _ _ (hr _ _ (hr _ _ (coreWork_refl s)))

theorem coreWork_switchTask (s : State) (n tag task pc : Nat) : coreWork s (switchTask s n tag task pc) := by
  unfold switchTask
  split
  · exact coreWork_trans (coreWork_trans (coreWork_modCore s n _) (coreWork_of (count_logRegs _ _)))
      (coreWork_trace _ _ _ _ _ _ _ _ _ _)
  · exact coreWork_refl s

theorem coreWork_noteIssue (s : State) (f : Fetch) : coreWork s (noteIssue s f) :=
  coreWork_trans (coreWork_trans (coreWork_of (countIf_logRegs s _ _)) (coreWork_of (count_logRegs _ _)))
    (coreWork_trace _ _ _ _ _ _ _ _ _ _)

/-- Such a change keeps the queue and the fuses. -/
theorem coreWork_shield {s t : State} (h : coreWork s t) :
    t.pending = s.pending ∧ t.fuses = s.fuses ∧ t.otp = s.otp ∧ t.time = s.time := by
  obtain ⟨_, _, _, _, _, _, _, _, _, _, _, _, rfl⟩ := h
  exact ⟨rfl, rfl, rfl, rfl⟩

/-! ### Registers -/

/-- A register that only a trap or a register write changes. -/
def quietReg (p : Nat) : Prop := notLogReg p ∧ p ≠ oLateCnt

theorem regGet_fold {α : Type} (g : State → α → State) (p : Nat) (h : ∀ s x, regGet (g s x) p = regGet s p) (l : List α)
    (s : State) : regGet (l.foldl g s) p = regGet s p := by
  induction l generalizing s with
  | nil => rfl
  | cons x r ih => rw [List.foldl_cons, ih, h]

theorem regGet_modCore (s : State) (n : Nat) (f : Core → Core) (p : Nat) : regGet (modCore s n f) p = regGet s p := rfl

theorem regGet_startLaunch (s : State) (did : Nat) (cores : List Nat) (prog jobtag : W32) (p : Nat) (h : quietReg p) :
    regGet (startLaunch s did cores prog jobtag) p = regGet s p := by
  unfold startLaunch
  split
  · exact regGet_complete _ _ _ _ h.1 h.2
  · exact regGet_fold (fun s n => modCore s n (fun c => startCore c did jobtag)) p (fun s n => regGet_modCore s n _ p)
      cores s

theorem regGet_passOp (a : OpPass) (op : CoreOp) (p : Nat) (h : quietReg p) :
    regGet (passOp a op).s p = regGet a.s p := by
  unfold passOp
  split
  · split
    · exact regGet_startLaunch _ _ _ _ _ p h
    · rfl
  · simp only []
    split
    · rw [regGet_complete _ _ _ _ h.1 h.2, regGet_fold _ p (fun s n => regGet_modCore s n _ p)]
    · exact regGet_fold _ p (fun s n => regGet_modCore s n _ p) _ _
  · exact regGet_fold _ p (fun s n => regGet_modCore s n _ p) _ _

theorem regGet_settleCore (s : State) (n p : Nat) (h : quietReg p) : regGet (settleCore s n) p = regGet s p := by
  have hp : ∀ u : State, regGet (pumpOps u) p = regGet u p := by
    intro u
    unfold pumpOps
    simp only []
    have hf : ∀ (l : List CoreOp) (a : OpPass), regGet (l.foldl passOp a).s p = regGet a.s p := by
      intro l
      induction l with
      | nil => exact fun a => rfl
      | cons x r ih => exact fun a => by rw [List.foldl_cons, ih, regGet_passOp a x p h]
    exact (hf _ _).trans rfl
  have hs : ∀ u : State, regGet (settleStops u) p = regGet u p := by
    intro u
    unfold settleStops
    simp only []
    rw [regGet_fold _ p (fun s x => regGet_complete s _ _ p h.1 h.2)]
    rfl
  have hl : ∀ u : State, regGet (leaveLaunch u n) p = regGet u p := by
    intro u
    unfold leaveLaunch
    split
    · rfl
    · simp only []
      split
      · rw [regGet_complete _ _ _ p h.1 h.2]; rfl
      · rfl
  unfold settleCore
  simp only []
  split
  · rfl
  · split
    · rw [hp, hs, hl]; rfl
    · split
      · rw [hp, hs, hl]
      · rfl

end Sys2Proof.Machine
end

