-- ==== Sys2Proof/Laws/Exec.lean ====
section
/-! SUPPORT. How an outcome comes from a meaning, and what the issue of a core instruction is. -/

namespace Sys2Proof.Machine

open Sys2Proof

/-- A command whose operation keeps the queue and the fuses answers that operation's state. -/
theorem ran_eq {s t : State} (h1 : t.pending = s.pending) (h2 : t.fuses = s.fuses) (h3 : t.otp = s.otp) :
    ran s t = .next t := by
  unfold ran
  rw [← h1, ← h2, ← h3]

@[simp] theorem noteIssue_frame (s : State) (f : Fetch) :
    (noteIssue s f).pending = s.pending ∧ (noteIssue s f).fuses = s.fuses ∧ (noteIssue s f).otp = s.otp ∧
    (noteIssue s f).cores = s.cores ∧ (noteIssue s f).time = s.time ∧ (noteIssue s f).nextId = s.nextId ∧
    (noteIssue s f).dmas = s.dmas ∧ (noteIssue s f).scratch = s.scratch ∧ (noteIssue s f).sec = s.sec := by
  simp [noteIssue]

@[simp] theorem coreAt_noteIssue (s : State) (f : Fetch) (n : Nat) : coreAt (noteIssue s f) n = coreAt s n := by
  simp [coreAt]

/-- An instruction that issues has its effect on the state in which its issue is counted and traced. -/
theorem issue_eq {s : State} {n cls op : Nat} {f : Fetch} (h : Issues s n cls op f)
    (act : State → Fetch → State) : issue s n cls op waitOf act = act (noteIssue s f) f := by
  obtain ⟨h1, h2, h3, h4⟩ := h
  unfold issue
  simp [h1, h2, h3, h4]

/-- What is fetched is the current task's instruction on a running core. -/
theorem fetchOp_core {s : State} {n cls op : Nat} {f : Fetch} (h : fetchOp s n cls op = some f) :
    f.n = n ∧ f.c = coreAt s n ∧ f.t = (coreAt s n).current ∧ f.task = taskAt (coreAt s n) (coreAt s n).current
      ∧ f.w = tget 0 (coreAt s n).imem f.task.pc ∧ iClass f.w = cls ∧ iOp f.w = op ∧ (coreAt s n).st = .running := by
  unfold fetchOp fetchNext at h
  simp only [] at h
  split at h
  · rename_i g hg
    split at h
    · rename_i hw
      split at hg
      · cases hg
      · rename_i hc
        cases h
        cases hg
        simp only [not_or, Decidable.not_not] at hc
        exact ⟨rfl, rfl, rfl, rfl, rfl, hw.1, hw.2, hc.1⟩
    · cases h
  · cases h

@[simp] theorem issued_frame (s : State) (f : Fetch) (g : Core → Core) :
    (issued s f g).pending = s.pending ∧ (issued s f g).fuses = s.fuses ∧ (issued s f g).otp = s.otp := by
  simp [issued, retire]

@[simp] theorem issuedTask_frame (s : State) (f : Fetch) (g : Task → Task) :
    (issuedTask s f g).pending = s.pending ∧ (issuedTask s f g).fuses = s.fuses ∧ (issuedTask s f g).otp = s.otp := by
  simp [issuedTask]

end Sys2Proof.Machine
end

