-- ==== Sys2Proof/Laws/Memory.lean ====
section
/-! SUPPORT. What reads and writes of device addresses change: memory, what a stack does about its errors, the directory of
the window, counters and the log; never a core, a channel of the DMA unit, a ring, the queue or a fuse. -/

namespace Sys2Proof.Machine

open Sys2Proof

/-- A state that differs from `s` in memory and in what an access to memory reports or starts alone. -/
def memWork (s t : State) : Prop :=
  ∃ dr de po sc sp wi sk ch qu jo fl he re lo li ou fr, t = { s with
    dram := dr, dramErr := de, poison := po, scratch := sc, scratchPoison := sp, window := wi, stks := sk, chans := ch
    querns := qu, jobs := jo, flash := fl, ctlHeld := he, regs := re, log := lo, link := li, outbox := ou, free := fr }

theorem memWork_refl (s : State) : memWork s s := ⟨_, _, _, _, _, _, _, _, _, _, _, _, _, _, _, _, _, rfl⟩

theorem memWork_trans {s t u : State} (h : memWork s t) (k : memWork t u) : memWork s u := by
  obtain ⟨_, _, _, _, _, _, _, _, _, _, _, _, _, _, _, _, _, rfl⟩ := h
  obtain ⟨_, _, _, _, _, _, _, _, _, _, _, _, _, _, _, _, _, rfl⟩ := k
  exact ⟨_, _, _, _, _, _, _, _, _, _, _, _, _, _, _, _, _, rfl⟩

theorem memWork_of {s t : State} (h : logRegs s t) : memWork s t := by
  obtain ⟨_, _, rfl⟩ := h
  exact ⟨_, _, _, _, _, _, _, _, _, _, _, _, _, _, _, _, _, rfl⟩

theorem memWork_fold {α : Type} (g : State → α → State) (h : ∀ s x, memWork s (g s x)) (l : List α) (s : State) :
    memWork s (l.foldl g s) := by
  induction l generalizing s with
  | nil => exact memWork_refl s
  | cons x r ih => exact memWork_trans (h s x) (ih _)

theorem memWork_regSet (s : State) (o : Nat) (v : W32) : memWork s (regSet s o v) := memWork_of (logRegs_regSet s o v)
theorem memWork_event (s : State) (a b c d e p : Nat) (j : W32) (g : Nat) : memWork s (event s a b c d e p j g) :=
  memWork_of (event_logRegs s a b c d e p j g)
theorem memWork_count (s : State) (o : Nat) : memWork s (count s o) := memWork_of (count_logRegs s o)
theorem memWork_countIf (s : State) (b : Bool) (o : Nat) : memWork s (countIf s b o) := memWork_of (countIf_logRegs s b o)

/-! ### Stacks -/

theorem memWork_modStack (s : State) (k : Nat) (f : Stack → Stack) : memWork s (modStack s k f) :=
  ⟨_, _, _, _, _, _, _, _, _, _, _, _, _, _, _, _, _, rfl⟩
theorem memWork_modChan (s : State) (k c : Nat) (f : Chan → Chan) : memWork s (modChan s k c f) :=
  ⟨_, _, _, _, _, _, _, _, _, _, _, _, _, _, _, _, _, rfl⟩
theorem memWork_modQuern (s : State) (k c b : Nat) (f : Quern → Quern) : memWork s (modQuern s k c b f) :=
  ⟨_, _, _, _, _, _, _, _, _, _, _, _, _, _, _, _, _, rfl⟩
theorem memWork_emit (s : State) (o : Out) : memWork s (emit s o) :=
  ⟨_, _, _, _, _, _, _, _, _, _, _, _, _, _, _, _, _, rfl⟩
theorem memWork_recordSpare (s : State) (r : SpareRec) : memWork s (recordSpare s r) :=
  ⟨_, _, _, _, _, _, _, _, _, _, _, _, _, _, _, _, _, rfl⟩
theorem memWork_holdErr (s : State) (e : HeldErr) : memWork s (holdErr s e) :=
  ⟨_, _, _, _, _, _, _, _, _, _, _, _, _, _, _, _, _, rfl⟩

theorem memWork_jobOutcome (s : State) (id : Option Nat) (c code : Nat) : memWork s (jobOutcome s id c code) := by
  unfold jobOutcome
  split
  · exact ⟨_, _, _, _, _, _, _, _, _, _, _, _, _, _, _, _, _, rfl⟩
  · exact memWork_refl s

theorem memWork_noteStreamFlags (s : State) (k : Nat) (q : Quern) : memWork s (noteStreamFlags s k q) :=
  memWork_trans (memWork_countIf s _ _) (memWork_countIf _ _ _)

theorem memWork_resetQuerns (s : State) (k c : Nat) (bs : List Nat) : memWork s (resetQuerns s k c bs) :=
  memWork_fold _ (fun s _ => memWork_trans (memWork_noteStreamFlags s k _) (memWork_modQuern _ k c _ _)) bs s

theorem memWork_abortStack (s : State) (k : Nat) : memWork s (abortStack s k) := by
  refine memWork_fold _ (fun s c => ?_) _ _
  unfold abortChan
  simp only []
  split
  · exact memWork_refl s
  · exact memWork_trans (memWork_trans (memWork_resetQuerns s k c _) (memWork_jobOutcome _ _ _ _)) (memWork_modChan _ _ _ _)

theorem memWork_modSlot (s : State) (m : Bool) (d : TileId) (f : Slot → Slot) : memWork s (modSlot s m d f) := by
  unfold modSlot
  exact memWork_modChan s _ _ _

theorem memWork_tileGot (s : State) (x : Option (List Byte × List Bool)) (q : SeqReq) : memWork s (tileGot s x q) := by
  cases q with
  | tile off dests => exact memWork_fold _ (fun s d => memWork_modSlot s false d _) dests s
  | mill off d => exact memWork_modSlot s true d _
  | unit _ _ _ => exact memWork_refl s
  | quiet => exact memWork_refl s
  | access _ _ => exact memWork_refl s

theorem memWork_failReq (s : State) (r : FarReq) : memWork s (failReq s r) := by
  unfold failReq
  split
  · exact memWork_emit s _
  · split
    · exact memWork_modChan s _ _ _
    · exact memWork_jobOutcome s _ _ _
  · exact memWork_tileGot s _ _

theorem memWork_failStack (s : State) (k cause : Nat) : memWork s (failStack s k cause) := by
  unfold failStack
  split
  · exact memWork_refl s
  · exact memWork_trans (memWork_trans (memWork_trans (memWork_abortStack s k)
      (memWork_fold _ memWork_failReq _ _)) (memWork_modStack _ k _)) (memWork_event _ _ _ _ _ _ _ _ _)

theorem memWork_degradeChan (s : State) (k c b : Nat) : memWork s (degradeChan s k c b) := by
  unfold degradeChan
  split
  · exact memWork_refl s
  · have h := memWork_trans (memWork_modChan s k c (fun ch => { ch with spSt := .degraded }))
      (memWork_event _ 2 3 5 0 (chanUnit k c) b 0 0xFFF)
    simp only []
    split
    · exact memWork_trans h (memWork_failStack _ _ _)
    · exact h

theorem memWork_startMigration (s : State) (k c l : Nat) : memWork s (startMigration s k c l) :=
  memWork_trans (memWork_trans (memWork_modChan s k c _) (memWork_event _ _ _ _ _ _ _ _ _)) (memWork_recordSpare _ _)

theorem memWork_layerFailing (s : State) (k c l : Nat) (a : Bool) : memWork s (layerFailing s k c l a) := by
  unfold layerFailing
  simp only []
  split
  · exact memWork_refl s
  split
  · exact memWork_holdErr s _
  · split
    · split
      · exact memWork_startMigration s k c l
      · exact memWork_refl s
    · split
      · exact memWork_refl s
      · exact memWork_modChan s k c _
    · exact memWork_modChan s k c _
    · exact memWork_degradeChan s k c _
    · exact memWork_degradeChan s k c _
    · exact memWork_refl s

/-! ### What an access reports -/

theorem memWork_noteUe (s : State) (k c a b r d e : Nat) : memWork s (noteUe s k c a b r d e) := by
  unfold noteUe
  refine memWork_trans ?_ (memWork_event _ _ _ _ _ _ _ _ _)
  split
  · exact memWork_refl s
  · exact memWork_trans (memWork_regSet s _ _) (memWork_regSet _ _ _)

theorem memWork_noteCe (s : State) (k c p l : Nat) : memWork s (noteCe s k c p l) := by
  unfold noteCe
  simp only []
  split
  · exact memWork_trans (memWork_modStack s k _) (memWork_layerFailing _ _ _ _ _)
  · exact memWork_modStack s k _

theorem memWork_noteDecode (s : State) (k : Nat) (l : Loc) (p : Nat × Nat) (d : RowDec) :
    memWork s (noteDecode s k l p d) := by
  unfold noteDecode
  simp only []
  have h : memWork s (if d.beyond = true then noteUe (count s (oStk k kRowUe)) k l.chan p.1 p.2 l.row 0 4
      else if d.needed = true then count s (oStk k kRowFix) else s) := by
    split
    · exact memWork_trans (memWork_count s _) (memWork_noteUe _ _ _ _ _ _ _ _)
    · split
      · exact memWork_count s _
      · exact memWork_refl s
  split
  · exact memWork_trans h (memWork_layerFailing _ _ _ _ _)
  · exact h

theorem memWork_noteCol (s : State) (k : Nat) (l : Loc) (p : Nat × Nat) (kind col : Nat) (cls : ColCls) (f : Bool) :
    memWork s (noteCol s k l p kind col cls f) := by
  unfold noteCol
  refine memWork_trans ?_ (memWork_countIf _ _ _)
  split
  · exact memWork_trans (memWork_count s _) (memWork_noteCe _ _ _ _ _)
  · exact memWork_trans (memWork_count s _) (memWork_noteCe _ _ _ _ _)
  · exact memWork_trans (memWork_count s _) (memWork_noteUe _ _ _ _ _ _ _ _)
  · exact memWork_refl s

theorem memWork_requestRepair (s : State) (k : Nat) (l : Loc) : memWork s (requestRepair s k l) := by
  unfold requestRepair
  simp only []
  split
  · exact memWork_refl s
  · split
    · exact memWork_count s _
    · exact memWork_modStack s k _

theorem memWork_noteSeen (s : State) (k : Nat) (l : Loc) (d : RowDec) : memWork s (noteSeen s k l d) :=
  memWork_modStack s k _

theorem memWork_checkCols (s : State) (k : Nat) (l : Loc) (cols : List Nat) (w d : Bool) :
    memWork s (checkCols s k l cols w d).2 := by
  have h : ∀ (xs : List (Nat × ColCls)) (p : Nat × Nat) (g : Nat × ColCls → Bool),
      memWork s (xs.foldl (fun st x => noteCol st k l p 0 x.1 x.2 (g x)) s) := fun xs p g =>
    memWork_fold _ (fun s x => memWork_noteCol s k l p 0 _ _ _) xs s
  unfold checkCols
  simp only []
  split
  · exact h _ _ _
  · simp only []
    split
    · exact memWork_trans (memWork_trans (memWork_trans (h _ _ _) (memWork_noteDecode _ _ _ _ _))
        (memWork_requestRepair _ _ _)) (memWork_noteSeen _ _ _ _)
    · exact memWork_trans (h _ _ _) (memWork_noteDecode _ _ _ _ _)

theorem memWork_farReadCols (s : State) (k : Nat) (l : Loc) (cols : List Nat) : memWork s (farReadCols s k l cols).2 :=
  memWork_checkCols s k l _ _ _

theorem memWork_storeCol (s : State) (key col : Nat) (bs : List Byte) (p : Bool) : memWork s (storeCol s key col bs p) := by
  unfold storeCol setPoison
  simp only []
  split <;> exact ⟨_, _, _, _, _, _, _, _, _, _, _, _, _, _, _, _, _, rfl⟩

theorem memWork_storeCopies (s : State) (keys : List Nat) (col : Nat) (x : List Byte × Bool) :
    memWork s (storeCopies s keys col x) := memWork_fold _ (fun s key => memWork_storeCol s key col _ _) keys s

theorem memWork_storeKept (s : State) (keys : List Nat) (key : Nat) (cs : List (Nat × Nat × List Byte)) (d : RowDec) :
    memWork s (storeKept s keys key cs d) := memWork_fold _ (fun st c => memWork_storeCopies st keys c _) _ s

theorem memWork_writeCol (s0 s : State) (keys : List Nat) (key : Nat) (dec : Option RowDec) (c : Nat × Nat × List Byte)
    (p : Bool) : memWork s (writeCol s0 s keys key dec c p) := by
  unfold writeCol
  split
  · exact memWork_storeCopies s keys _ _
  · exact memWork_storeCopies s keys _ _

theorem memWork_flipApply (s : State) (k : Nat) (l : Loc) (col port : Nat) : memWork s (flipApply s k l col port) := by
  unfold flipApply
  simp only []
  split
  · refine memWork_trans ?_ (memWork_regSet _ _ _)
    exact ⟨_, _, _, _, _, _, _, _, _, _, _, _, _, _, _, _, _, rfl⟩
  · exact memWork_refl s

theorem memWork_farWritePiece (s : State) (k : Nat) (l : Loc) (off : Nat) (bs : List Byte) (ps : List Bool) (port : Nat) :
    memWork s (farWritePiece s k l off bs ps port) := by
  unfold farWritePiece
  simp only []
  generalize hr : checkCols s k l ((splitCols off bs).map (·.1) ++ [64, 65])
    (decide (off = 0) && bs.length == 2048) false = r
  have h0 : memWork s r.2 := hr ▸ memWork_checkCols s k l _ _ _
  have h1 : memWork s (match r.1 with
      | some d => storeKept r.2 (writeKeys s k l) (servedKey s k l) (splitCols off bs) d
      | none => r.2) := by
    split
    · exact memWork_trans h0 (memWork_storeKept _ _ _ _ _)
    · exact h0
  have h2 := memWork_trans h1 (memWork_fold (fun st (p : (Nat × Nat × List Byte) × Nat) =>
    writeCol s st (writeKeys s k l) (servedKey s k l) r.1 p.1 (ps.getD p.2 false))
    (fun st p => memWork_writeCol s st _ _ _ _ _) (splitCols off bs).zipIdx _)
  split
  · exact memWork_trans h2 (memWork_flipApply _ _ _ _ _)
  · exact h2

/-! ### The window and the scratchpads -/

theorem memWork_dirtyLine (s : State) (line : Nat) : memWork s (dirtyLine s line) :=
  memWork_fold _ (fun _ _ => ⟨_, _, _, _, _, _, _, _, _, _, _, _, _, _, _, _, _, rfl⟩) _ s

theorem memWork_setLine (s : State) (line : Nat) (x : LineSt) : memWork s (setLine s line x) :=
  ⟨_, _, _, _, _, _, _, _, _, _, _, _, _, _, _, _, _, rfl⟩

theorem memWork_windowSnoop (w : Bool) (s : State) (line : Nat) : memWork s (windowSnoop w s line) := by
  unfold windowSnoop
  simp only []
  split
  · exact memWork_refl s
  · refine memWork_trans ?_ (memWork_setLine _ _ _)
    have h : memWork s (if s.link.mode = .cxl3 then emit (count s oBisnpCnt) (.biSnoop line w)
        else emit s (.cxlResolve line)) := by
      split
      · exact memWork_trans (memWork_count s _) (memWork_emit _ _)
      · exact memWork_emit s _
    split
    · exact memWork_trans h (memWork_dirtyLine _ _)
    · exact h

theorem memWork_windowRead (s : State) (off len : Nat) : memWork s (windowRead s off len).2 :=
  memWork_fold _ (memWork_windowSnoop false) _ s

theorem memWork_windowWrite (s : State) (off : Nat) (bs : List Byte) : memWork s (windowWrite s off bs) :=
  memWork_trans (memWork_fold _ (memWork_windowSnoop true) (linesOf off bs.length) s)
    ⟨_, _, _, _, _, _, _, _, _, _, _, _, _, _, _, _, _, rfl⟩

theorem memWork_setLinePoison (s : State) (n line : Nat) (b : Bool) : memWork s (setLinePoison s n line b) := by
  unfold setLinePoison
  simp only []
  split <;> exact ⟨_, _, _, _, _, _, _, _, _, _, _, _, _, _, _, _, _, rfl⟩

theorem memWork_scratchWrite (s : State) (n off : Nat) (bs : List Byte) : memWork s (scratchWrite s n off bs) :=
  ⟨_, _, _, _, _, _, _, _, _, _, _, _, _, _, _, _, _, rfl⟩

/-! ### Ranges -/

theorem memWork_readPiece (s : State) (da len : Nat) : memWork s (readPiece s da len).2.2 := by
  unfold readPiece
  split
  · exact memWork_farReadCols s _ _ _
  · exact memWork_refl s
  · exact memWork_windowRead s _ _
  · exact memWork_refl s

/-- Everything that a read of a range of device addresses can change. -/
theorem memWork_daRead (s : State) (da len : Nat) : memWork s (daRead s da len).2.2 := by
  unfold daRead
  have h : ∀ (l : List (Nat × Nat)) (a : List Byte × List Bool × State), memWork s a.2.2 →
      memWork s (l.foldl (fun a p => let r := readPiece a.2.2 p.1 p.2; (a.1 ++ r.1, a.2.1 ++ r.2.1, r.2.2)) a).2.2 := by
    intro l
    induction l with
    | nil => exact fun a h => h
    | cons x r ih => exact fun a h => ih _ (memWork_trans h (memWork_readPiece _ _ _))
  exact h _ ([], [], s) (memWork_refl s)

/-- ... and a read for the work of a descriptor or an instruction (R14). -/
theorem memWork_readAs (s : State) (j : W32) (tag da len : Nat) : memWork s (readAs s j tag da len).2.2 := by
  obtain ⟨_, _, _, _, _, _, _, _, _, _, _, _, _, _, _, _, _, h⟩ := memWork_daRead { s with cause := (j, tag) } da len
  unfold readAs
  simp only [h]
  exact ⟨_, _, _, _, _, _, _, _, _, _, _, _, _, _, _, _, _, rfl⟩

theorem memWork_writePiece (s : State) (port : Nat → Nat) (da : Nat) (bs : List Byte) (ps : List Bool) :
    memWork s (writePiece s port da bs ps) := by
  unfold writePiece
  split
  · exact memWork_farWritePiece s _ _ _ _ _ _
  · simp only []
    split
    · exact memWork_trans (memWork_scratchWrite s _ _ _) (memWork_setLinePoison _ _ _ _)
    · split
      · exact memWork_trans (memWork_scratchWrite s _ _ _) (memWork_setLinePoison _ _ _ _)
      · exact memWork_scratchWrite s _ _ _
  · exact memWork_windowWrite s _ _
  · exact memWork_refl s

/-- ... and a write. -/
theorem memWork_daWrite (s : State) (port : Nat → Nat) (da : Nat) (bs : List Byte) (ps : List Bool) :
    memWork s (daWrite s port da bs ps) := by
  unfold daWrite
  have h : ∀ (l : List (Nat × Nat)) (a : State × Nat), memWork s a.1 →
      memWork s (l.foldl (fun a p =>
        let s := a.1
        let off := a.2
        let u := (da % 32 + off) / 32
        (writePiece s port p.1 ((bs.drop off).take p.2) (ps.drop u), off + p.2)) a).1 := by
    intro l
    induction l with
    | nil => exact fun a h => h
    | cons x r ih => exact fun a h => ih _ (memWork_trans h (memWork_writePiece _ _ _ _ _))
  exact h _ (s, 0) (memWork_refl s)

/-- Such a change keeps the queue, the fuses, the time and every core. -/
theorem memWork_shield {s t : State} (h : memWork s t) :
    t.pending = s.pending ∧ t.fuses = s.fuses ∧ t.otp = s.otp ∧ t.time = s.time ∧ t.cores = s.cores ∧ t.dmas = s.dmas
      ∧ t.rings = s.rings := by
  obtain ⟨_, _, _, _, _, _, _, _, _, _, _, _, _, _, _, _, _, rfl⟩ := h
  exact ⟨rfl, rfl, rfl, rfl, rfl, rfl, rfl⟩

end Sys2Proof.Machine
end

