-- ==== Sys2Proof/Tests/Slice0.lean ====
section
/-! SUPPORT. The author's tests: ill-formed operands are refused by name of their check; for each statement, states and
operands that meet its hypotheses; and a few worked values of the spec. -/

open Sys2Proof Sys2Proof.Machine

namespace Sys2Proof.Tests

set_option Elab.async false

/-! ### Small states -/

/-- An instruction: CLASS, OP, and fields as (lowest bit, value). -/
def word (cls op : Nat) (fields : List (Nat × Nat)) : W128 :=
  BitVec.ofNat 128 (cls + 16 * op + (fields.map (fun p => p.2 * 2 ^ p.1)).sum)

/-- A module in service: READY, ACTIVE, set up once, every stack READY, no floor. -/
def up : State :=
  { phase := 5, bootDone := true, regs := [(oCfgEpoch, 1)], power := { seqStep := 7, floor := false }
    stks := (List.range 12).map (fun k => (k, { st := .ready })) }

/-- ... with its link UP in the PCIe mode. -/
def linked : State := { up with link := { st := .up, rate := 4, width := 16 } }

/-- A core that runs one task on the instruction `w`. -/
def runs (w : W128) : Core :=
  { st := .running, imem := [(0, w)], tasks := [(0, { st := .ready })], ntask := 1, entries := [0], launch := some 7 }

/-- ... with the entry `e` in Q0. -/
def holds (e : W64) (c : Core) : Core := { c with queues := [(0, [{ rid := 0, entry := some e }])], nextRid := 1 }

def ofCore (c : Core) : State := { up with cores := [(0, c)] }

/-- Core 0 runs `w`. -/
def on (w : W128) : State := ofCore (runs w)

/-- ... with the entry `e` in Q0. -/
def onEntry (e : W64) (w : W128) : State := ofCore (holds e (runs w))

/-- What core 0 fetches for its current task. -/
def fet (s : State) : Fetch := fetchTask s 0 (coreAt s 0).current

/-- A handle of 64 bytes at offset 0x80, and a value. -/
def handle : W64 := mkHandle 0x80 64 0 false 5
def value : W64 := mkValue 9 false 5

/-- `s` with a register at a value. -/
def withReg (s : State) (o v : Nat) : State := regSet s o (w32 v)

/-- A descriptor of a class, with fields of word 0 as (lowest bit, value), and words 1 to 3. -/
def desc (cls : Nat) (w0 : List (Nat × Nat)) (w1 w2 w3 : Nat) : Desc :=
  { w0 := w64 (cls + (w0.map (fun p => p.2 * 2 ^ p.1)).sum), w1 := w64 w1, w2 := w64 w2, w3 := w64 w3 }

def taken (d : Desc) : RDesc := { did := 3, d := d, slot := 0, posted := false }

/-- `s` with `d` first in ring 0's queue. -/
def first (s : State) (d : Desc) : State :=
  { s with rings := [(0, { st := .running, queue := [taken d] })], nextId := 4
           admitted := [admOf 3 0 0 false d] }

/-- The state in which ring 0's first descriptor is handed over. -/
def handed (s : State) : State :=
  match frontChoice s 0 with
  | some x => { trace (count (checkHead (popRing s 0 x) 0 x).s (oRing 0 rDescCnt)) 4 0 (dJobtag x.d)
      (data := x.d.w0.toNat + put x.d.w1.toNat 64) with cause := (dJobtag x.d, 0xFFF) }
  | none => s
/-! ### Well-formed commands: one ill-formed command for each check -/

theorem test_wf_supply : ([.powerUp 65536, .inputCutThreshold 65536, .supplyFaultTimeout 65536, .powerMeasurement 65536 0,
    .powerMeasurement 0 65536] : List Instr).all (fun i => !i.wf) = true := by decide +kernel

theorem test_wf_sensor : ([.sensorSample 0 (some (-129)), .sensorSample 0 (some 128)] : List Instr).all (fun i => !i.wf)
    = true := by decide +kernel

def farOf (da : Nat) (req : FarOp) : Instr := .farPathRequest 0 0 none da req

/-- An address of 49 bits, reads of less and more than R56 allows and of no whole unit, and the same of writes, with a write
whose poison flags are not one per unit. -/
theorem test_wf_farPath : [farOf (2 ^ 48) (.read 32), farOf 0 (.read 0), farOf 0 (.read 2080), farOf 0 (.read 40),
    farOf 0 (.write [] []), farOf 0 (.write (List.replicate 2080 0) (List.replicate 65 false)),
    farOf 0 (.write (List.replicate 40 0) [false]), farOf 0 (.write (List.replicate 32 0) [])].all (fun i => !i.wf) = true
    ∧ [farOf 0 (.read 2048), farOf 0 (.write (List.replicate 64 0) [false, true])].all Instr.wf = true := by decide +kernel

theorem test_wf_stack : (Instr.stackLoadingComplete 0 true [2175, 2176]).wf = false ∧
    (Instr.stackLoadingComplete 0 true [2175]).wf = true := by decide +kernel

theorem test_wf_multicast : ([.multicastDelivery 65536, .multicastWaitTimeout 65536] : List Instr).all (fun i => !i.wf)
    = true := by decide +kernel

/-- Below and above the tables of R301, and not a word. -/
theorem test_wf_seqTable : ([.seqTableWrite 0x501FFC 0, .seqTableWrite 0x538000 0, .seqTableWrite 0x502002 0] :
    List Instr).all (fun i => !i.wf) = true ∧ (Instr.seqTableWrite 0x537FFC 0).wf = true := by decide +kernel

theorem test_wf_row : (Instr.pact 0 0 0 16384).wf = false ∧ (Instr.pact 0 0 0 16383).wf = true := by decide +kernel

theorem test_wf_ring : (Instr.ringSlotFetch 0 []).wf = false ∧
    (Instr.ringSlotFetch 0 (List.replicate 9 (desc 0 [] 0 0 0))).wf = false := by decide +kernel

theorem test_wf_link : ([.l0Reached 0 1 false, .l0Reached 6 1 false, .l0Reached 1 0 false, .l0Reached 1 5 false,
    .configRequest 4096 none] : List Instr).all (fun i => !i.wf) = true := by decide +kernel

theorem test_wf_host : ([.hostPostedWrite .bar0 0xFFFFFF [0, 0] {}, .hostRead .bar0 0xFFFFFF 2 {},
    .hostRead .bar2 0x3FFFFF 2 {}, .hostRead .window 0x3FFFFFF 2 {}, .hostLineSnoop (2 ^ 58)] : List Instr).all
    (fun i => !i.wf) = true ∧ (Instr.hostRead .window 0x3FFFFFF 1 {}).wf = true := by decide +kernel

/-- Each message with a CLASS of nine bits, and one with too many flits. -/
theorem test_wf_messages : (∀ h ∈ [({ cls := 256 } : MsgHeader), { flits := 1025 }], ([.heartbeat h {}, .control h .rePair,
    .ownerUpd h 0 0 (.fetch none), .ack h { cls := 3, ok := true, seq := 0 }, .replMessage h 0 0 0 0 0 { bytes := [] },
    .bulk h 0 0 0 { bytes := [] }, .recovery h {}, .reservedWilrilMessage h] :
    List Instr).all (fun i => !i.wf) = true) := by decide +kernel

theorem test_wf_log : (Instr.coalesceWindowEnd 64).wf = false := by decide +kernel

theorem test_wf_register : ([.registerWrite 2 0, .registerWrite 0x1000000 0, .jtagAccess (.readReg 0x1000000),
    .jtagAccess (.writeReg 0x1000000 0), .jtagAccess (.readMem (2 ^ 48) 1), .jtagAccess (.writeMem (2 ^ 48) [0])] :
    List Instr).all (fun i => !i.wf) = true := by decide +kernel

/-! ### The word decoder: the table gives no row bits -/

theorem test_decode_none : decodeTableWord 128 0 = none ∧ State.reset.withFetchWord 128 0 = State.reset := by decide +kernel

/-! ### Core instructions -/

/-- Every class and operation that waits for no queue issues (ControlFlow, ScalarMoves, ScalarArithmetic, ScalarLogic,
ScalarFlags, TrapCommands, TaskLife, QueueValues, Transfers, EngineIssue), and no handle is at fault. -/
theorem test_issues : ∀ p ∈ [(0, 8), (1, 20), (2, 10), (3, 3), (4, 4), (5, 3), (6, 2), (7, 1), (8, 4)],
    ∀ op < p.2, Issues (on (word p.1 op [])) 0 p.1 op (fet (on (word p.1 op []))) ∧
      srcsFaults (fet (on (word p.1 op []))) = [] := by decide +kernel

/-- LOOP with a count of 3 in the instruction, of 0, and with CPR; a FOREVER loop. -/
theorem test_ControlFlow_loop :
    (let f := fet (on (word 0 1 [(96, 3)])); Issues (on (word 0 1 [(96, 3)])) 0 0 1 f ∧
      (if bitOf f.w 74 then pGet f.c (fld f.w 80 75) else w32 (fld f.w 127 96)) = 3) ∧
    (let f := fet (on (word 0 1 [(74, 1)])); Issues (on (word 0 1 [(74, 1)])) 0 0 1 f ∧
      (if bitOf f.w 74 then pGet f.c (fld f.w 80 75) else w32 (fld f.w 127 96)) = 0 ∧ bitOf f.w 81 = false) ∧
    (let f := fet (on (word 0 1 [(81, 1)])); Issues (on (word 0 1 [(81, 1)])) 0 0 1 f ∧ bitOf f.w 81 = true) := by decide +kernel

/-- Every instruction whose predicate is false, and each of them by its own class and operation. -/
theorem test_ControlFlow_off : ((coreForms 1199).map (fun p => (p.2.1, p.2.2))).Nodup ∧
    ∀ p ∈ (coreForms 1199).map (fun p => (p.2.1, p.2.2)), let s := { up with cores := [(1199, runs (word p.1 p.2 [(55, 1)]))] }
      let f := fetchTask s 1199 0
      fetchOp s 1199 p.1 p.2 = some f ∧ fetchUe f = false ∧ flagOwned f.c f.t f.w = false ∧
        predOff f.task f.w = true := by decide +kernel

def lvl (n : Nat) : LoopLvl := { beg := 1, bend := n, left := 2, iter := 0, forever := false }

/-- BREAK out of four loops. -/
theorem test_ControlFlow_break :
    let s := ofCore { runs (word 0 2 [(64, 3)]) with tasks := [(0, { st := .ready, loops := [lvl 5, lvl 6, lvl 7, lvl 8] })] }
    Issues s 0 0 2 (fet s) ∧ (fet s).task.loops[fld (fet s).w 65 64]? = some (lvl 8) := by decide +kernel

/-- The last iteration and the one before it; a FOREVER loop. -/
theorem test_LoopEnd : ∀ p ∈ [(1, false), (2, false), (0, true)],
    let t : Task := { st := .ready, pc := 5, loops := [{ beg := 1, bend := 5, left := p.1, iter := 0, forever := p.2 }] }
    advanceFrom t 5 = (if p.1 = 1 then { t with loops := [], pc := 6 }
      else { t with loops := [{ beg := 1, bend := 5, left := p.1 - 1, iter := 1, forever := p.2 }], pc := 1 }) := by decide +kernel

/-- A BKPT that is enabled at level CUSTOMER; a reserved OP of CTRL, and a reserved CLASS. -/
theorem test_TrapCommands :
    (let s := { withReg (on (word 0 7 [])) (oCore 0 cCtl) 0x100 with sec := { debug := .customer } };
      Issues s 0 0 7 (fet s) ∧ regBit (noteIssue s (fet s)) (oCore 0 cCtl) 8 = true ∧ s.sec.debug ≠ .locked ∧
        (fet s).c.sealedBy = none) ∧
    (∀ s ∈ [on (word 0 7 []), { withReg (on (word 0 7 [])) (oCore 0 cCtl) 0x100 with sec := { debug := .locked } },
        withReg (ofCore { runs (word 0 7 []) with sealedBy := some 3 }) (oCore 0 cCtl) 0x100],
      Issues s 0 0 7 (fet s) ∧ (regBit (noteIssue s (fet s)) (oCore 0 cCtl) 8 = false ∨ s.sec.debug = .locked ∨
        (fet s).c.sealedBy.isSome = true)) ∧
    (∀ p ∈ [(0, 8), (15, 0)], let s := on (word p.1 p.2 []); fetchNext s 0 = some (fet s) ∧
      opCount (iClass (fet s).w) ≤ iOp (fet s).w ∧ fetchUe (fet s) = false ∧
      flagOwned (fet s).c (fet s).t (fet s).w = false ∧ predOff (fet s).task (fet s).w = false) := by decide +kernel

/-- A reserved encoding with two flipped bits in its first word, and one whose predicate is false. -/
theorem test_TrapCommands_reserved :
    (let s := ofCore { runs (word 0 8 []) with imemErr := [(0, 3)] }; fetchNext s 0 = some (fet s) ∧
      opCount (iClass (fet s).w) ≤ iOp (fet s).w ∧ fetchUe (fet s) = true) ∧
    (let s := on (word 9 1 [(55, 1)]); fetchNext s 0 = some (fet s) ∧
      opCount (iClass (fet s).w) ≤ iOp (fet s).w ∧ fetchUe (fet s) = false ∧
      flagOwned (fet s).c (fet s).t (fet s).w = false ∧ predOff (fet s).task (fet s).w = true) := by
  decide +kernel

/-- A first trap, alone and with another, and a later one. -/
theorem test_TrapEntry :
    (coreAt (on 0) 0).st = .running ∧ (on 0).coreOps = [] ∧
    (coreAt (trapCore (on 0) 0 11 0 0 5 0 7) 0).st = .trapped ∧
    regGet (trapCore (on 0) 0 11 0 0 5 0 7) (oCore 0 cTrap0) = 0x8000000B ∧
    regGet (trapCore (on 0) 0 11 0 0 5 0 7) (oCore 0 cTrap1) = 0x00070005 ∧
    regGet (trapCore (on 0) 0 2 3 1 5 9 0 true) (oCore 0 cTrap0) = 0xC0010302 ∧
    regGet (trapCore (on 0) 0 2 3 1 5 9 0 true) (oCore 0 cTrap1) = 0x00009005 ∧
    regGet (trapCore (trapCore (on 0) 0 11 0 0 5 0 7) 0 13 0 1 6) (oCore 0 cTrap0) = 0xC000000B := by decide +kernel

/-- TEND with another task ready, and of the last task. -/
theorem test_TaskLife_tend :
    (let s := ofCore { runs (word 0 5 []) with tasks := [(0, { st := .ready }), (3, { st := .ready })] };
      Issues s 0 0 5 (fet s) ∧ nextReady (coreAt s 0) = some 3 ∧ s.coreOps = []) ∧
    (let s := on (word 0 5 []); Issues s 0 0 5 (fet s) ∧ (coreAt s 0).tasks = [((fet s).t, (fet s).task)] ∧
      drained (coreAt s 0) = true ∧ (coreAt s 0).launch = some 7 ∧ s.coreOps = [] ∧ s.stops = []) := by decide +kernel

def blockedOn (b : Block) (w : W128) : Core :=
  { runs w with tasks := [(0, { st := .blocked, block := some b }), (1, { st := .ready })] }

/-- A stopped core that has drained; a blocked task whose condition is met; another one to switch to; a deadlock on a flag
that an engine instruction owns. -/
theorem test_TaskLife :
    (let s := ofCore { runs 0 with st := .stopping }; drained (coreAt s 0) = true ∧ (coreAt s 0).launch = some 7 ∧
      s.coreOps = [] ∧ s.stops = []) ∧
    (let s := ofCore (blockedOn .unit 0); (taskAt (coreAt s 0) 0).st = .blocked ∧ taskWait s 0 0 = none ∧
      (coreAt s 0).st = .running ∧ (taskAt (coreAt s 0) (coreAt s 0).current).st ≠ .ended ∧
      (taskAt (coreAt s 0) (coreAt s 0).current).st = .blocked ∧ nextReady (coreAt s 0) = some 1 ∧
      (coreAt s 0).sys = []) ∧
    (let s := withReg (ofCore { blockedOn .flag (word 1 14 []) with
        tasks := [(0, { st := .blocked, block := some .flag })]
        vecq := [{ task := 0, pc := 0, word := word 6 0 [(90, 1)], srcs := [], dsts := [] }] }) (oCore 0 cCtl) 0x10000;
      (coreAt s 0).st = .running ∧ regFld s (oCore 0 cCtl) 27 16 ≠ 0 ∧ (taskAt (coreAt s 0) 0).st = .blocked ∧
      (taskAt (coreAt s 0) 0).block = some .flag ∧ (taskWait s 0 0).isSome = true ∧
      (List.range 4).filter (fun j => decide ((taskAt (coreAt s 0) j).st ≠ .ended)) = [0]) := by decide +kernel

/-- PUSHH of a region that ends at the scratchpad's end, and beyond it; of one that is misaligned, and beyond it too. -/
theorem test_QueueValues_pushh : (∀ p ∈ [(0x40, true), (0x60, false)],
    let s := on (word 2 0 [(64, 524288 - 0x40), (90, p.1)])
    let f := fet s
    Issues s 0 2 0 f ∧ fld f.w 82 64 % 32 = 0 ∧ fld f.w 109 90 = p.1 ∧
      decide (fld f.w 82 64 + fld f.w 109 90 ≤ 524288) = p.2) ∧
    (∀ p ∈ [(0x18, false), (0x48, true)], let f := fet (on (word 2 0 [(64, 524288 - 0x40), (90, p.1)]))
      Issues (on (word 2 0 [(64, 524288 - 0x40), (90, p.1)])) 0 2 0 f ∧ fld f.w 109 90 % 32 ≠ 0 ∧
        decide (524288 < fld f.w 82 64 + fld f.w 109 90) = p.2) := by decide +kernel

/-- The instructions that use an entry, on a value and on a handle, that they may use or not. -/
theorem test_QueueEntries :
    (∀ op ∈ [2, 3, 4, 5], let s := onEntry value (word 2 op [(44, 1)]);
      Issues s 0 2 op (fet s) ∧ src0 (fet s) = value ∧ eKind value = 1 ∧ ePoison value = false) ∧
    (∀ op ∈ [3, 4, 5, 6, 7], let s := onEntry handle (word 2 op [(44, 1)]);
      Issues s 0 2 op (fet s) ∧ src0 (fet s) = handle ∧ handleFaults handle = []) ∧
    (∀ k ∈ [0, 1], let s := onEntry ([mkValue 9 true 5, mkHandle 0x80 64 0 true 5].getD k 0) (word 2 2 [(44, 1)]);
      Issues s 0 2 2 (fet s) ∧ ePoison (src0 (fet s)) = true) ∧
    (let s := onEntry handle (word 2 2 [(44, 1)]); Issues s 0 2 2 (fet s) ∧ ePoison (src0 (fet s)) = false ∧
      eKind (src0 (fet s)) ≠ 1) := by decide +kernel

/-- ... and on an entry of a reserved KIND, on a value in a handle's place, and on a handle with every fault. -/
theorem test_QueueTraps :
    (∀ op ∈ [3, 4, 5], let e : W64 := BitVec.ofNat 64 (2 ^ 63); let s := onEntry e (word 2 op [(44, 1)]);
      Issues s 0 2 op (fet s) ∧ 2 ≤ eKind (src0 (fet s))) ∧
    (∀ op ∈ [6, 7], let s := onEntry value (word 2 op [(44, 1)]);
      Issues s 0 2 op (fet s) ∧ handleFaults (src0 (fet s)) = [6]) ∧
    (∀ op ∈ [6, 7], let s := onEntry (mkHandle (524288 - 31) 64 14 false 5) (word 2 op [(44, 1)]);
      Issues s 0 2 op (fet s) ∧ eKind (src0 (fet s)) = 0 ∧ handleFaults (src0 (fet s)) = [4, 5, 6]) := by decide +kernel

/-- LD and ST with bytes to move, a ST of an empty region, and a FENCE. -/
theorem test_Transfers_issue :
    (∀ op ∈ [0, 1], let s := onEntry handle (word 3 op [(44, 1), (64, 0x400000000000)]);
      Issues s 0 3 op (fet s) ∧ memFaults (fet s) (src0 (fet s)) = [] ∧ eLen (src0 (fet s)) ≠ 0) ∧
    (∀ op ∈ [0, 1], let s := onEntry (mkHandle 0x80 0 0 true 5) (word 3 op [(44, 1), (47, 1), (36, 1), (64, 0x20)]);
      Issues s 0 3 op (fet s) ∧ memFaults (fet s) (src0 (fet s)) = [] ∧ eLen (src0 (fet s)) = 0 ∧
      iUseDst (fet s).w 0 = true) ∧
    Issues (on (word 3 2 [])) 0 3 2 (fet (on (word 3 2 []))) := by decide +kernel

def move (isStore : Bool) : Xfer :=
  { id := 4, task := 0, pc := 0, tag := 5, isStore := isStore, entry := handle, da := 0x100000080000 }

/-- A transfer between the scratchpads of cores 0 and 1. -/
theorem test_Transfers_move : ∀ b : Bool,
    let s := ofCore { runs 0 with xfers := [move b] }
    xferAt s 0 4 b = some (move b) ∧ xferHeld s 0 (move b) = false ∧
    rangeWaits s (move b).da (eLen handle) b = false ∧ (coreAt s 0).st = .running ∧ (coreAt s 0).sys = [] ∧
    goodPrefix s (coreAt s 0).sealedBy b (accessPieces s (move b).da (eLen handle)) = (eLen handle, none) ∧
    (move b).trapp = false ∧ allEnded (coreAt s 0) = false ∧ s.coreOps = [] := by decide +kernel

/-- A load with TRAPP 1 of a poisoned line of core 1; transfers whose second line lies beyond the last scratchpad, and on
sealed channels. -/
theorem test_Transfers_traps :
    (let x := { move false with trapp := true }
      let s := { ofCore { runs 0 with xfers := [x] } with scratchPoison := [16384] }
      let r := readAs s (coreAt s 0).jobtag x.tag x.da (eLen x.entry)
      let u := scratchFill (endXfer r.2.2 0 x) 0 (eOff x.entry) r.1 r.2.1;
      xferAt s 0 4 false = some x ∧ xferHeld s 0 x = false ∧ rangeWaits s x.da 64 = false ∧
      goodPrefix s (coreAt s 0).sealedBy false (accessPieces s x.da 64) = (64, none) ∧
      anyPoison (regionPoison u 0 (eOff x.entry) (eLen x.entry)) = true) ∧
    (∀ b : Bool, let x := { move b with da := 0x100000000000 + 1200 * 0x80000 - 32 }
      let s := ofCore { runs 0 with xfers := [x] };
      xferAt s 0 4 b = some x ∧ xferHeld s 0 x = false ∧ rangeWaits s x.da 64 b = false ∧
      goodPrefix s (coreAt s 0).sealedBy b (accessPieces s x.da 64) = (32, some 3)) ∧
    (∀ b : Bool, let x := { move b with da := 0 }
      let s := { ofCore { runs 0 with xfers := [x] } with
        sec := { pkgs := [(3, { st := .loaded, sealMap := (List.range 12).map (fun k => (k, 0xFFFFFFFF)) })] } };
      xferAt s 0 4 b = some x ∧ xferHeld s 0 x = false ∧ rangeWaits s x.da 64 b = false ∧ s.coreOps = [] ∧
      goodPrefix s (coreAt s 0).sealedBy b (accessPieces s x.da 64) = (0, some 8)) := by decide +kernel

/-- SIGNAL to a present core and to an absent one; one that its target takes; and EVENT. -/
theorem test_SystemInstructions :
    (let s := onEntry value (word 4 0 [(44, 1), (77, 1199)]);
      Issues s 0 4 0 (fet s) ∧ eKind (src0 (fet s)) < 2 ∧ corePresent s (sigTarget (fet s)) = true) ∧
    (let s := { onEntry value (word 4 0 [(44, 1), (77, 1199)]) with fuses := { grade := .select, absent := [1199] } };
      Issues s 0 4 0 (fet s) ∧ eKind (src0 (fet s)) < 2 ∧ corePresent s (sigTarget (fet s)) = false) ∧
    (∀ target ∈ [0, 1], let s := ofCore { runs 0 with
        tasks := [(0, { st := .blocked, block := some .signal, sig := some (target, value, false) })] };
      (taskAt (coreAt s 0) 0).sig = some (target, value, false) ∧ qFree (coreAt s target) 13 1 = true ∧
      (coreAt s 0).st = .running ∧ taskXfers (coreAt s 0) 0 = false ∧ coreHeld s 0 = false ∧
      coreHeld s target = false) ∧
    (let s := onEntry value (word 4 3 [(44, 1)]); Issues s 0 4 3 (fet s) ∧ iUseSrc (fet s).w 0 = true ∧
      eKind (src0 (fet s)) < 2 ∧ (noteIssue s (fet s)).log.waiting = [] ∧ generalFill (noteIssue s (fet s)).log < 256) := by
  decide +kernel

/-- With ORD and a store of the task outstanding, a SIGNAL waits; POST, DMAP and EVENT issue. -/
theorem test_SystemInstructions_late :
    (let s := ofCore { runs 0 with
        xfers := [move true]
        tasks := [(0, { st := .blocked, block := some .signal, sig := some (1, value, true) })] };
      (taskWait s 0 0).isSome = true) ∧
    (∀ op ∈ [1, 2, 3], let s := ofCore { holds handle (runs (word 4 op [(44, 1), (88, 1)])) with xfers := [move true] };
      Issues s 0 4 op (fet s) ∧ (bitOf (fet s).w 88 && taskXfers (coreAt s 0) (fet s).t) = true ∧
      descFaults (src0 (fet s)) = [] ∧ eKind (src0 (fet s)) < 2) := by decide +kernel

/-- POST to the last ring, which takes it; DMAP. -/
theorem test_SystemInstructions_desc :
    (let s := { withReg (withReg (onEntry handle (word 4 1 [(44, 1), (89, 1023)])) (oRing 1023 rCtl) 7) (oRing 1023 rCfg) 0x404
        with rings := [(1023, { st := .running })] };
      Issues s 0 4 1 (fet s) ∧ descFaults (src0 (fet s)) = [] ∧
      postTaken (noteIssue s (fet s)) (fld (fet s).w 98 89) = true) ∧
    (let s := onEntry handle (word 4 2 [(44, 1), (99, 3)]); Issues s 0 4 2 (fet s) ∧ descFaults (src0 (fet s)) = [] ∧
      iUseDst (fet s).w 1 = false) := by decide +kernel

/-- An engine instruction at the head of its queue. -/
def atEngine (matrix : Bool) (w : W128) (srcs : List (Option W64)) : Core :=
  let e : EngInstr := { task := 0, pc := 0, word := w, srcs := srcs, dsts := [], vl := 1, stages := [32] }
  if matrix then { runs 0 with matq := [e] } else { runs 0 with vecq := [e] }

def region (off len fmt : Nat) : Option W64 := some (mkHandle off len fmt false 5)

/-- MLDC, MSCL, and an MMA of KB 1 without and with FIN, pass their checks. -/
theorem test_MatrixComplete :
    (∀ p ∈ [(2, [], [region 0 1024 1]), (1, [(64, 1)], [region 0 32 0]),
        (0, [(64, 1)], [region 0 512 3, region 512 512 3]),
        (0, [(64, 1), (74, 1)], [region 0 512 3, region 512 512 3, region 1024 1024 0])],
      let c := atEngine true (word 5 p.1 p.2.1) p.2.2
      c.matq.map (matFault c) = [none] ∧ c.st = .running ∧ allEnded c = false ∧ coreHeld (ofCore c) 0 = false) := by
  decide +kernel

/-- Every class and operation passes its checks, and a state of its run: a reduction that leaves a value (OUTM 2), results in
place and in a region of their own, with FEN too; VQMX; the permutations. -/
theorem test_VectorComplete :
    (∀ p ∈ [((6, 0), [(71, 2)], [region 0 32 1]), ((6, 0), [(73, 1), (90, 1)], [region 0 32 1]),
        ((7, 0), [(71, 1), (73, 1)], [region 0 32 1, none, region 64 32 1]),
        ((6, 1), [(73, 8)], [region 0 32 1, none, region 64 64 1]),
        ((8, 0), [(71, 1)], [region 0 32 1, region 32 32 5, region 64 32 1]),
        ((8, 1), [(71, 1)], [region 0 32 1, region 32 32 5, region 64 32 1]), ((8, 2), [], [region 0 32 1]),
        ((8, 3), [(71, 1)], [region 0 32 1, none, region 64 64 1])],
      let c := atEngine false (word p.1.1 p.1.2 p.2.1) p.2.2
      c.vecq.map vecFault = [none] ∧ c.st = .running ∧ allEnded c = false ∧ coreHeld (ofCore c) 0 = false) ∧
    (let c := atEngine false (word 6 0 [(71, 2)]) [region 0 32 1];
      c.vecq.map (fun e => (runChain (ofCore c) 0 e).tap.isSome) = [true]) := by decide +kernel

/-- Of the eight lanes of a GATHER or SCATTER the first names an element that is not there and the others element 0, the
last as the highest; an EXPAND of sixteen lanes from eight elements. -/
theorem test_VectorComplete_lanes :
    (∀ op ∈ [0, 1], let c := atEngine false (word 8 op [(71, 1)]) [region 0 32 1, region 32 32 5, region 64 32 1]
      let s := scratchWrite (ofCore c) 0 32 [9]
      c.vecq.map (fun e => (activeLanes s 0 e, (List.range 8).map (laneIndex s 0 e 8)))
        = [((List.range 8).map (fun i => (i, false)), none :: List.replicate 7 (some 0))]) ∧
    (let c := atEngine false (word 8 3 [(71, 1)]) [region 0 32 1, none, region 64 64 1];
      c.vecq.map (fun e => ((activeLanes (ofCore c) 0 e).length, regionCount (engSrc e 0) (permBits e))) = [(16, 8)]) := by
  decide +kernel

/-! ### Descriptors and set-up -/

/-- A program of one TEND for core 0. -/
def imageCells : Memory :=
  ([(0, 80), (1, 75), (2, 51), (3, 80), (4, 1), (6, 1), (8, 1), (9, 2), (20, 240), (21, 1), (24, 119), (28, 160), (29, 235),
    (30, 199), (31, 210), (64, 1), (480, 80)] : List (Nat × Nat)).map (fun p => (p.1, BitVec.ofNat 8 p.2))

/-- LOAD of that program from the exchange window. -/
def loadDesc : Desc := desc 1 [] 0x200000000000 496 0
def loading : State := first { linked with window := imageCells } loadDesc

/-- LAUNCH and a stop request of core 0, a PATCH of its P63. -/
def launchDesc : Desc := desc 2 [] (0x10000 + 0x77 * 2 ^ 32) 0 0
def stopDesc : Desc := desc 2 [(8, 1)] 0x10000 0 0
def patchDesc : Desc := desc 3 [] 0x10000 0 (2 ^ 38 + 63 * 2 ^ 32 + 9)
/-- A DMA of 32 bytes between two scratchpads on a channel, from the host to the window, and a QUERN job. -/
def dmaDesc (g : Nat) : Desc := desc 4 [(16, g)] 0x100000000000 0x100000080000 (32 + 2 ^ 24)
def sluiceDesc : Desc := desc 4 [(22, 1)] 0x5000 0x200000000000 (32 + 2 ^ 24)
def quernDesc : Desc := desc 5 [(8, 11)] (2 ^ 31) 0 0

/-- Every class that is carried out is handed over, on the lowest ring. -/
theorem test_HandsOver : ∀ d ∈ [loadDesc, launchDesc, stopDesc, patchDesc, dmaDesc 0, dmaDesc 63, sluiceDesc, quernDesc, desc 5 [] 0 0 0,
    desc 6 [] 0 0 0, desc 7 [(8, 1)] 0 0 0, desc 7 [(8, 2)] 0 0 0, desc 7 [(8, 3)] 0 0 0, desc 8 [(8, 0xFFFF)] 1 2 0],
    frontChoice (first linked d) 0 = some (taken d) ∧ (checkHead (popRing (first linked d) 0 (taken d)) 0 (taken d)).fail = none := by
  decide +kernel

set_option maxRecDepth 200000 in
/-- The image is read, and the verifier finds nothing. -/
theorem test_Programs_load :
    frontChoice loading 0 = some (taken loadDesc) ∧
    (readImage (handed loading) 0 loadDesc).1.any (fun b => imgCores b == [0] &&
      verify { s := handed loading, auth := none, srclen := 496 } b == none) = true ∧
    (readImage (handed loading) 0 loadDesc).2.coreOps = [] ∧ coreHeld (readImage (handed loading) 0 loadDesc).2 0 = false ∧
    coreFree (coreAt (readImage (handed loading) 0 loadDesc).2 0) = true := by decide +kernel

def loaded : Core := { st := .loaded, prog := 0x77, ntask := 1, entries := [0] }

/-- The core is free and holds the program; a running core; a core that is not LOADING. -/
theorem test_Programs :
    (let u := handed (first { linked with cores := [(0, loaded)] } launchDesc);
      (checkHead (popRing (first { linked with cores := [(0, loaded)] } launchDesc) 0 (taken launchDesc)) 0 (taken launchDesc)).cores = [0] ∧
      nStop launchDesc = false ∧ u.coreOps = [] ∧ coreFree (coreAt u 0) = true ∧ coreHeld u 0 = false ∧
      launchRefusal u [0] (nProg launchDesc) = none) ∧
    (let u := handed (first { linked with cores := [(0, runs 0)] } stopDesc);
      nStop stopDesc = true ∧ (coreAt u 0).st = .running) ∧
    (let u := handed (first { linked with cores := [(0, loaded)] } patchDesc);
      u.coreOps = [] ∧ patchPairs patchDesc = [(63, 9)] ∧ (coreAt u 0).st ≠ .loading ∧ coreHeld u 0 = false) := by
  decide +kernel

theorem test_ProgramWrite :
    let s := { up with cores := [(1199, { st := .loading })], coreOps := [.load 3 none [1199] [] none 0] };
    (coreAt s 1199).st = .loading ∧ (coreAt s 1199).sealedBy = none ∧
      s.coreOps = [.load 3 none [1199] [] none 0] := by decide +kernel

/-- The last channel and the sluice; a QUERN job with a channel; an EVENT with room in the log; a fence with and without
an earlier descriptor. -/
theorem test_EngineDescriptors :
    sluiceQualifies (handed (first linked (dmaDesc 63))) (engineDesc (dmaDesc 63)) = false ∧
    sluiceQualifies (handed (first linked sluiceDesc)) (engineDesc sluiceDesc) = true ∧ qMask quernDesc ≠ 0 ∧
    qMask (desc 5 [] 0 0 0) = 0 ∧ qArr (desc 5 [] 0 0 0) = false ∧
    (handed (first linked (desc 8 [] 0 0 0))).log.waiting = [] ∧
    generalFill (handed (first linked (desc 8 [] 0 0 0))).log < 256 ∧
    (∀ did ∈ [3, 4], let s := { first up launchDesc with rings := [(0, { st := .running, fence := some did })] };
      (ringAt s 0).fence = some did ∧ (decide (∀ a ∈ s.admitted, a.ring = 0 → did ≤ a.did) = (did == 3))) := by decide +kernel

/-- Reserved classes 0, 10 and 127, and the reserved OPs. -/
theorem test_ReservedDescriptors : ∀ d ∈ [desc 0 [] 0 0 0, desc 10 [] 0 0 0, desc 127 [] 0 0 0, desc 7 [] 0 0 0,
    desc 9 [] 0 0 0, desc 9 [(8, 10)] 0 0 0, desc 9 [(8, 15)] 0 0 0],
    frontChoice (first linked d) 0 = some (taken d) ∧
    ((rCls d = 0 ∨ 9 < rCls d) ∨ (rCls d = 7 ∧ gOp d = 0) ∨ (rCls d = 9 ∧ (tOp d = 0 ∨ 10 ≤ tOp d))) ∧
    classDenied (popRing (first linked d) 0 (taken d)) (rCls d) false = false := by decide +kernel

/-- The maps of reset pass CHECK; a map whose two anchors agree does not. -/
theorem test_SetUp_check : checkFails up (regGet up) = [] ∧
    (let u := handed (first (withReg linked (oMapSel 2 12 1) 0) (desc 7 [(8, 2)] 1 0 0));
      (checkFails u (regGet u)).head? = some (oMapSel 2 12 1)) := by decide +kernel

theorem test_SetUpDescriptors :
    let u := handed (first linked (desc 7 [(8, 2)] 0 0 0));
    u.cfgQueue = [] ∧ u.commit = none ∧ (ctlAt u 0).st = 0 ∧ gExpect (desc 7 [(8, 2)] 1 0 0) = regGet u oCfgEpoch ∧
    gExpect (desc 7 [(8, 2)] 0 0 0) ≠ regGet u oCfgEpoch ∧ oGrpCtl 2 ∈ rsOffsets := by decide +kernel

def committing : State := { up with commit := some { snapshot := [(oGrpCtl 0, 1)], did := none } }

theorem test_EpochBoundary : committing.commit = some { snapshot := [(oGrpCtl 0, 1)], did := none } ∧
    committing.cfgQueue = [] ∧ [(oGrpCtl 0, (1 : W32))].Pairwise (fun p q => p.1 ≠ q.1) := by decide +kernel

theorem test_SetUpRegisters : cfgBusy committing = true ∧ cfgBusy up = false ∧ (ctlAt up 0).st = 0 ∧
    regGet (withReg up oCfgExpect 1) oCfgExpect = regGet (withReg up oCfgExpect 1) oCfgEpoch ∧
    regGet up oCfgExpect ≠ regGet up oCfgEpoch := by decide +kernel

/-- Ring 1,023, enabled, of sixteen slots and records. -/
def ring (r : Ring) : State :=
  { withReg (withReg linked (oRing 1023 rCtl) 7) (oRing 1023 rCfg) 0x404 with rings := [(1023, r)] }

/-- A slot that is visible at phase 1. -/
def visibleSlot : Desc := { w0 := 0x81, w5 := 2 ^ 63 }

/-- The doorbells at the last index and one past it; a visible slot, one that is not, and its second read; a stall. -/
theorem test_RingQueues :
    (∀ st ∈ [RingSt.stalled, .running], let s := ring { st := st, tail := 1 };
      s.phase = 5 ∧ (ringAt s 1023).st = st ∧ sqSize s 1023 = 16 ∧ cqSize s 1023 = 16) ∧
    (15 < sqSize (ring {}) 1023 ∧ sqSize (ring {}) 1023 ≤ 16) ∧
    (let r : Ring := { st := .running, cqTail := 15, hostHead := 0 };
      (15 + cqSize (ring r) 1023 - r.hostHead) % cqSize (ring r) 1023
        ≤ (r.cqTail + cqSize (ring r) 1023 - r.hostHead) % cqSize (ring r) 1023 ∧
      (15 + cqSize (ring r) 1023 - 3) % cqSize (ring r) 1023 < (2 + cqSize (ring r) 1023 - 3) % cqSize (ring r) 1023) ∧
    (∀ nv ∈ [none, some 0], let s := ring { st := .running, tail := 15, notVisible := nv.map w64 };
      (∀ p ∈ s.rings, ringPrio s p.1 ≤ ringPrio s 1023) ∧ ringFetches s 1023 = true ∧ ringMayFetch s 1023 = nv.isNone ∧ pendingSlots s 1023 = 8 ∧ (ringAt s 1023).notVisible = nv.map w64 ∧ ringAdmits s 1023 = true ∧
      slotVisible (ringAt s 1023) visibleSlot = true ∧ slotVisible (ringAt s 1023) {} = false ∧
      slotVisible (ringAt s 1023) { w0 := 0x81 } = false) := by decide +kernel

/-- In a coherent mode: a slot whose line the host-line cache holds, and one that it does not hold. -/
theorem test_RingQueues_cached :
    let s := { ring {} with link := { linked.link with mode := .cxl2, hostLines := [(0, visibleSlot)] } };
    coherent s = true ∧ s.link.hostLines.find? (fun p => p.1 == slotLine s 1023 0) = some (0, visibleSlot) ∧
    (∀ p ∈ s.link.hostLines, p.1 ≠ slotLine s 1023 1) := by decide +kernel

/-- After none, one and seven visible slots comes one that is not. -/
theorem test_RingQueues_after : ([[], [visibleSlot], List.replicate 7 visibleSlot].all (fun front =>
    match exec (.ringSlotFetch 1023 front) (ring { st := .running, tail := 15 }) with
    | .next u => !slotVisible (ringAt u 1023) {}
    | _ => false)) = true := by decide +kernel

/-- An uncovered record on a ring with TIME 1, and a pending vector 1,024. -/
theorem test_RingInterrupts :
    (let s := { withReg linked (oRing 0 rIrq) (2 ^ 11 + 2 ^ 24) with rings := [(0, { st := .running, uncovered := 1 })] };
      regBit s (oRing 0 rIrq) 11 = true ∧ regFld s (oRing 0 rIrq) 31 24 ≠ 0 ∧ (ringAt s 0).uncovered ≠ 0) ∧
    (let s := { linked with msix := [(1024, { pend := true })] };
      linkCarries s = true ∧ s.link.held = [] ∧ (msixAt s 1024).pend = true ∧ (msixAt s 0).pend = false) := by decide +kernel

theorem test_RingRegisters : (ringAt up 1023).st = .disabled ∧ (ringAt (ring { st := .running }) 1023).st = .running ∧
    bitOf (7 : W32) 0 = true ∧ bitOf (6 : W32) 0 = false ∧
    (∀ p ∈ [(3, false), (4, true), (16, true), (17, false)],
      decide (4 ≤ fld (w32 p.1) 4 0 ∧ fld (w32 p.1) 4 0 ≤ 16) = p.2) := by
  decide +kernel

/-! ### Power, resets, the far path -/

/-- A module that is OFF, with and without its input. -/
theorem test_PowerOn : ∀ b : Bool, let s := { up with power := { st := .off, inputPresent := b, vin := 6000 } };
    s.power.st = .off ∧ s.power.inputPresent = b ∧ 4000 ≤ s.power.vin ∧ s.power.vin ≤ 6000 := by decide +kernel

theorem test_PowerSequence : ∀ n < 7, 1 ≤ n → let s := { up with power := { seqStep := n, vin := 4000 }, phase := 2 };
    s.power.st ≠ .off ∧ s.power.seqStep = n ∧ (n = 1 → 4000 ≤ s.power.vin ∧ s.power.vin ≤ 6000) ∧ (n = 6 → s.phase = 2) := by
  decide +kernel

/-- Rails up, as after step 6. -/
def powered : State := setRails up (List.range 14) .on

theorem test_SupplyConditions : powered.power.st = .active ∧ railAt powered (railKey (.vqrn 2)) ≠ .off ∧
    regFld (withReg powered oBrakeCtl 31) oBrakeCtl 7 0 > 30 ∧ regFld (withReg powered oBrakeCtl 30) oBrakeCtl 7 0 ≤ 30 ∧
    powered.pins.resetN = true ∧ ({ powered with pins := { resetN := false } } : State).pins.resetN = false ∧ ({ powered with power := { powered.power with st := .standby } } : State).power.st = .standby := by
  decide +kernel

def braking : State := { powered with power := { powered.power with st := .braking, brake := some ⟨3, 95, 99⟩ } }

theorem test_BrakeEnd : ∀ b : Bool, let s := { braking with power := { braking.power with resetAfterBrake := b } };
    s.power.st = .braking ∧ s.power.brake = some ⟨3, 95, 99⟩ ∧ s.power.resetAfterBrake = b ∧ s.sec.work = none := by
  decide +kernel

theorem test_ModuleResets : powered.power.inputPresent = true ∧ powered.power.st ≠ .off ∧ powered.power.st ≠ .braking ∧
    powered.phase ≠ 0 ∧ (ctlAt powered 3).st ≠ 1 ∧ braking.power.inputPresent = true ∧ (ctlAt braking 3).st ≠ 1 ∧
    (∀ n ∈ [3, 4, 5, 6], let s := { powered with phase := 0, power := { powered.power with seqStep := n } };
      s.power.inputPresent = true ∧ s.power.st = .active ∧ s.phase = 0 ∧ (n ≤ 3 ∨ 3 < n ∧ n < 6 ∨ 6 ≤ s.power.seqStep)) ∧
    (ctlAt { up with ctl := [(3, { st := 1 })] } 3).st = 1 := by decide +kernel

theorem test_HostResets : linkUsable linked = true ∧ linked.link.st = .up ∧
    linkUsable { up with link := { st := .recovery } } = true := by decide +kernel

/-- Each phase with its work done; a FAILED stack holds phase 3 no more than a READY one. -/
theorem test_Initialisation : ∀ n < 5,
    let s := { up with phase := n, stks := (11, { st := .failed }) :: up.stks };
    s.power.st ≠ .off ∧ s.resetHeld = false ∧ s.phase = n ∧ 6 ≤ s.power.seqStep ∧ s.power.seqStep = 7 ∧ s.bootDone = true ∧
      (∀ k, k < 12 → (stackAt s k).st = .ready ∨ (stackAt s k).st = .failed) ∧
      (let h := { s with resetHeld := true }; h.power.st ≠ .off ∧ h.resetHeld = true ∧ h.phase = n) := by decide +kernel

/-- An image that passes and one that is not valid, if a signature checks (the functions of cryptography are opaque). -/
theorem test_Boot (h1 : ∀ k m g, Config.ed25519Verify k m g = true) (h2 : ∀ k m g, Config.mldsaVerify k m g = true)
    (h3 : ∀ b, Config.fwFormatOk b = true) :
    (∀ v : Bool, let s : State := { phase := 1, flash := { imageValid := v } };
      s.phase = 1 ∧ s.resetHeld = false ∧ s.bootDone = false ∧ s.sec.recovering = false ∧ s.flash.imageValid = v ∧
        imageSigned s.flash.image = true ∧ imageCurrent s s.flash.image = true) ∧
    (let s : State := { phase := 1, sec := { recovering := true, mailbox := true, fwImage := some {} } };
      s.phase ≠ 0 ∧ s.sec.fwImage = some {} ∧ s.sec.recovering = true ∧ s.sec.mailbox = true ∧ Config.fwFormatOk ({} : FwImage).bytes = true ∧
        imageSigned {} = true ∧ imageCurrent s {} = true) := by
  refine ⟨fun v => ⟨rfl, rfl, rfl, rfl, rfl, ?_, ?_⟩, by decide, rfl, rfl, rfl, h3 _, ?_, ?_⟩ <;>
    simp [imageSigned, imageCurrent, h1, h2]

/-- A first expiry, one exactly 1 s after the last, and one later; a core that restarts. -/
theorem test_ControlCores :
    ctlRuns up 3 = true ∧ (ctlAt up 3).lastExpiry = none ∧
    (∀ p ∈ [(1000000000, true), (1000000001, false)],
      let s := { up with time := w64 p.1, ctl := [(3, { lastExpiry := some 0 })] };
      ctlRuns s 3 = true ∧ (ctlAt s 3).lastExpiry = some 0 ∧ decide ((s.time - 0).toNat ≤ 1000000000) = p.2) ∧
    (let s := { up with ctl := [(0, { st := 1 })] };
      (ctlAt s 0).st = 1 ∧ s.coreOps = [] ∧ s.cfgQueue = [] ∧ s.ctlHeld = [] ∧ (∀ p ∈ s.chans, p.2.failed = [])) := by decide +kernel

set_option maxRecDepth 200000 in
/-- What a restart of control core 0 and of core 2 takes up: a set-up command, a load whose image passes and one whose image
does not, a COMMIT before its instant, a stack's fault. -/
theorem test_ControlCores_held :
    (∀ p ∈ [(imageCells, true), ([], false)],
      let s := { linked with window := p.1, ctl := [(0, { st := 1 })], cores := [(0, { st := .loading })]
                             coreOps := [.load 3 (some loadDesc) [0] [] none 0] }
      let u := setCtl s 0 { ctlAt s 0 with st := 0 }
      let r := readImage { u with coreOps := [] } (ringOf s 3) loadDesc;
      (ctlAt s 0).st = 1 ∧ s.cfgQueue = [] ∧ (coreAt s 0).st = .loading ∧
      r.1.any (fun b => (verify { s := r.2, auth := none, srclen := 496 } b).isNone == p.2) = true) ∧
    (let s := { up with ctl := [(0, { st := 1 })], cfgQueue := [{ op := 1, expect := 0, did := none }] };
      (ctlAt s 0).st = 1 ∧ s.coreOps = [] ∧ s.cfgQueue = [{ op := 1, expect := 0, did := none }] ∧ s.commit = none) ∧
    (let s := { up with commit := some { snapshot := [], did := none } }; ctlRuns s 0 = true ∧ s.commit.isSome = true) ∧
    (let s := { up with ctl := [(2, { st := 1 })], ctlHeld := [.stack 3 1] };
      (ctlAt s 2).st = 1 ∧ s.ctlHeld = [.stack 3 1] ∧ (∀ p ∈ s.chans, p.2.failed = [])) := by decide +kernel

/-- DRAM in an online group, its first and its last unit; a scratchpad; a group that is not online. -/
theorem test_FarPath_request :
    (∀ da ∈ [0, dramSize - 32], rangeDram up da 32 = true ∧ rangeError up da 32 = false ∧
      rangeSealRefused up none da 32 false = false ∧ accessPieces up da 32 = [(da, 32)]) ∧
    (let s := { up with sec := { pkgs := [(3, { st := .loaded, sealMap := (List.range 12).map (fun k => (k, 0xFFFFFFFF)) })] } };
      rangeDram s 0 32 = true ∧ rangeError s 0 32 = false ∧ ∀ w : Bool, rangeSealRefused s none 0 32 w = true) ∧
    rangeDram up 0x100000000000 32 = false ∧ rangeError { up with effect := [(oGrpCtl 0, 0)] } 0 32 = true := by decide +kernel

def waitingRead : FarReq :=
  { id := 1, port := 0, src := 0, loc := { chan := 31, layer := 15, bank := 3, row := 16383 }, off := 2016, op := .read 32
    arrival := 0 }

/-- A request that the scheduler picks; an open, an idle and a busy bank, the last with seven refreshes owed. -/
theorem test_FarPath :
    (let s := modStack up 11 (fun x => { x with reqs := [waitingRead] });
      (stackAt s 11).st = .ready ∧ schedPick s 11 = some waitingRead ∧ waitingRead.op = .read 32 ∧ waitingRead.port ≠ 4 ∧
      waitingRead.seq = none ∧ waitingRead.scrub = false ∧ engineFirst s 11 waitingRead = false ∧
      ((stackAt s 11).reqs.map (·.id)).Nodup ∧ bankBusy s 11 31 63 = true ∧ bankBusy s 11 31 67 = false) ∧
    (let s := setBank up 11 31 67 { openRow := some 5, owed := 7 };
      (bankAt s 11 31 67).openRow.isSome = true ∧ bankStreams s 11 31 67 = false ∧ bankBusy s 11 31 67 = false ∧
      (bankAt s 11 31 67).owed < 8 ∧ (bankAt s 11 31 67).owed ≠ 0) ∧
    (∀ r ∈ [{ waitingRead with op := .read 2048, port := 4, src := 2, off := 0, engine := 2 },
        { waitingRead with op := .read 2048, port := 4, src := 4, off := 0, engine := 4, scrub := true },
        { waitingRead with op := .write (List.replicate 32 7) [false] }],
      schedPick (modStack up 11 (fun x => { x with reqs := [r] })) 11 = some r ∧
      engineFirst (modStack up 11 (fun x => { x with reqs := [r] })) 11 r = false) ∧
    (let s := modStack up 11 (fun x => { x with reqs := [waitingRead], repairs := [{ chan := 0, layer := 0, bank := 0, row := 0 }] });
      schedPick s 11 = some waitingRead ∧ engineFirst s 11 waitingRead = true) ∧
    (let s := setBank (modStack up 11 (fun x => { x with reqs := [waitingRead] })) 11 31 63 { owed := 8 };
      bankBusy s 11 31 63 = true ∧ (bankAt s 11 31 63).owed = 8 ∧ bankStreams s 11 31 63 = false) ∧
    (let s := setBank { up with chans := [(chanKey 11 31, { streaming := [63] })] } 11 31 63 { owed := 8 };
      (bankAt s 11 31 63).owed = 8 ∧ bankStreams s 11 31 63 = true) := by decide +kernel

/-- A reading one degree below its class's shutdown point; a sensor unread twice, and not; one that no vote counts. -/
theorem test_ThermalControl_sensor :
    (let s := up; (sensorAt s 215).votedOut = false ∧ (sensorAt s 215).dead = false ∧ disagrees s 215 109 = false ∧
      (109 : Int) < shutdownPoint (sensorClass 215) ∧ (97 : Int) < shutdownPoint (sensorClass 95) ∧
      disagrees s 95 97 = false ∧ (sensorAt s 215).unread < 2) ∧
    (let s := { up with sensors := [(0, { unread := 2 })] };
      (sensorAt s 0).votedOut = false ∧ (sensorAt s 0).dead = false ∧ (sensorAt s 0).unread = 2) ∧
    (sensorAt { up with sensors := [(0, { votedOut := true })] } 0).votedOut = true ∧
    (sensorAt { up with sensors := [(0, { dead := true })] } 0).dead = true := by decide +kernel

/-- A mill die at 105 °C and at 103 °C, after a step, with a step left and at its last; each other unit with a step left and
without; a stack that stays above 95 °C and rises too fast for a Brake, and one that does not rise. -/
theorem test_ThermalControl :
    (∀ v ∈ [(105 : Int), 103], let s := { up with
        sensors := [(191, { temp := v, valid := true })], power := { up.power with thermal := [(15, 1)] } };
      hottest s (targetSensors (.mill 3)).1 = some (191, v) ∧ tget 0 s.power.thermal (targetKey (.mill 3)) ≠ 0 ∧
      canThrottle s (.mill 3) = true) ∧
    (∀ u ∈ [ThermalUnit.dram 0, .mill 3, .hub, .board], canThrottle up u = true) ∧
    (let s := withReg (withReg (withReg up (oQrn 0 qAllow) 1) oPwrCclk 0x66666) oPwrQclk0 3
      let s := { s with power := { s.power with thermal := [(17, 18)] } };
      ∀ u ∈ [ThermalUnit.dram 0, .mill 3, .hub, .board], canThrottle s u = false) ∧
    (∀ p ∈ [([((100000 : W64), (97 : Int)), (50000, 90), (0, 83)], false), ([(100000, 97), (50000, 97)], true)],
      let s := { modStack up 0 (fun x => { x with overMax := true }) with
        sensors := [(7, { temp := 97, valid := true, hist := p.1 })] };
      (stackAt s 0).overMax = true ∧ hottest s (targetSensors (.dram 0)).1 = some (7, 97) ∧ s.power.st = .active ∧
      brakeInTime s 7 97 = p.2) := by decide +kernel

def sensed : State := { up with sensors := (List.range 8).map (fun i => (192 + i, { temp := 50, valid := true })) }

theorem test_PowerStates :
    (sensed.phase = 5 ∧ (ctlAt sensed 1).st = 0 ∧ sensed.power.st = .active ∧ 8 ≤ validCount sensed 192 16) ∧
    validCount up 192 16 < 8 ∧ (ctlAt up 1).st = 0 ∧
    (regBit (withReg up oPwrCtl 16) oPwrCtl 4 = true ∧ idleHolds up = true) ∧
    (let s := { up with power := { st := .idle } }; s.power.st = .idle ∧ linkWarm s = false ∧ idleHolds s = true) ∧
    idleHolds (on 0) = false ∧
    (∀ p ∈ [(true, (101 : Int)), (true, 100), (false, 101)], let s := { up with
        power := { st := .standby, braked := p.1 }, sensors := [(200, { temp := p.2 + 5, valid := true })] };
      (ctlAt s 3).st ≠ 1 ∧ s.power.st = .standby ∧ s.power.exiting = false ∧ coolEnough s = decide (p.2 ≤ 100)) ∧
    (let s := { up with power := { st := .standby, exiting := true } };
      s.power.exiting = true ∧ ∀ k, k < 12 → (stackAt s k).st ≠ .clearing) := by decide +kernel

theorem test_StackStates :
    (∀ st ∈ [StackSt.loading, .clearing], ∀ b : Bool, let s := modStack up 11 (fun x => { x with st := st, entering := b });
      (stackAt s 11).st = st ∧ (stackAt s 11).entering = b ∧ (stackAt s 11).reqs = [] ∧ stackBusy s 11 = false) ∧
    (∀ b < 5, bandValid up 11 b = true) ∧ (∀ r ∈ up.flash.sparing, r.stack ≠ 11) ∧ (ctlAt up 2).st = 0 ∧
    (let s := modStack up 11 (fun x => { x with entering := true });
      (stackAt s 11).entering = true ∧ (stackAt s 11).reqs = [] ∧ (stackAt s 11).st = .ready) ∧
    (∀ b : Bool, let s := modStack up 11 (fun x => { x with st := .clearing, entering := b, toRetain := 1 });
      (stackAt s 11).entering = b ∧ (stackAt s 11).reqs = [] ∧ stackBusy s 11 = false ∧ (chanAt s 11 31).spSt ≠ .migrating) := by decide +kernel

def row0 : Loc := { chan := 0, layer := 0, bank := 0, row := 0 }

/-- A channel of stack 0. -/
def channel (ch : Chan) : State := { up with chans := [(0, ch)] }

/-- Stack 0 with channel 0's bank 0 in a stream or not. -/
def streaming (b : Bool) : State := { up with chans := [(0, { streaming := if b then [0] else [] })] }

theorem test_RepairScrub : ∀ b : Bool,
    (let s := modStack (streaming b) 0 (fun x => { x with repairs := [row0] });
      queuedRepair s 0 0 0 = some row0 ∧ (stackAt s 0).st = .ready ∧ bankStreams s 0 0 0 = b) ∧
    (let s := streaming b; (stackAt s 0).st = .ready ∧ engineBlocked s 0 4 = false ∧
      scrubLoc (stackAt s 0).scrubPos = row0 ∧ inService (chanAt s 0 0) 0 = true ∧ bankStreams s 0 0 0 = b ∧
      rowDirty s (rowKey 0 0 0 0 0) = false ∧ (∀ p ∈ (stackAt s 0).quernUe, fourInSecond p.2 = false)) ∧
    (let s := channel { spSt := .layerSpared, spLayer := 0, layerOut := true };
      (stackAt s 0).st = .ready ∧ engineBlocked s 0 4 = false ∧ inService (chanAt s 0 0) 0 = false) ∧
    (let s := modStack up 0 (fun x => { x with scrubPos := scrubRows - 1 });
      (scrubLoc (stackAt s 0).scrubPos).row = 16383 ∧ engineBlocked s 0 4 = false) ∧
    (stackAt (modStack up 0 (fun x => { x with deferred := [row0] })) 0).deferred = [row0] := by decide +kernel

/-- A migration and a remap at their last row and after it. -/
theorem test_Sparing_copy :
    (∀ p ∈ [16383, 16384], let s := channel { spSt := .migrating, spLayer := 15, progress := p };
      (stackAt s 0).st = .ready ∧ (chanAt s 0 0).spSt = .migrating ∧ (chanAt s 0 0).progress = p ∧
      (∀ b, b < 4 → errCols s (rowKey 0 0 15 b p) = []) ∧ (∀ b, b < 4 → bankStreams s 0 0 (15 * 4 + b) = false ∧ quernActive s 0 0 (15 * 4 + b) = false) ∧
      engineBlocked s 0 3 = false ∧ (chanAt s 0 0).copied = [] ∧
      (chanAt s 0 0).failed = []) ∧
    (∀ p ∈ [16383, 16384], let s := channel { spSt := .remapping, remapping := some (3, 63), progress := p };
      (stackAt s 0).st = .ready ∧ engineBlocked s 0 2 = false ∧ bankStreams s 0 0 (remapHome (chanAt s 0 0) 63) = false ∧
      (chanAt s 0 0).remapping = some (3, 63) ∧ (chanAt s 0 0).progress = p ∧ (chanAt s 0 0).failed = [] ∧
      errCols s (rowKey 0 0 (homeAt (chanAt s 0 0) { chan := 0, layer := 15, bank := 3, row := p }).1
        (homeAt (chanAt s 0 0) { chan := 0, layer := 15, bank := 3, row := p }).2 p) = []) := by decide +kernel

/-- A quern that does not answer on a channel whose spare layer is in use; requests on a CLEAN and a REMAPPED channel. -/
theorem test_Sparing :
    (let s := { channel { spSt := .layerSpared, spLayer := 1, layerOut := true } with querns := [(63, { atBoundary := true })] };
      (quernOf s 0 0 63).atBoundary = true ∧ (quernOf s 0 0 63).st ≠ .isolated ∧ (ctlAt s 2).st = 0 ∧
      (chanAt (isolateQuern s 0 0 63) 0 0).spSt = .layerSpared) ∧
    (chanAt up 0 0).spSt = .clean ∧
    (let s := channel { spSt := .remapped, spares := [(0, 1), (1, 2), (2, 3)] };
      (chanAt s 0 0).spSt = .remapped ∧ spareFor s 0 0 = some 3 ∧ (quernOf s 0 0 63).st ≠ .isolated ∧
      (chanAt (isolateQuern s 0 0 63) 0 0).spSt = .remapped ∧ spareFor (isolateQuern s 0 0 63) 0 0 = some 3) ∧
    (let s := channel { spSt := .remapped, spares := [(0, 1), (1, 2), (2, 3), (3, 4)] }; spareFor s 0 0 = none ∧
      (chanAt (isolateQuern s 0 0 63) 0 0).spSt = .remapped ∧ spareFor (isolateQuern s 0 0 63) 0 0 = none) ∧
    (let s := channel { spSt := .migrating, progress := 16384, failed := [(true, 3)] }; (chanAt s 0 0).failed ≠ []) := by
  decide +kernel

/-! ### Sequencers, streams and the aperture, at the last stack and channel -/

/-- Four words of a table, from a register on. -/
def words (s : State) (o : Nat) (w : W128) : State :=
  (List.range 4).foldl (fun s i => withReg s (o + 4 * i) (fld w (32 * i + 31) (32 * i))) s

/-- Stack k with entry 63, whose commands stand at the start of the sequence memory. -/
def entryOn (s : State) (k : Nat) (ws : List W128) : State :=
  withReg (ws.zipIdx.foldl (fun s p => words s (oSeqMem k p.2) p.1) s) (oSeqEntry k 63) (ws.length * 2 ^ 10)

def entry (ws : List W128) : State := entryOn up 11 ws

/-- A bank command: OPC, BMASK, and fields as (lowest bit, value). -/
def cmd (opc mask : Nat) (fields : List (Nat × Nat)) : W128 :=
  BitVec.ofNat 128 (opc + mask * 2 ^ 64 + (fields.map (fun p => p.2 * 2 ^ p.1)).sum)

def job : Job := { id := 9, did := 3, stack := 11, left := 0, mask := 2 ^ 31, entry := 63, areg := [0x100000000000, 0, 0, 0], arr := none }

def atChannel (s : State) (ch : Chan) : State := { s with chans := [(chanKey 11 31, ch)] }

/-- The channel's sequencer runs the job at the first of these commands. -/
def issues (ws : List W128) (ch : Chan) : State :=
  { atChannel (entry ws) { ch with seq := .run, job := some 9 } with jobs := [job] }

/-- A GEMV operation word of `n` tiles. -/
def gemv (n : Nat) : W128 := BitVec.ofNat 128 (1 + 6 * 16 + 2 ^ 10 + 2 ^ 17 + n * 2 ^ 32 + 0x3F800000 * 2 ^ 64)

/-- A job that starts, one whose entry is empty, and one that its stack's role does not permit. -/
theorem test_Sequencer_start :
    (∀ p ∈ [([cmd 8 0 []], false, false), ([], true, false), ([cmd 5 1 [], cmd 2 1 [], cmd 8 0 []], false, true)],
      let j : Job := { job with left := 2 ^ 31 }
      let s := words { entry p.1 with jobs := [j] } (oOpw 11 0) (gemv 1)
      let u := if j.left = j.mask ∧ j.outcomes = [] then trace s 6 (ringOf s j.did) j.jobtag (data := headOf s j.did) else s
      let v := modJob u j.id (fun j => { j with left := setFld j.left 31 31 0 })
      s.jobs.find? (fun j => j.stack == 11 && bitOf j.left 31) = some j ∧ (chanAt s 11 31).seq = .idle ∧
      (stackAt s 11).st = .ready ∧ jobHeld s 11 = false ∧ entryBad v j = p.2.1 ∧ roleBad v j = p.2.2) := by decide +kernel

/-- Every command is issued; NOP without and with a wait. -/
theorem test_Sequencer_issue : ∀ opc < 9, ∀ n < 2, let w := cmd opc (2 ^ 63) [(4, n)];
    issuing (issues [w] {}) 11 31 opc = some (job, w) ∧ (fld w 19 4 = 0 ↔ n = 0) ∧
    (maskBanks (cMask w)).any (fun b => quernAwaited (issues [w] {}) 11 31 b || switchWaits (chanAt (issues [w] {}) 11 31) b)
      = false := by decide +kernel

/-- An ACT of bank 63 with places left, and with the only place taken by bank 5. -/
theorem test_Sequencer_act : ∀ full : Bool,
    let s := issues [cmd 1 (2 ^ 63) [(4, 16383)]] { streaming := if full then [5] else [] }
    let s := if full then withReg s (oQrn 11 qAllow) 1 else s;
    issuing s 11 31 1 = some (job, cmd 1 (2 ^ 63) [(4, 16383)]) ∧ maskBanks (cMask (cmd 1 (2 ^ 63) [(4, 16383)])) = [63] ∧
    (chanAt s 11 31).admission = [] ∧ (quernOf s 11 31 63).feeds = [] ∧ quernAwaited s 11 31 63 = false ∧
    (quernOf s 11 31 5).stalled = false ∧ 63 ∉ (chanAt s 11 31).streaming ∧
    (if full then allow s 11 ≤ (chanAt s 11 31).streaming.length else (chanAt s 11 31).streaming.length + 1 ≤ allow s 11) := by
  decide +kernel

/-- An OPW for an idle quern of a tree, and for one that is busy. -/
theorem test_Sequencer_opw_word : ∀ st ∈ [QuernSt.idle, .held],
    let x : TreeSt := { mode := 0, areg := 0, cstride := 0, bstride := 0, mask := 2 ^ 63 }
    let s := words { issues [cmd 2 (2 ^ 63) [(10, 1)]] { trees := [x] } with
      querns := [(quernKey 11 31 63, { st := st })] } (oOpw 11 0) (gemv 1);
    (issuing s 11 31 2).map (·.2) = some (cmd 2 (2 ^ 63) [(10, 1)]) ∧ quernAwaited s 11 31 63 = false ∧
    switchWaits (chanAt s 11 31) 63 = false ∧ (quernOf s 11 31 63).st = st ∧ st ≠ .isolated ∧
    opwOp (setFld (opwWord s 11 0) 27 22 (opwLsel (opwWord s 11 0))) ≠ 0 ∧
    opwCount (setFld (opwWord s 11 0) 27 22 (opwLsel (opwWord s 11 0))) ≠ 0 ∧
    treeFor (chanAt s 11 31) 63 = some 0 ∧ treeAt s 11 31 0 = some x := by decide +kernel

/-- A STRM of a row for a quern in STREAM and for one in HELD, for an idle one, and a STRM of no rows. -/
theorem test_Sequencer_strm : ∀ p ∈ [(QuernSt.stream, 1), (.held, 1), (.idle, 1), (.stream, 0)],
    let w := cmd 4 (2 ^ 63) [(4, 9), (18, p.2), (39, 63)]
    let s := { issues [w] {} with querns := [(quernKey 11 31 63, { st := p.1, word := gemv 2 })] }
    let f : Feed := { next := fld w 17 4 * 64 + fld w 38 33, last := (fld w 17 4 + fld w 32 18 - 1) * 64 + fld w 44 39 };
    issuing s 11 31 4 = some (job, w) ∧ (quernOf s 11 31 63).st = p.1 ∧ fld w 32 18 = p.2 ∧
    (quernOf s 11 31 63).feeds = [] ∧ (p.2 ≠ 0 → (skipExcluded { quernOf s 11 31 63 with feeds := [f] }).feeds ≠ []) := by
  decide +kernel

/-- An OPW whose quern is isolated while its bank is remapped, and one on a failing layer that is all copied. -/
theorem test_Sequencer_opw :
    (let s := { issues [cmd 2 (2 ^ 63) []] { spSt := .remapping, remapping := some (0, 63) } with
        querns := [(quernKey 11 31 63, { st := .isolated })] };
      issuing s 11 31 2 = some (job, cmd 2 (2 ^ 63) []) ∧ quernAwaited s 11 31 63 = true) ∧
    (let s := issues [cmd 2 (2 ^ 63) []] { spSt := .migrating, spLayer := 15, progress := 16384 };
      issuing s 11 31 2 = some (job, cmd 2 (2 ^ 63) []) ∧ switchWaits (chanAt s 11 31) 63 = true) := by decide +kernel

def tile : W128 := cmd 3 0 [(7, 1)]

/-- A slot that holds all of the first BCAST's tile. -/
def tileSlot (err : Bool) : Slot := { job := 9, cmd := 0, upto := bcBytes tile, addrErr := err }

/-- A BCAST whose tile stands in its slot, read well or with an address error; a tile to read ahead, and one without room. -/
theorem test_Sequencer_bcast :
    (∀ err : Bool, let s := issues [tile] { slots := [tileSlot err] }; let ch := chanAt s 11 31;
      issuing s 11 31 3 = some (job, tile) ∧ (slotOf ch job.id ch.cmd).isSome = true ∧ ch.sent < tileUpto ch job.id ch.cmd ∧
      bcBytes tile = tileUpto ch job.id ch.cmd ∧ (tileHeld ch job.id ch.cmd).2 = (false, err)) ∧
    (∀ left < 2, let w := cmd 3 0 [(7, 513)]
      let s := issues [w] { slots := [{ job := 9, cmd := 0, upto := slotBytes, left := left }] }; let ch := chanAt s 11 31;
      issuing s 11 31 3 = some (job, w) ∧ (slotOf ch job.id ch.cmd).isSome = true ∧ ch.sent < tileUpto ch job.id ch.cmd ∧
      bcBytes w ≠ tileUpto ch job.id ch.cmd ∧ (tileHeld ch job.id ch.cmd).2 = (decide (left ≠ 0), false)) ∧
    (let s := issues [tile] {};
      prefetchHead s 11 31 = some (job, 0, tile) ∧ inGroup (fixGroup s job.mcast) job 31 0 tile = false ∧
      sharedSlot (fixGroup s job.mcast) job 0 tile = none ∧ job.stack = 11 ∧ millOf (chanAt s 11 31) job.id 0 = none ∧
      tileWaits (fixGroup s job.mcast) job 31 tile 0 (min slotBytes (bcBytes tile)) = false) ∧
    (let s := issues [tile] { slots := List.replicate 4 { tileSlot false with job := 8 } };
      prefetchHead s 11 31 = some (job, 0, tile) ∧ (chanAt s 11 31).slots.length = 4) ∧
    prefetchHead (issues [tile] { slots := [tileSlot false] }) 11 31 = none := by decide +kernel

/-- A group of two jobs, on stacks 10 and 11; the second's channel has `full` of its slots taken. -/
def group (full : Nat) : State :=
  { entryOn (entryOn up 10 [tile]) 11 [tile] with
    jobs := [{ job with id := 8, stack := 10, mcast := 65535 }, { job with mcast := 65535 }]
    chans := [(chanKey 10 31, { seq := .run, job := some 8 }),
      (chanKey 11 31, { seq := .run, job := some 9, slots := List.replicate full { tileSlot false with job := 7 } })] }

theorem test_Sequencer_multicast : ∀ full ∈ [3, 4], let m := groupMembers (group full) 65535;
    m.map (fun x => (x.1.id, x.2.1, x.2.2.1)) = [(8, 31, 0), (9, 31, 0)] ∧
    (∀ x ∈ m, ∀ y ∈ m, sameTile x.2.2.2 y.2.2.2 x.1 y.1 x.2.1 y.2.1 = true) ∧
    (∀ x ∈ m, tileWaits (group full) x.1 x.2.1 x.2.2.2 0 (min slotBytes (bcBytes x.2.2.2)) = false) ∧
    m.map (fun x => takesNow (group full) x.1.stack x.2.1 x.1.id x.2.2.1) = [true, decide (full < 4)] := by decide +kernel

/-- SYNC and END with every named quern idle; a wait of NOP and a broadcast under way. -/
theorem test_Sequencer_sync : ∀ q ∈ [SeqSt.syncWait, .ending],
    let s := atChannel up { seq := q, syncMask := 2 ^ 63, waiting := true, casting := true };
    (chanAt s 11 31).seq = q ∧ syncReady s 11 31 = true ∧ (∀ t ∈ (chanAt s 11 31).trees, t.inputs = []) ∧
    (stackAt s 11).entering = false ∧ (chanAt s 11 31).waiting = true ∧ (chanAt s 11 31).casting = true := by decide +kernel

/-- A bank that waits for the one place; a stream at a row boundary. -/
theorem test_Streams_bank :
    (let s := withReg (atChannel up { admission := [63] }) (oQrn 11 qAllow) 1;
      admissible s 11 31 = [63] ∧ (chanAt s 11 31).streaming.length < allow s 11 ∧
      allow (withReg s (oQrn 11 qAllow) 0) 11 = 0) ∧
    (let s := { withReg (atChannel up { streaming := [63] }) (oQrn 11 qAllow) 1 with
        querns := [(quernKey 11 31 63, { atBoundary := true })] };
      (quernOf s 11 31 63).atBoundary = true ∧ 63 ∈ (chanAt s 11 31).streaming ∧ mustYield s 11 31 63 = false ∧
      atRowBoundary (quernOf s 11 31 63) = true ∧ queuedRepair s 11 31 (quernBank s 11 31 63) = none ∧
      bankReqs s 11 31 (quernBank s 11 31 63) false = [] ∧ copyWaits s 11 31 63 = false ∧ remapWaits s 11 31 63 = false) := by
  decide +kernel

/-- The last column of the last row, at the first position of a GEMV of two tiles. -/
def quernAtColumn : Quern := { st := .stream, word := gemv 2, feeds := [{ next := 16383 * 64 + 63, last := 16383 * 64 + 63 }] }

theorem test_Streams_column :
    let s := setBank { atChannel up { seq := .run, streaming := [63] } with querns := [(quernKey 11 31 63, quernAtColumn)] }
      11 31 63 { openRow := some 16383 }
    let q := quernOf s 11 31 63
    let key := quernRowKey s 11 31 63 16383
    let st := quernColumn q q.col (readCol s key 63 none).1 false
    nextFeed q = some (16383 * 64 + 63) ∧ q.st = .stream ∧ q.stalled = false ∧ q.atBoundary = false ∧
    63 ∈ (chanAt s 11 31).streaming ∧ (bankAt s 11 31 (quernBank s 11 31 63)).openRow = some 16383 ∧
    (chanAt s 11 31).seq = .run ∧ (colState s key 63).cls = .clean ∧ copyStalls s 11 31 q = false ∧
    clockHeld s (.stack 11) = false ∧ clockHeld { up with power := { held := [.stack 11] } } (.stack 11) = true ∧
    (afterColumn st.q q.col 16383).st ≠ .finish ∧ (afterColumn st.q q.col 16383).drain = [] := by decide +kernel

/-- A stalled quern, one in its exponent step, and a tailrace error. -/
theorem test_Streams_quern : ∀ st ∈ [QuernSt.stream, .exp],
    let s := { atChannel up { seq := .run, tailErr := true } with
      querns := [(quernKey 11 31 63, { st := st, stalled := true })] };
    (quernOf s 11 31 63).drain = [] ∧ (quernOf s 11 31 63).stalled = true ∧ (quernOf s 11 31 63).st = st ∧
    (chanAt s 11 31).seq = .run ∧ (chanAt s 11 31).tailErr = true ∧ clockHeld s (.stack 11) = false := by decide +kernel

/-- A unit of PASS for the first line of a scratchpad. -/
theorem test_Streams_tree :
    let x : TreeSt := { mode := 2, areg := 0, cstride := 0, bstride := 0, mask := 2 ^ 63
                        inputs := [(0, 0, { vals := List.replicate 8 1 })] };
    let s := issues [] { trees := [x] };
    treeAt s 11 31 0 = some x ∧ (treeOut x).map (fun o => (o.rank, o.n, o.vals.length)) = some (0, 0, 8) ∧
    (chanAt s 11 31).entryBanks = [] ∧ daKind s (unitDa s 11 31 x 0 0) = .scratch 0 0 ∧
    unitDa s 11 31 x 0 0 % 32 = 0 ∧ unitsWaiting s 11 31 = 0 ∧ windowWaits s (unitDa s 11 31 x 0 0) 32 true = false ∧
    (let s := { s with jobs := [{ job with areg := [0x20, 0, 0, 0] }] };
      daKind s (unitDa s 11 31 x 0 0) = .dram ∧ windowWaits s (unitDa s 11 31 x 0 0) 32 true = false ∧
      unitRefused s none (unitDa s 11 31 x 0 0) = false) ∧
    (let s := { s with jobs := [{ job with areg := [0x20, 0, 0, 0] }], effect := [(oGrpCtl 0, 0)] };
      windowWaits s (unitDa s 11 31 x 0 0) 32 true = false ∧ unitRefused s none (unitDa s 11 31 x 0 0) = true) := by
  decide +kernel

/-- A job whose channel has ended, without and with an arrival that waits. -/
theorem test_Streams_job :
    (let j : Job := { job with outcomes := [(31, 0)] }; let s := { up with jobs := [j] };
      jobAt s 9 = some j ∧ j.left = 0 ∧ j.arrWait = false ∧ unitsLeft s 9 = false ∧
      (∀ d, d < 32 → bitOf j.mask d = true → ∃ o ∈ j.outcomes, o.1 = d)) ∧
    (let j : Job := { job with arrWait := true, arr := some 1199 }; let s := { up with jobs := [j] };
      jobAt s 9 = some j ∧ j.arrWait = true ∧ j.arr = some 1199 ∧ qFree (coreAt s 1199) 12 1 = true ∧
      qFree { queues := [(12, List.replicate 64 { rid := 0, entry := some value })] } 12 1 = false) := by decide +kernel

/-- The first and the last word of the tables, on an idle stack, on one that runs, and on a locked position. -/
theorem test_Aperture_table :
    tableStack 0x502000 = some 0 ∧ tableStack 0x537FFC = some 11 ∧ tableStack 0x538000 = none ∧
    seqRunning up 11 = 0 ∧ seqLocked up 0x537FFC = false ∧ seqRunning (atChannel up { seq := .run }) 11 ≠ 0 ∧
    seqLocked { up with sec := { pkgs := [(3, { locked := [0x537FFC] })] } } 0x537FFC = true := by decide +kernel

/-- The aperture runs with line 0 due: a line without commands on the last channel, and one of a stack that does not
exist; a line that has failed. -/
def apertureLine (word0 : Nat) : State :=
  let s := withReg up oPk1Ctl 1
  { withReg s oPk1Status 0xFFFF with
    pk1 := { last := 0 }, window := mwrite [] pk1Lines (leBytes 8 word0) }

theorem test_Aperture_line :
    (∀ p ∈ [(11 * 2 ^ 16 + 31 * 2 ^ 20, 0), (12 * 2 ^ 16, 1)], let s := apertureLine p.1
      let v := windowSnoop false s ((pk1Lines + 64 * ((pk1Done s + 1) % 65536 % 8192)) / 64)
      let ws := lineWords v ((pk1Done s + 1) % 65536)
      pk1Eligible s = true ∧ lineCause v ws = p.2 ∧ coherent s = false ∧
      (p.2 = 0 → fld (ws.headD 0) 19 16 = 11 ∧ fld (ws.headD 0) 24 20 = 31 ∧ (chanAt v 11 31).seq = .idle)) ∧
    (let s := { apertureLine 0 with link := { st := .recovery, mode := .cxl2 } }; coherent s = true ∧ linkCarries s = false) ∧
    regBit (withReg up oPk1Status 0x10000) oPk1Status 16 = true := by decide +kernel

/-- A line with a PACT, with a place for it under ALLOW and without. -/
theorem test_Aperture_waits : ∀ a < 2,
    let pact : W64 := 1
    let s := withReg (apertureLine (11 * 2 ^ 16 + 31 * 2 ^ 20 + 2 ^ 25)) (oQrn 11 qAllow) a
    let s := { s with window := mwrite s.window (pk1Lines + 8) (leBytes 8 pact.toNat) }
    let ws := lineWords s ((pk1Done s + 1) % 65536);
    pk1Eligible s = true ∧ lineCause s ws = 0 ∧ (ws.drop 1).take (fld (ws.headD 0) 27 25) = [pact] ∧
    pcmdWaits s 11 31 pact = decide (a = 0) := by decide +kernel

/-- A channel that is sealed and one that is not; a PMAC for a quern that is remapped, and with no place. -/
theorem test_Aperture_channel :
    apertureSealed up 11 31 = false ∧ allow up 11 ≠ 0 ∧ allow (withReg up (oQrn 11 qAllow) 0) 11 = 0 ∧
    apertureSealed { up with sec := { pkgs := [(3, { st := .loaded, sealMap := [(11, 0x80000000)] })] } } 11 31 = true ∧
    (let w : W64 := w64 (4 + 63 * 2 ^ 4);
      pcmdWaits (withReg up (oQrn 11 qAllow) 0) 11 31 w = true ∧
      pcmdWaits { atChannel up { spSt := .remapping, remapping := some (0, 63) } with
        querns := [(quernKey 11 31 63, { st := .isolated })] } 11 31 w = true) := by decide +kernel

/-- An open row with a latch slot, on an idle channel. -/
theorem test_Aperture_mac :
    let s := { up with pk1 := { rows := [(pk1Key 11 31 63, (16383, some 127))] } };
    let w : W64 := w64 (4 + 63 * 2 ^ 4);
    fld w 9 4 = 63 ∧ pk1Row s 11 31 63 = some (16383, some 127) ∧ (chanAt s 11 31).seq = .idle ∧
    pmCol0 w + 16 * pmKlen w ≤ 64 ∧ s.link.mode = .pcie ∧ apertureSealed s 11 31 = false ∧ pcmdWaits s 11 31 w = false := by
  decide +kernel

/-! ### DMA, the link and the host -/

def dmaState (ch : DmaCh) : State := { linked with dmas := [(63, ch)] }

/-- One block of 32 B between two scratchpads. -/
def blockDesc : Desc := desc 4 [] 0x100000000000 0x100000080000 (32 + 2 ^ 24)
def inHand : DmaCur := { d := blockDesc }

theorem test_DmaChannels_start :
    (∀ p ∈ [({ origin := .reg, head := some blockDesc } : Start), { origin := .reg, head := none, da := 64 }],
      let s := dmaState { pending := [p] };
      (dmaAt s 63).pending = [p] ∧ (dmaAt s 63).st = .idle ∧ dmaMayStart s = true ∧ dmaHeld s 63 = false ∧
      dmaHeld { s with power := { s.power with held := [.mill 3] } } 63 = true) ∧
    (let p : Start := { origin := .reg, head := some blockDesc }
      let ch : DmaCh := { st := .fetch, start := some p, links := 1 };
      ch.halting = none ∧ ch.aborting = false ∧ ch.ending = none ∧ ch.fetching = none ∧ p.head = some blockDesc ∧
      dmaBad (dmaState ch) 63 blockDesc true = false ∧ dmaBad (dmaState ch) 63 { blockDesc with w6 := 2 } true = true) := by
  decide +kernel

/-- A head at a DA: a descriptor in DRAM, and an address error. -/
theorem test_DmaChannels_fetch :
    (let ch : DmaCh := { st := .fetch, start := some { origin := .reg, head := none, da := 64 }, fetching := some 64 }
      let s := daWrite (dmaState ch) (fun _ => 2) 64 (descBytes blockDesc) []
      let r := fetchDesc s 63 64
      dmaAt s 63 = ch ∧ rangeError s 64 64 = false ∧ rangeWaits s 64 64 = false ∧ r.1 = .desc blockDesc ∧
      dmaBad r.2 63 blockDesc (decide ((dmaAt r.2 63).links ≤ 1)) = false) ∧
    (let s : State := { dmaState {} with effect := [(oGrpCtl 0, 0)] };
      rangeError s 64 64 = true ∧ (fetchDesc s 63 64).1 = .fault 1) := by decide +kernel

theorem test_DmaChannels_block :
    let s := dmaState { st := .run, cur := some inHand }
    let a := blockAddr blockDesc 0 0
    let rd := chanRead s 63 a.src 32
    dmaHeld s 63 = false ∧ inHand.block < blocksOf blockDesc ∧ dPsrc blockDesc = 0 ∧ dSas blockDesc = false ∧ dDas blockDesc = false ∧
    dArr blockDesc = false ∧ dSwid blockDesc = dDwid blockDesc ∧ rangeWaits s a.dst (blockOut blockDesc) true = false ∧
    dBlklen blockDesc = 32 ∧ rangeWaits s a.src 32 = false ∧
    goodSource s none (fun k => dstWithin s k a.dst (blockOut blockDesc) false) (accessPieces s a.src 32) = (32, none) ∧
    cleanBytes a.src rd.2.1 32 = 32 ∧
    goodPrefix rd.2.2 none true (accessPieces rd.2.2 a.dst (rd.1.take 32).length) = ((rd.1.take 32).length, none) ∧
    dIdxs blockDesc = false ∧ dIdxd blockDesc = false ∧ dSas sluiceDesc = true ∧ dDas sluiceDesc = false ∧
    dArr sluiceDesc = false ∧ dPsrc sluiceDesc = 0 ∧ 0 < blocksOf sluiceDesc ∧ linkCarries s = true := by decide +kernel

/-- A channel paced by a queue or by a fill word: at its low mark of 0, and at its high mark of 1. -/
theorem test_DmaChannels_paced : ∀ p ∈ [1, 2],
    let d : Desc := { blockDesc with w6 := w64 (0x200000000000 + p * 2 ^ 48 + 2 ^ 59) }
    let s := dmaState { st := .paced, cur := some { d := d } }
    dPsrc d = p ∧ rangeWaits s (dItab d) 4 = false ∧ dLow d = 0 ∧ (fillOf s 63 { d := d }).1.toOption = some 0 ∧
    dHigh d = 1 ∧
    (let s := if p = 1 then { s with cores := [(dAcore d, { queues := [(dPq d, [{ rid := 0, entry := some value }])] })] }
        else { s with window := mwrite [] 0 [1] };
      (fillOf s 63 { d := d }).1.toOption = some 1) := by decide +kernel

/-- A held arrival; the end of a chain, and a link; a halt that has settled, with EN 1 and without; a halted channel. -/
theorem test_DmaChannels_end :
    qFree (coreAt (dmaState { st := .arrWait, arrivals := [(1199, handle)] }) 1199) 12 1 = true ∧
    (let ch : DmaCh := { st := .run, cur := some { inHand with block := 1 }, start := some { origin := .ring 3, head := none } };
      ch.halting = none ∧ ch.aborting = false ∧ blocksOf blockDesc ≤ 1 ∧ dArr blockDesc = false ∧
      dLink blockDesc = false ∧ dWb blockDesc = false) ∧
    (let d := desc 4 [(9, 1)] 0x100000000000 0x100000080000 (32 + 2 ^ 24)
      let ch : DmaCh := { st := .run, cur := some { d := d, block := 1 }, start := some { origin := .reg, head := none }, links := 1 };
      dLink d = true ∧ ch.links < chainLimit ch ∧
        ownerOf (setDma (dmaState ch) 63 { ch with cur := none, ahead := none }) (dNext d) = none) ∧
    (let s := dmaState { halting := some 3 }; (dmaAt s 63).aborting = false ∧ (dmaAt s 63).arrivals = [] ∧
      regBit s (oDma 63 dCtl) 0 = false ∧ regBit (withReg s (oDma 63 dCtl) 1) (oDma 63 dCtl) 0 = true) := by decide +kernel

/-- A descriptor whose status word has a place in the window, and in a stack that is READY or is not; a chain that waits to
write that word, at its end and after a halt. -/
theorem test_DmaChannels_writeBack : ∀ p ∈ [(0x200000000000, StackSt.ready, false), (64, .ready, false), (64, .loading, true)],
    let d := desc 4 [(10, 1)] 0x100000000000 0x100000080000 (32 + 2 ^ 24)
    let cur : DmaCur := { d := d, da := some p.1, block := 1 }
    let s0 := { up with stks := (List.range 12).map (fun k => (k, { st := p.2.1 })) }
    (∀ ch ∈ [({ st := .run, cur := some cur, start := some { origin := .ring 3, head := none } } : DmaCh),
        { st := .halted, cur := some cur, ending := some (3, false) }, { cur := some cur, halting := some 3 },
        { st := .halted, cur := some cur }],
      let s := { s0 with dmas := [(63, ch)] };
      dWb d = true ∧ dLink d = false ∧ dArr d = false ∧ blocksOf d ≤ cur.block ∧ wbFault s cur = none ∧
      wbWaits s cur = p.2.2 ∧ regBit s (oDma 63 dCtl) 0 = false) := by decide +kernel

/-- Requests without a response: a host read, a block's source, a descriptor, and a NEXT that is fetched ahead; a descriptor
at a stack that is not READY. -/
theorem test_DmaChannels_timeout :
    (let ch : DmaCh := { cur := some { inHand with reading := some 5 }, late := 1 };
      ch.halting = none ∧ ch.late ≠ 0) ∧
    (∀ p ∈ [(({ st := .run, cur := some inHand } : DmaCh), false), ({ st := .fetch, fetching := some 64 }, false),
        ({ st := .run, cur := some { inHand with block := 1 }, ahead := some 64 }, true)],
      (openRange (dmaState p.1) p.1).any (fun x => !rangePaused (dmaState p.1) x.1 x.2) = true ∧
      aheadOpen (dmaState p.1) p.1 = p.2) ∧
    (let ch : DmaCh := { st := .fetch, fetching := some 64 }; let s := { dmaState ch with stks := [] };
      (openRange s ch).any (fun x => rangePaused s x.1 x.2) = true) := by decide +kernel

/-- GO with room for one start more, on an address that no channel owns; a sluice transfer that has failed. -/
theorem test_DmaChannels_go :
    (let p : Start := { origin := .reg, head := none, da := 64 }
      let s := withReg (dmaState { pending := List.replicate 7 p }) (oDma 63 dStartLo) 128;
      bitOf (0x80000000 : W32) 31 = true ∧ (regGet s (oDma 63 dStartLo)).toNat = 128 ∧ 128 % 64 = 0 ∧
      (dmaAt s 63).pending.length < 8 ∧ ownerOf s (128 + 2 ^ 32 * fld (0x80000000 : W32) 15 0) = none) ∧
    (let x : Sluice := { id := 5, did := 3, d := sluiceDesc, tag := 0, status := some 0xC }; let s := { linked with sluices := [x] };
      s.sluices.find? (fun y => y.id == 5) = some x ∧ sluiceBehind s x = false ∧ x.status = some 0xC) ∧
    (let x : Sluice := { id := 5, did := 3, d := sluiceDesc, tag := 9 }
      let s := { linked with sluices := [x], link := { linked.link with reads := [(9, .sluice 5)] } };
      s.link.reads.find? (fun p => p.1 == 9) = some (9, .sluice 5) ∧ s.sluices.find? (fun x => x.id == 5) = some x ∧
      x.status = none ∧ x.got = none ∧ sluiceFault s x.d = none ∧ (∀ w : Bool, rangeWaits s (sluiceDa x.d) (dBlklen x.d) w = false) ∧
      rangeWaits { s with link := { s.link with st := .recovery, mode := .cxl3, window := [(0, .em)] } } (sluiceDa x.d) (dBlklen x.d) true
        = true) := by decide +kernel

/-- Every rate and width that the link's control allows, and the first that it does not. -/
theorem test_HostLink :
    (∀ st ∈ [LinkSt.down, .warm], let s := { up with link := { st := st } };
      s.phase ≠ 0 ∧ s.resetHeld = false ∧ s.power.st ≠ .off ∧ s.link.st = st) ∧
    (∀ st ∈ [LinkSt.training, .recovery, .warmEntry], ({ up with link := { st := st } } : State).link.st = st) ∧
    regFld up oLnkCtl 10 8 = 4 ∧ linked.link.st = .up ∧
    (let s := { linked with link := { linked.link with ideLink := 1, ideSel := 8, mode := .cxl3 } };
      s.link.st = .up ∧ s.link.ideLink = 1 ∧ bitOf s.link.ideSel 3 = true ∧ s.link.mode ≠ .pcie) ∧
    (let s := { linked with link := { linked.link with st := .recovery } };
      linkCarries { s with link := { s.link with st := .up } } = true ∧
      linkCarries { withReg s oIdeCtl 1 with link := { s.link with st := .up } } = false) := by decide +kernel

/-- A request that is performed and one that an IDE policy refuses; the ends of the ranges. -/
theorem test_HostRequests :
    received linked {} = .perform ∧ received (withReg linked oIdeCtl 1) {} = .refuse ∧ linked.link.mode = .pcie ∧
    0x3FFFFFC + 4 ≤ windowSize ∧ 0xFFFFFC + 4 ≤ 0x1000000 ∧ linked.power.st = .active ∧ linked.sec.debug = .locked ∧
    (let s := { linked with sec := { debug := .customer } };
      s.sec.debug ≠ .locked ∧ jtagRange s 0x100000000000 32 = true ∧
      (∀ w : Bool, rangeWaits s 0x100000000000 32 w = false) ∧
      rangeSealRefused s none 0x100000000000 32 false = false ∧ rangeSealRefused s none 0x100000000000 32 true = false ∧
      daKind s 0x100000000000 ≠ .dram ∧ daKind s 0 = .dram ∧ regGet (withReg s oCfgEpoch 0) oCfgEpoch = 0) ∧
    (let s := { up with link := { st := .warm } }; received s {} = .drop ∧ mgmtReads s .bar0 0x800000 32 = true) := by
  decide +kernel

/-- A response to a DMA channel's read. -/
theorem test_HostRequests_dma :
    let cur := { inHand with reading := some 5 }
    let s := { dmaState { st := .run, cur := some cur } with link := { linked.link with reads := [(5, .dma 63)] } };
    s.link.reads.find? (fun p => p.1 == 5) = some (5, .dma 63) ∧ (dmaAt s 63).cur = some cur ∧
    (dmaAt s 63).halting = none := by decide +kernel

/-! ### The twin pair -/

/-- A module paired at slot 1 with its partner at slot 0, on a link that is UP. -/
def paired : State :=
  { linked with twin := { st := .paired, link := 2, keys := some ⟨1, 2⟩, peerSlot := 0 }, pins := { posSample := true } }

/-- ... with the owner table of tensor 7 at DA 0: two blocks of 4 KiB, the first owned here in slot 0 and the second by the
partner; and a session of it. -/
def tabled : State :=
  let h : List Byte := leBytes 4 0x4F574E54 ++ leBytes 4 (1 + 12 * 2 ^ 16) ++ leBytes 4 7 ++ leBytes 4 2 ++ leBytes 8 0x100000
    ++ leBytes 8 16 ++ List.replicate 32 0 ++ leBytes 8 0x11 ++ leBytes 8 (0x10 + noSlot * 2 ^ 8)
  let s := daWrite paired (fun _ => 2) 0 h [false, false, false]
  { s with twin := { s.twin with tables := [(7, 0)], sessions := [{ sid := 5, tensor := 7 }] } }

def table : OTable := { da := 0, log2 := 12, nblock := 2, base := 0x100000, nslot := 16 }

theorem test_table : (tableOf tabled 7).map (fun x => (x.da, x.log2, x.nblock, x.base, x.nslot)) = some (0, 12, 2, 0x100000, 16) ∧
    [0, 1].map (fun n => (getEntry tabled table n).1) = [0x11, w64 (0x10 + noSlot * 2 ^ 8)] := by decide +kernel

/-! ### The pair, continued -/

/-- A module that pairs with slot 0, from a state, with a partner that was in SOLO or not. -/
def pairing (prev : PairSt) (solo : Bool) : State :=
  { up with
    effect := [(oTwnCfg, 8)], pins := { posSample := true, pairAliveIn := true }
    twin := { st := .pairing, link := 2, peerInfo := true, peerGrade := some 0, peerEpoch := 1, peerSlot := 0, prev := prev
              attested := some true, peerAttested := some true, secOk := some true, peerSolo := solo, peerListed := true } }

/-- The link comes UP between partners, and for a module without one, without keys, and in recovery; control core 3 restarts. -/
theorem test_PairStates_linkUp :
    (let s := { up with twin := { st := .paired, keys := some ⟨1, 2⟩, link := 1 } };
      s.power.st ≠ .off ∧ s.phase ≠ 0 ∧ s.sec.recovering = false ∧ s.twin.st = .paired ∧ s.twin.hasKeys = true ∧
      s.twin.hostless = false ∧ s.twin.link = 1 ∧ core3Waits s = false ∧ core3Waits { s with ctl := [(3, { st := 1 })] } = true) ∧
    (∀ st ∈ [PairSt.unpaired, .paired], let s := { up with twin := { st := st } };
      s.twin.link ≠ 2 ∧ s.sec.recovering = false ∧ (s.twin.st = .unpaired ∨ (s.twin.st = .paired ∧ s.twin.hasKeys = false))) ∧
    ({ up with sec := { recovering := true } } : State).sec.recovering = true := by decide +kernel

/-- Pairing that succeeds, from each kind of state, and each of its causes. -/
theorem test_PairStates_pairing :
    (∀ prev ∈ [PairSt.unpaired, .solo, .split], ∀ solo : Bool, let s := pairing prev solo;
      s.twin.st = .pairing ∧ s.twin.link = 2 ∧ pairCause s = some 0 ∧ tablesWait s = false ∧ core3Waits s = false ∧
      s.twin.peerListed = true) ∧
    (let s := { pairing .solo true with twin := { (pairing .solo true).twin with peerListed := false } };
      pairCause s = some 0 ∧ s.twin.peerListed = false) ∧
    (let s := pairing .unpaired false;
      [({ s.twin with peerGrade := some 1 } : Twin), { s.twin with peerEpoch := 3 }, { s.twin with peerSlot := 1 },
        { s.twin with peerAttested := some false }, { s.twin with secOk := some false }, { s.twin with peerEn := false }].map
        (fun x => pairCause { s with twin := x }) = [1, 2, 3, 4, 5, 6].map some) := by decide +kernel

theorem test_PairStates :
    (paired.power.st ≠ .off ∧ paired.twin.link = 2 ∧ paired.twin.st = .paired ∧ paired.pins.pairAliveIn = false) ∧
    (let s := { paired with pins := { pairAliveIn := true }, twin := { paired.twin with link := 1 } };
      Machine.paired s = true ∧ s.twin.link ≠ 2 ∧ s.pins.pairAliveIn = true ∧ s.twin.link = 1) ∧
    (let s := { paired with twin := { paired.twin with aliveFall := some 0, takeover := some (0, false) } };
      s.twin.aliveFall.isSome = true ∧ s.twin.takeover = some (0, false) ∧ (∀ q ∈ s.twin.tables, tableWaits s q.2 = false)) := by
  decide +kernel

/-- A back-fill of the block that is owned here, and its end. -/
theorem test_PairStates_backfill :
    (let s := { tabled with twin := { tabled.twin with st := .syncSrc, backlog := [(7, 0)] } };
      s.twin.hostless = false ∧ s.twin.link = 2 ∧ blockOf s 7 0 = some (table, 0x11) ∧
      tensorWaits s 7 = false ∧ blockWaits s 7 0 = false ∧ (let u := touchBlock s 7 0; eSlot 0x11 ≠ noSlot ∧
        rangeError u (slotDa table (eSlot 0x11)) (blockSize table) = false ∧
        mayCross u (slotDa table (eSlot 0x11)) (blockSize table) (peerPkg u 7 0) = true)) ∧
    (let s := { paired with twin := { paired.twin with sync := true } };
      s.twin.st = .paired ∧ s.twin.sync = true ∧ s.twin.backlog = [] ∧ core3Waits s = false) ∧
    (∀ st ∈ [PairSt.syncSrc, .syncDst], let s := { paired with twin := { paired.twin with st := st } };
      s.twin.backlog = [] ∧ (s.twin.st = .syncSrc ∨ s.twin.st = .syncDst)) := by decide +kernel

def delivered (s : State) (cls : Nat) : State :=
  { s with
    cause := (0, 0xFFF)
    twin := { s.twin with
      rxSeq := tset 0 cls 1 s.twin.rxSeq, keyMsgs := s.twin.keyMsgs + 1
      sendq := s.twin.sendq.filter (fun m => !m.sent || msgAcked m.cls) } }

/-- Every class delivered, dropped, and reserved; a session here and a new one; blocks that may be asked for. -/
theorem test_PairMessages :
    (∀ cls ∈ [1, 2, 3, 4, 5, 6, 7], Delivers tabled {} cls (delivered tabled cls)) ∧
    (∀ h ∈ [({ tagOk := false } : MsgHeader), { mseq := 1 }], Machine.paired paired = true ∧ paired.twin.link = 2 ∧
      paired.twin.hostless = false ∧ (h.tagOk = false ∨ h.mseq ≠ tget 0 paired.twin.rxSeq 1)) ∧
    (tabled.twin.st ≠ .syncSrc ∧ tabled.twin.sync = false ∧ findSession (delivered tabled 2) 6 = none) ∧
    blockOf (delivered tabled 3) 7 2 = none ∧ serveWaits tabled = false ∧ blockWaits tabled 7 0 = false ∧
    tensorWaits tabled 7 = false ∧
    (let v := delivered tabled 3; blockOf v 7 0 = some (table, 0x11) ∧ eSlot 0x11 ≠ noSlot ∧ eState 0x11 = 1 ∧
      eOwner 0x11 = mySlot (touchBlock v 7 0) ∧ rangeError (touchBlock v 7 0) (slotDa table (eSlot 0x11)) (blockSize table) = false ∧
      mayCross (touchBlock v 7 0) (slotDa table (eSlot 0x11)) (blockSize table) none = true) ∧
    (let seals : List (Nat × Pkg) := [(3, { st := .loaded, sealMap := (List.range 12).map (fun k => (k, 0xFFFFFFFF)) })]
      let v := touchBlock { delivered tabled 3 with sec := { pkgs := seals } } 7 0;
      mayCross v (slotDa table (eSlot 0x11)) (blockSize table) none = false) ∧
    tablesWait tabled = false ∧ core3Waits tabled = false ∧
    (let s := { tabled with twin := { tabled.twin with st := .syncSrc } }; s.twin.st = .syncSrc ∧ tablesWait s = false) ∧
    (let v := delivered (daWrite tabled (fun _ => 2) 64 (leBytes 8 0x21) [false]) 3;
      (blockOf v 7 0).map (fun p => eState p.2) = some 2) := by decide +kernel

/-- An acknowledgement of a REPL's part and of its last message, and of an OWNER_UPD. -/
theorem test_PairMessages_ack : ∀ p ∈ [(5, [7, 0, 0, 5, 0, 1, 0]), (5, [7, 0, 0, 5, 0, 1, 1]), (3, [1, 7, 0, 1])],
    let w : TwinWait := { did := 3, op := 4, tensor := 7, blocks := [0] }
    let m : Msg := { cls := p.1, mseq := 0, args := p.2, did := some 3, sent := true }
    let s := { tabled with twin := { tabled.twin with waits := [w], sendq := [m] } }
    serveWaits s = false ∧ (delivered s 4).twin.sendq.find? (fun m => m.cls == p.1 && m.sent) = some m ∧ findWait (delivered s 4) 3 = some w ∧
    (p.1 = 3 → w.blocks = [m.args.getD 2 0]) := by decide +kernel

/-- A replica of the last bytes of a block that the partner owns, a block of a back-fill, and an image. -/
theorem test_PairMessages_blocks :
    (let s := daWrite tabled (fun _ => 2) 72 (leBytes 8 0x110) [false]
      let e : W64 := 0x110;
      blockOf s 7 1 = some (table, e) ∧ eOwner e ≠ mySlot s ∧ eSlot e ≠ noSlot ∧ 4064 + (msgBytes { flits := 1 } (List.replicate 32 0)).length ≤ blockSize table ∧
      rangeError s (slotDa table (eSlot e) + 4064) 32 = false ∧ Machine.paired s = true ∧
      rangeWaits s (slotDa table (eSlot e) + 4064) 32 true = false ∧ s.twin.waits = [] ∧
      rangeError s (slotDa table (eSlot e)) (blockSize table) = false ∧ slotMoving s table 7 1 (eSlot e) = false ∧
      rangeWaits s (slotDa table (eSlot e)) (blockSize table) true = false) ∧
    (let w : TwinWait := { did := 3, op := 6, tensor := 7, blocks := [1], slot := 15 }
      let s := { tabled with twin := { tabled.twin with waits := [w] } };
      s.twin.waits.find? (fun w => w.op == 6 && w.count == 0 && w.tensor == 7 && w.blocks.headD 0 == 1) = some w ∧
      w.slot ≠ noSlot ∧ slotMoving s table 7 1 w.slot = false ∧ rangeError s (slotDa table w.slot) (blockSize table) = false ∧
      rangeWaits s (slotDa table w.slot) (blockSize table) true = false ∧
      blockSize table ≤ 4064 + (msgBytes { flits := 1 } (List.replicate 64 0)).length) ∧
    ({ paired with sec := { recovering := true } } : State).sec.recovering = true ∧ paired.twin.hasKeys = true := by decide +kernel

def twin (op w1 w2 w3 : Nat) : Desc := desc 9 [(8, op)] w1 w2 w3

/-- Every OP of TWIN is handed over. -/
theorem test_Twin_handed : ∀ op < 10, 1 ≤ op → let d := twin op 0 0 0;
    frontChoice (first paired d) 0 = some (taken d) ∧ (checkHead (popRing (first paired d) 0 (taken d)) 0 (taken d)).fail = none ∧
    rCls d = 9 ∧ tOp d = op := by decide +kernel

def handing (s : State) (d : Desc) : State := handed (first s d)

/-- A table to register, beside none and beside a partner's with another NBLOCK; a header that is not valid. -/
theorem test_Twin_register :
    (∀ l ∈ [[], [({ tensor := 7, nblock := 3, log2 := 12, entries := [] } : PeerTable)]],
      let u := handing { tabled with twin := { tabled.twin with peerTables := l } } (twin 1 0 0 0)
      let v := (checkTable u 0).2
      let y := v.twin.tables.foldl (fun s p => touchTable s p.1) v
      (match (checkTable u 0).1 with | .inr (t, k) => [t.nblock, k] | .inl _ => []) = [2, 7] ∧
      (tdel 7 y.twin.tables).length < 256 ∧
      tableEntries { y with twin := { y.twin with tables := tdel 7 y.twin.tables } } + 2 ≤ 8388608 ∧
      partnerDiffers y 7 table = !l.isEmpty) ∧
    (match (checkTable (handing tabled (twin 1 64 0 0)) 64).1 with | .inr _ => 9 | .inl o => o) = 0 := by decide +kernel

/-- UNREGISTER, and SESSION made and closed in SOLO and in PAIRED. -/
theorem test_Twin_tables :
    (let u := handing { tabled with twin := { tabled.twin with sessions := [] } } (twin 2 7 0 0);
      (∀ y ∈ u.twin.sessions, y.tensor ≠ 7) ∧ thas u.twin.tables 7 = true) ∧
    (∀ st ∈ [PairSt.solo, .paired], let u := handing { tabled with twin := { tabled.twin with st := st } } (twin 3 6 7 0);
      bitOf (twin 3 6 7 0).w1 32 = false ∧ u.twin.st = st ∧ findSession u 6 = none ∧ u.twin.sessions.length < 4096 ∧
      thas u.twin.tables 7 = true ∧ (findSession u 5).isSome = true ∧ bitOf (twin 3 (5 + 2 ^ 32) 7 0).w1 32 = true) := by
  decide +kernel

/-- REPL of a block's last 32 bytes; OWN of the block owned here; HANDOVER of its session. -/
theorem test_Twin_repl :
    let d := twin 4 7 (4064 + 32 * 2 ^ 32) 5; let u := handing tabled d
    let v := touchBlock u (tTensor d) (tBlock d)
    let da := slotDa table (eSlot 0x11) + fld d.w2 31 0
    blockOf u (tTensor d) (tBlock d) = some (table, 0x11) ∧
    findSession v (w32 (fld d.w3 31 0)) = some { sid := 5, tensor := 7 } ∧ pairWorks v = true ∧ eOwner 0x11 = mySlot v ∧
    eState 0x11 = 1 ∧ eSlot 0x11 ≠ noSlot ∧ fld d.w2 31 0 + fld d.w2 63 32 ≤ blockSize table ∧
    mayCross v da 32 (peerPkg v (tTensor d) (tBlock d)) = true ∧ rangeError v da 32 = false ∧ v.twin.sync = false ∧
    anyPoison (readAs v (dJobtag d) 0xFFF da 32).2.1 = false := by decide +kernel

theorem test_Twin_move : ∀ b : Bool, let u := handing tabled (if b then twin 5 7 1 0 else twin 7 5 0 0)
    let v := if b then touchTable u 7 else touchEntries u 7
    tableOf u 7 = some table ∧ (findSession u 5).map (·.ownedHere) = some true ∧ tableOf v 7 = some table ∧
    pairWorks v = true ∧ ownsBlock v 7 0 = true ∧ allCross v table 7 [0] = true ∧
    (List.range 2).filter (fun b => eOwner (getEntry v table b).1 == mySlot v && eState (getEntry v table b).1 == 1) = [0] := by
  decide +kernel

/-- HANDOVER of a session that owns no block. -/
theorem test_Twin_handover : let u := handing (daWrite tabled (fun _ => 2) 64 (leBytes 8 0x10) [false]) (twin 7 5 0 0)
    let v := touchEntries u 7;
    tableOf u 7 = some table ∧ (findSession u 5).map (·.ownedHere) = some true ∧ tableOf v 7 = some table ∧
    pairWorks v = true ∧ (List.range 2).filter (fun b => eOwner (getEntry v table b).1 == mySlot v &&
      eState (getEntry v table b).1 == 1) = [] := by decide +kernel

/-- FETCH of the partner's block into the last slot, and while the block or the slot is MOVING. -/
theorem test_Twin_fetch : ∀ e ∈ [0x11, 0x21 + 15 * 2 ^ 8],
    let d := twin 6 (7 + 2 ^ 32) 15 0; let u := handing (daWrite tabled (fun _ => 2) 64 (leBytes 8 e) [false]) d
    let v := touchBlock u 7 1
    let z := addWait v { did := 3, op := 6, tensor := 7, blocks := [1], count := 1, slot := 15, jobtag := dJobtag d }
    (blockOf u (tTensor d) (tBlock d)).map (fun p => (eState p.2, eOwner p.2)) = some (1, v.twin.peerSlot) ∧
    pairWorks v = true ∧ fld d.w2 23 0 < 16 ∧ u.twin.waits = [] ∧ blockOf z 7 1 = blockOf u 7 1 ∧
    slotMoving (touchBlock z 7 1) table 7 1 15 = decide (e ≠ 0x11) := by decide +kernel

/-- TAKEOVER in SPLIT; QUERY to the host, and to a scratchpad. -/
theorem test_Twin_rest :
    (handing { paired with twin := { paired.twin with st := .split } } (twin 8 0 0 0)).twin.st = .split ∧
    bitOf (twin 9 0x1000 (2 ^ 32 + 1) 0).w2 32 = true ∧
    (let d := twin 9 0x100000000000 1 0; let u := handing tabled d; let v := touchEntries u 7;
      bitOf d.w2 32 = false ∧ d.w1.toNat < 2 ^ 48 ∧ (queryRec u { sid := 5, tensor := 7 }).length = 16 ∧
      rangeError v d.w1.toNat 32 = false ∧ rangeSealRefused v none d.w1.toNat 32 true = false) := by decide +kernel

/-! ### Security -/

/-- A negotiated connection on the host port, with a session begun, one established, and a signed response. -/
def spoken : State := { linked with sec := { host := {
  version := true, caps := true, algs := true, sessions := [(0, false), (1, true)], lastHash := some 7 } } }

theorem test_SpdmMessages : portUp spoken .host = true ∧ (∃ x, x = spdmAt spoken .host ∧ x.version = true ∧ x.caps = true ∧
    x.algs = true ∧ x.sessions.length < maxSessions .host ∧ (0, false) ∈ x.sessions ∧ (1, true) ∈ x.sessions ∧
    x.lastHash = some 7) ∧ measAt spoken 1 = some Config.romHash ∧ (1 : Nat) ≠ 0xFF :=
  ⟨by decide +kernel, ⟨_, rfl, by decide +kernel⟩, rfl, by decide +kernel⟩

/-- The WilRil port has one session at a time. -/
theorem test_SpdmMessages_full : let s : State := { paired with sec := { wilril := { algs := true, sessions := [(0, true)] } } };
    portUp s .wilril = true ∧ (spdmAt s .wilril).algs = true ∧
    maxSessions .wilril ≤ (spdmAt s .wilril).sessions.length := by decide +kernel

def keys : OwnerKeys := { ed := [], ml := [], wrap := 0 }

/-- `spoken` in a security state, with a nonce and with or without an owner. -/
def secured (st : SecState) (owned : Bool) : State :=
  { spoken with otp := { state := st }, sec := { spoken.sec with nonce := some 5 }
                flash := { owner := if owned then some keys else none } }

def signed (level : Nat) : Signed := { level := level, nonce := 5, device := deviceHash }

theorem test_SecurityCommands : ∀ st ∈ [SecState.provisioning, .deployed, .decommissioned], ∀ o ∈ [true, false],
    let s := secured st o; portUp s .host = true ∧ changePending s = false ∧ s.sec.work = none ∧
    (∀ k < 4, (pkgAt s k).st = .empty) ∧ (spdmAt s .host).algs = true ∧ inSession s .host 1 = true ∧
    s.sec.debug ≠ .vendor ∧ s.otp.state = st ∧ s.otp.reprov < 3 ∧ s.sec.nonce = some 5 := by decide +kernel

theorem test_SecurityCommands_signed (h1 : ∀ k m g, Config.ed25519Verify k m g = true)
    (h2 : ∀ k m g, Config.mldsaVerify k m g = true) (st : SecState) (n code : Nat) :
    (signed n).level = n ∧ (signed n).nonce = 5 ∧ (signed n).device = deviceHash ∧
    ownerSigned (secured st true) code (signed n) = true ∧ joranoSigned (secured st true) code (signed n) = true := by
  refine ⟨rfl, rfl, rfl, ?_, ?_⟩ <;> simp [ownerSigned, joranoSigned, signedBy, secured, signed, h1, h2]

/-- A fuse write of each row of R435's table; a firmware image of 64 bytes. -/
theorem test_SecurityCommands_fuse :
    ((fuseRow {} { state := .deployed, reprov := false }).isSome = true) ∧
    ((fuseRow { state := .decommissioned, reprov := 2 } { state := .provisioning, reprov := true }).isSome = true) ∧
    (let s := withReg linked oFwLen 64;
      s.sec.fwState ≠ 1 ∧ s.sec.fwState ≠ 2 ∧ regFld s oFwSrc 25 0 = 0 ∧ regFld s oFwLen 24 0 = 64 ∧ s.link.mode = .pcie ∧
      s.otp.svn ≤ 64 ∧ linkCarries s = true ∧ core3Waits s = false ∧ core3Waits { s with ctl := [(3, { st := 1 })] } = true) ∧
    (let s : State := { up with sec := { fwState := 2, fwImage := some {} } };
      s.sec.fwState = 2 ∧ s.sec.fwImage = some {} ∧ s.sec.fwHeld = false ∧ core3Waits s = false) ∧
    (∀ p ∈ [(2 ^ 30, (0 : Nat), true), (0, 3600000000000, true), (2 ^ 30 - 1, 3599999999999, false)],
      let s := { paired with time := w64 p.2.1, twin := { paired.twin with keyMsgs := p.1 } };
      s.twin.keys = some ⟨1, 2⟩ ∧ keyUpdateDue s = p.2.2) := by decide +kernel

theorem test_SecurityCommands_image (h1 : ∀ k m g, Config.ed25519Verify k m g = true)
    (h2 : ∀ k m g, Config.mldsaVerify k m g = true) (i : FwImage) : imageSigned i = true := by simp [imageSigned, h1, h2]

/-! ### Packages -/

/-- A package of 4,448 bytes: one WEIGHTS section of 32 B for row 0 of a bank, on manifest stack 0. -/
def pkgHead : List Byte :=
  leBytes 4 0x4B474B50 ++ leBytes 2 1 ++ List.replicate 2 0 ++ leBytes 8 960 ++ leBytes 8 4448 ++ List.replicate 8 0
def pkgMan : List Byte := leBytes 4 77 ++ List.replicate 8 0 ++ leBytes 1 2 ++ List.replicate 3 0 ++ leBytes 4 1 ++
  List.replicate 12 0
def pkgSect : List Byte := leBytes 8 1 ++ leBytes 8 4416 ++ leBytes 8 32 ++ List.replicate 8 0
def pkgBytes : List Byte := pkgHead ++ List.replicate 32 0 ++ pkgMan ++ List.replicate 864 0 ++ pkgSect ++ List.replicate 3456 0

/-- ... at the start of the exchange window. -/
def packaged : State :=
  let s := { up with flash := { owner := some keys }
                     window := [(0, pkgHead), (64, pkgMan), (960, pkgSect)].foldl (fun m p => mwrite m p.1 p.2) [] }
  withReg (withReg s oPkgLenLo 4448) oPkgSrcHi 0x2000

/-- What a load finds, and the parts of its check that use no engine of another standard. -/
theorem test_Packages :
    pkgBusy packaged = false ∧ (pkgAt packaged 1).st = .empty ∧ packaged.otp.state ≠ .decommissioned ∧
    packaged.flash.owner = some keys ∧ packaged.sec.debug ≠ .vendor ∧ cmdSlot 0x10 = 1 ∧ bitOf (0x10 : W32) 8 = false ∧
    pkgSrc packaged = windowBase ∧ pkgLen packaged = 4448 := by decide +kernel

set_option maxRecDepth 200000 in
theorem test_Packages_range : rangeError packaged windowBase 4448 = false ∧ rangeWaits packaged windowBase 4448 = false := by
  decide +kernel

/-- A source in the window waits for the snoop of a line that the host holds. -/
theorem test_Packages_wait :
    let s := { packaged with regs := [], link := { st := .recovery, mode := .cxl3, window := [(0, .em)] } };
    let s := withReg (withReg s oPkgLenLo 64) oPkgSrcHi 0x2000
    rangeError s (pkgSrc s) (pkgLen s) = false ∧ rangePaused s (pkgSrc s) (pkgLen s) = false ∧
    rangeWaits s (pkgSrc s) (pkgLen s) = true ∧ pkgSrc s < 2 ^ 48 ∧
    rangeSealRefused s none (pkgSrc s) (pkgLen s) false = false := by decide +kernel

set_option maxRecDepth 200000 in
theorem test_Packages_seal : rangeSealRefused packaged none windowBase 4448 false = false := by decide +kernel

/-- On a plain link a read of the window is its bytes, with no poison and no change. -/
theorem daRead_window (s : State) (da len : Nat) (m : s.link.mode = .pcie)
    (h : ∀ p ∈ accessPieces s da len, daKind s p.1 = .window (p.1 - windowBase)) :
    daRead s da len = ((accessPieces s da len).flatMap (fun p => mread s.window (p.1 - windowBase) p.2),
      (accessPieces s da len).map (fun _ => false), s) := by
  have f : ∀ l : List Nat, l.foldl (windowSnoop false) s = s := by
    intro l
    induction l with
    | nil => rfl
    | cons a l ih => rw [List.foldl_cons, show windowSnoop false s a = s by simp [windowSnoop, lineSnoops, m], ih]
  have g : ∀ (l : List (Nat × Nat)) (x : List Byte) (y : List Bool), (∀ p ∈ l, daKind s p.1 = .window (p.1 - windowBase)) →
      l.foldl (fun a p => let r := readPiece a.2.2 p.1 p.2; (a.1 ++ r.1, a.2.1 ++ r.2.1, r.2.2)) (x, y, s) =
        (x ++ l.flatMap (fun p => mread s.window (p.1 - windowBase) p.2), y ++ l.map (fun _ => false), s) := by
    intro l
    induction l with
    | nil => intro x y _; simp
    | cons p l ih =>
      intro x y h
      have e : readPiece s p.1 p.2 = (mread s.window (p.1 - windowBase) p.2, [false], s) := by
        simp [readPiece, h p (by simp), windowRead, f]
      rw [List.foldl_cons]
      simp only [e]
      rw [ih _ _ (fun q hq => h q (by simp [hq]))]
      simp
  exact g _ [] [] h

set_option maxRecDepth 200000 in
theorem test_Packages_kind :
    ∀ p ∈ accessPieces packaged windowBase 4448, daKind packaged p.1 = .window (p.1 - windowBase) := by decide +kernel

/-- The `n`th quarter of what the window holds. -/
def pkgPart (n : Nat) : List Byte :=
  (((accessPieces packaged windowBase 4448).drop (35 * n)).take 35).flatMap
    (fun p => mread packaged.window (p.1 - windowBase) p.2)

set_option maxRecDepth 200000 in
theorem test_Packages_part0 : pkgPart 0 = pkgBytes.take 1120 := by decide +kernel
set_option maxRecDepth 200000 in
theorem test_Packages_part1 : pkgPart 1 = (pkgBytes.drop 1120).take 1120 := by decide +kernel
set_option maxRecDepth 200000 in
theorem test_Packages_part2 : pkgPart 2 = (pkgBytes.drop 2240).take 1120 := by decide +kernel
set_option maxRecDepth 200000 in
theorem test_Packages_part3 : pkgPart 3 = (pkgBytes.drop 3360).take 1120 ∧
    (accessPieces packaged windowBase 4448).length ≤ 140 ∧ pkgBytes.length ≤ 4480 := by decide +kernel

theorem four_parts {α : Type} (l : List α) (n : Nat) (h : l.length ≤ 4 * n) :
    l.take n ++ ((l.drop n).take n ++ ((l.drop (2 * n)).take n ++ (l.drop (3 * n)).take n)) = l := by
  have e : (l.drop (3 * n)).take n = l.drop (3 * n) := List.take_of_length_le (by simp; omega)
  have b : (l.drop n).drop n = l.drop (2 * n) := by rw [List.drop_drop]; exact congrArg (l.drop ·) (by omega)
  have c : (l.drop (2 * n)).drop n = l.drop (3 * n) := by rw [List.drop_drop]; exact congrArg (l.drop ·) (by omega)
  rw [e, ← c, List.take_append_drop, ← b, List.take_append_drop, List.take_append_drop]

theorem test_Packages_source : (daRead packaged windowBase 4448).1 = pkgBytes ∧
    anyPoison (daRead packaged windowBase 4448).2.1 = false ∧ (daRead packaged windowBase 4448).2.2 = packaged := by
  rw [daRead_window _ _ _ rfl test_Packages_kind]
  refine ⟨?_, by simp [anyPoison], rfl⟩
  rw [← four_parts (accessPieces packaged windowBase 4448) 35 (by simpa using test_Packages_part3.2.1),
    ← four_parts pkgBytes 1120 (by simpa using test_Packages_part3.2.2)]
  simp only [List.flatMap_append]
  have p0 := test_Packages_part0
  have p1 := test_Packages_part1
  have p2 := test_Packages_part2
  have p3 := test_Packages_part3.1
  unfold pkgPart at p0 p1 p2 p3
  rw [← p0, ← p1, ← p2, ← p3]
  rfl

theorem test_Packages_check (h1 : ∀ k m g, Config.ed25519Verify k m g = true)
    (h2 : ∀ k m g, Config.mldsaVerify k m g = true) (h3 : ∀ k w, Config.aesKwUnwrap k w = some 9) :
    checkPackage packaged 1 pkgBytes 4448 = .inr 9 := by
  have o : packaged.flash.owner = some keys := by decide +kernel
  have a : packageBad pkgBytes 4448 = false := by decide +kernel
  have b : mGrade (pManifest pkgBytes) = 2 ∧ mNbind (pManifest pkgBytes) = 0 ∧ mFlags (pManifest pkgBytes) = 0 ∧
    mSvn (pManifest pkgBytes) = 0 ∧
    tget 0 packaged.flash.minSvn (mId (pManifest pkgBytes)) = 0 ∧ sealFails packaged 1 (pManifest pkgBytes) = false := by decide +kernel
  simp [checkPackage, o, a, b, h1, h2, h3]

/-- A load whose one section opens and is written, and an unload. -/
def load : PkgWork := { slot := 1, loading := true, bytes := some pkgBytes, xlat := List.range 12 }

def loadingPkg : State :=
  { packaged with sec := { work := some load, pkgs := [(1, { st := .loading, key := some 9 })] } }

theorem test_Packages_write (h : ∀ k i c t, Config.aesGcmOpen k i c t = some (List.replicate 32 3)) :
    loadingPkg.sec.work = some load ∧ load.bytes = some pkgBytes ∧ (pkgAt loadingPkg 1).key = some 9 ∧
    loadWaits loadingPkg load 9 pkgBytes = false ∧ (∃ u, writeSections loadingPkg load 9 pkgBytes
      (sections (pManifest pkgBytes)) = (u, true) ∧ entriesLocked u 1 = true) := by
  have l : (sections (pManifest pkgBytes)).length = 1 := by decide +kernel
  obtain ⟨x, e⟩ := List.length_eq_one_iff.mp l
  have f : ∀ x ∈ sections (pManifest pkgBytes), x.type = 1 ∧ x.len = 32 ∧ x.stack = 0 := by decide +kernel
  have f := f x (by simp [e])
  refine ⟨rfl, rfl, by decide +kernel, ?_, ?_⟩
  · have p : ¬regGet loadingPkg oCfgEpoch = 0#32 := by decide +kernel
    simp [loadWaits, load, e, f, p]
  · have g : ∀ x ∈ sections (pManifest pkgBytes), entriesLocked (writeWeights loadingPkg 0 x (List.replicate 32 3)) 1 = true := by
      decide +kernel
    simpa [writeSections, writeSection, load, e, h, f] using g x (by simp [e])

set_option maxRecDepth 200000 in
/-- Its source is still what was read for the check; a load that has failed has none. -/
theorem test_Packages_section : sectionSource loadingPkg load = (some pkgBytes, loadingPkg) ∧
    (sectionSource loadingPkg { load with failErr := 8 }).1 = none ∧ rangeWaits loadingPkg (pkgSrc loadingPkg) 4448 = false := by
  have n : pkgBytes.length = 4448 := by decide +kernel
  have d : daRead loadingPkg windowBase 4448 = ((daRead packaged windowBase 4448).1,
      (daRead packaged windowBase 4448).2.1, loadingPkg) := by
    rw [daRead_window loadingPkg _ _ rfl (by decide +kernel), daRead_window packaged _ _ rfl test_Packages_kind]
    rfl
  have g : rangeError loadingPkg windowBase 4448 = false ∧ rangePaused loadingPkg windowBase 4448 = false ∧
      rangeSealRefused loadingPkg none windowBase 4448 false = false ∧ pkgSrc loadingPkg = windowBase ∧
      rangeWaits loadingPkg windowBase 4448 = false := by decide +kernel
  have p := test_Packages_source
  simp [sectionSource, load, n, d, g, p, List.take_append_drop]

/-- ... and one that does not open. -/
theorem test_Packages_write_fails (h : ∀ k i c t, Config.aesGcmOpen k i c t = none) :
    loadWaits loadingPkg load 9 pkgBytes = false ∧
    writeSections loadingPkg load 9 pkgBytes (sections (pManifest pkgBytes)) = (loadingPkg, false) := by
  have l : (sections (pManifest pkgBytes)).length = 1 := by decide +kernel
  obtain ⟨x, e⟩ := List.length_eq_one_iff.mp l
  constructor
  · have p : ¬regGet loadingPkg oCfgEpoch = 0#32 := by decide +kernel
    simp [loadWaits, load, h, p]
  · simp [writeSections, writeSection, e, h]

/-- A package from host memory, without the link and with it. -/
theorem test_Packages_host : bitOf (0x110 : W32) 8 = true ∧ cmdSlot 0x110 = 1 ∧
    linkCarries packaged = false ∧ linkCarries { packaged with link := linked.link } = true := by decide +kernel

theorem test_Packages_unload :
    (let s : State := { up with sec := { work := some { slot := 1, loading := false }, pkgs := [(1, { st := .unloading })] } };
      s.sec.work = some { slot := 1, loading := false } ∧ s.sec.work.map (·.failErr) = some 0 ∧ unloadWaits s 1 = false ∧ s.sec.unloads = [] ∧ s.sec.after = none ∧
      (pkgAt s 1).locked = []) ∧
    (∀ st ∈ [PkgSt.loaded, .unloading], let s : State := { up with sec := { pkgs := [(1, { st := st })] } };
      pkgBusy s = false ∧ (pkgAt s 1).st ≠ .empty ∧ (pkgAt s 1).st ≠ .failed) ∧ up.flash.owner = none := by decide +kernel

/-! ### The log and the trace -/

theorem test_LogAndTrace_waiting : let s : State := { up with log := { ingress := [(false, {})], waiting := [({}, none)] } };
    s.log.ingress = [(false, {})] ∧ s.log.waiting = [({}, none)] ∧ s.log.dropped = false ∧
    generalFill { s.log with ingress := [] } < 256 := by decide +kernel

theorem test_LogAndTrace :
    (let s := event up 4 0 0 0 0; s.log.ingress.map (fun p => p.2.cls) = [4] ∧ s.log.waiting = [] ∧ s.log.dropped = false) ∧
    (∀ n ∈ [0, 3], let s : State := { up with log := { coal := [{ last := {}, first := 0, count := n }] } };
      s.log.coal[0]? = some { last := {}, first := 0, count := n } ∧ generalFill s.log < 256) ∧
    (let s : State := { up with log := { due := [4] } };
      4 ∈ s.log.due ∧ regBit s oLogPend 4 = false ∧ regBit (withReg s oLogPend 16) oLogPend 4 = true) ∧
    (let s := trace (withReg (withReg (withReg up oTraceCtl 0x81) oTraceSize 12) oTraceLo 0x1000) 4 0 0
      let da := (traceBase s + 32 * ((regGet s oTraceWptr).toNat % traceLen s)) % 2 ^ 48;
      s.trace.length = 1 ∧ regGet s oCfgEpoch ≠ 0 ∧ regBit s oTraceCtl 0 = true ∧ da = 0x1000 ∧ rangeWaits s da 32 true = false ∧
      rangeError s da 32 = false ∧ (regBit s oTraceCtl 1 && regBit s oTraceStatus 0) = false ∧
      rangeSealRefused s none da 32 true = false) := by decide +kernel

/-! ### The module as a whole -/

/-- A state that meets the invariant and has a command waiting, and its step. -/
theorem test_StepInv : let s := { State.reset with pending := [.powerUp 48000] };
    s.inv = true ∧ ∃ t, step s = .next t ∧ t.pending = [] := ⟨by decide +kernel, _, rfl, by decide +kernel⟩

/-- A fuse write that changes the state. -/
theorem test_FusesFixed : let s : State := { up with sec := { fuse := some { state := .deployed, reprov := false } } };
    s.otp.state = .provisioning ∧ ∃ t, exec .fuseWriteComplete s = .next t ∧ t.otp.state = .deployed := by
  exact ⟨rfl, _, rfl, rfl⟩

theorem test_inv_select : let f : Fuses := { grade := .select
                                             absent := (List.range 12).flatMap (fun r => (List.range 20).map (100 * r + ·)) };
    f.legal = true ∧ ({ f with absent := f.absent.drop 1 } : Fuses).legal = false := by decide +kernel

/-! ### The spec's worked examples -/

/-- Addresses of core 537: its presence bit and its register page. -/
theorem test_example_core :
    regRead { up with fuses := { grade := .select, absent := [537] } } 0x200054 = 0xFFFFFFDF ∧ oCore 537 0 = 0x287400 ∧
    scratchBase + 537 * scratchSize = 0x100010C80000 := by decide +kernel

/-- One DA under the reset map, and under the channel-hashed one. -/
def hashed : State :=
  { up with effect := (List.range 5).foldl (fun t j =>
      tset 0 (oMapSel 0 (2 + j) 0) (w32 ((2 ^ (11 + j) + 2 ^ (22 + j)) / 32)) t) up.effect }

theorem test_example_map :
    (let l := locate up 0x001234567880;
      (l.stack, l.loc.chan, l.loc.layer, l.loc.bank, l.loc.row, l.off) = (1, 15, 5, 2, 2257, 4 * 32)) ∧
    (let l := locate hashed 0x001234567880;
      (l.stack, l.loc.chan, l.loc.layer, l.loc.bank, l.loc.row, l.off) = (1, 30, 5, 2, 2257, 4 * 32)) := by decide +kernel

/-- One bit, then two: a masked write, and the counters after it is read. -/
def flipped (mask : Nat) : State :=
  let s := withReg (withReg up (oStk 1 (kFlipMask 0)) mask) (oStk 1 kFlipCtl) 0xF1
  (daRead (daWrite s (fun _ => 1) 0x001234567880 (List.replicate 32 0x5A) [false]) 0x001234567880 32).2.2

theorem test_example_flip : hTimes 1 = 7 ∧ hTimes 2 = 0xB ∧
    [1, 3].map (fun m => ([kCe, kUe, kRowFix].map (fun o => (regGet (flipped m) (oStk 1 o)).toNat),
      (daRead (flipped m) 0x001234567880 32).1 == List.replicate 32 0x5A, regGet (flipped m) (oStk 1 kFlipCtl)))
      = [([1, 0, 0], true, 0x100F0), ([0, 1, 1], true, 0x100F0)] := by decide +kernel

/-- The operation word of quern 5 of the projection, and the words of the tile mover. -/
theorem test_example_words :
    (let w : W128 := 0x000000003F8000000000001001600401#128;
      (opwOp w, opwWfmt w, opwAfmt w, opwNvec w, opwKlen w, opwLsel w, opwCount w) = (1, 0, 0, 1, 16, 5, 16)) ∧
    (let s := on 0x000000060000028B0000000000000091#128;
      let s := setCore s 0 { coreAt s 0 with params := [(2, 0x12340000), (10, 3)] };
      (match exec (.shl 0) s with | .next t => (coreAt t 0).params | _ => []) = [(2, 0x12340000), (10, 3), (11, 192)]) ∧
    (let s := on 0x000000000000B08C0000000000000021#128;
      let s := setCore s 0 { coreAt s 0 with params := [(2, 0x12340000), (11, 192)] };
      (match exec (.add 0) s with | .next t => pGet (coreAt t 0) 12 | _ => 0) = 0x123400C0) ∧
    (let s := on 0x044C0000000000000000901000000003#128;
      memDa (fet (setCore s 0 { coreAt s 0 with params := [(12, 0x12340040)] })) = 0x001234004000) := by decide +kernel

end Sys2Proof.Tests
end

/-! SUPPORT. Proofs about the module as a whole: what every command leaves of the queue and of the fuses (R2, R3, R435,
R456), and the invariant that every step keeps. -/

namespace Sys2Proof.Machine

open Sys2Proof

/-! ### The fuses and the rows of R435's table -/

theorem otp_legal_iff (o : Otp) : o.legal = true ↔ o.reprov ≤ 3 ∧ o.svn ≤ 64 := by
  simp [Otp.legal]

theorem inv_iff (s : State) :
    s.inv = true ↔ s.pending.all Instr.wf = true ∧ s.fuses.legal = true ∧ s.otp.legal = true := by
  simp only [State.inv, Bool.and_eq_true, and_assoc]

theorem otpChange_of_eq {o o' : Otp} (hst : o'.state = o.state) (hre : o'.reprov = o.reprov) : otpChange o o' :=
  .inl ⟨hst, hre⟩

/-- Only the way back to PROVISIONING counts in REPROV, and it is open below 3 alone. -/
theorem reprov_le_of_otpChange {o o' : Otp} (h : otpChange o o') (hle : o.reprov ≤ 3) : o'.reprov ≤ 3 := by
  rcases h with ⟨-, hre⟩ | ⟨-, -, hre⟩ | ⟨-, -, hre⟩ | ⟨-, -, hre⟩ | ⟨-, -, hlt, hre⟩ <;> omega

/-- Each change that a fuse write finds in the table is a row of R435. -/
theorem otpChange_of_fuseRow {o o' : Otp} {f : FuseWrite} (h : fuseRow o f = some o') : otpChange o o' := by
  unfold fuseRow at h
  split at h
  case h_1 hst _ _ => cases h; exact .inr (.inl ⟨hst, rfl, rfl⟩)
  case h_2 hst _ _ => cases h; exact .inr (.inr (.inl ⟨hst, rfl, rfl⟩))
  case h_3 hst _ _ => cases h; exact .inr (.inr (.inr (.inl ⟨hst, rfl, rfl⟩)))
  case h_4 hst _ _ =>
    split at h
    case isTrue hlt => cases h; exact .inr (.inr (.inr (.inr ⟨hst, rfl, hlt, rfl⟩)))
    case isFalse => cases h
  case h_5 => cases h

theorem fuseWriteComplete_otpChange (s : State) : otpChange s.otp (fuseWriteComplete s).otp := by
  unfold fuseWriteComplete
  split
  case h_1 => exact otpChange_of_eq rfl rfl
  case h_2 f _ =>
    split
    case h_1 o hrow => simpa only [event_frame] using otpChange_of_fuseRow hrow
    case h_2 => exact otpChange_of_eq rfl rfl

/-! ### How a command ends -/

/-- Every command ends in one of three ways: it leaves all fuses, or lets the SVN alone rise, or is the fuse write. -/
theorem exec_ends (c : Instr) (s : State) :
    (∃ x, exec c s = ran s x) ∨ (∃ x, exec c s = ranSvn s x) ∨
      (c = .fuseWriteComplete ∧ exec c s = burned s (fuseWriteComplete s)) := by
  cases c with
  | fuseWriteComplete => exact .inr (.inr ⟨rfl, rfl⟩)
  | hostPostedWrite | svnCommit | registerWrite | hostMemoryReadResponse | jtagAccess => exact .inr (.inl ⟨_, rfl⟩)
  | _ => exact .inl ⟨_, rfl⟩

/-- What a command leaves of the queue and of the fuses, in every state. -/
structure Keeps (c : Instr) (s t : State) : Prop where
  pending : t.pending = s.pending
  fuses : t.fuses = s.fuses
  row : otpChange s.otp t.otp
  svn_mono : s.otp.svn ≤ t.otp.svn
  svn_le : s.otp.svn ≤ 64 → t.otp.svn ≤ 64
  security : c ≠ .fuseWriteComplete → t.otp.state = s.otp.state ∧ t.otp.reprov = s.otp.reprov

theorem ran_keeps (c : Instr) (s x : State) : ∃ t, ran s x = .next t ∧ Keeps c s t :=
  ⟨_, rfl, rfl, rfl, otpChange_of_eq rfl rfl, Nat.le_refl _, id, fun _ => ⟨rfl, rfl⟩⟩

theorem ranSvn_keeps (c : Instr) (s x : State) : ∃ t, ranSvn s x = .next t ∧ Keeps c s t :=
  ⟨_, rfl, rfl, rfl, otpChange_of_eq rfl rfl, Nat.le_max_left _ _, fun h => Nat.max_le.2 ⟨h, Nat.min_le_left _ _⟩,
    fun _ => ⟨rfl, rfl⟩⟩

/-- The write's own changes of the state and of REPROV go through, whatever they are; so `x` has to keep to the table. -/
theorem burned_keeps {s x : State} (h : otpChange s.otp x.otp) :
    ∃ t, burned s x = .next t ∧ Keeps .fuseWriteComplete s t :=
  ⟨_, rfl, rfl, rfl, h, Nat.le_refl _, id, fun hne => absurd rfl hne⟩

/-- Every command completes, and keeps the queue and the fuses as `Keeps` says. -/
theorem exec_keeps (c : Instr) (s : State) : ∃ t, exec c s = .next t ∧ Keeps c s t := by
  rcases exec_ends c s with ⟨x, hx⟩ | ⟨x, hx⟩ | ⟨rfl, hx⟩ <;> rw [hx]
  · exact ran_keeps c s x
  · exact ranSvn_keeps c s x
  · exact burned_keeps (fuseWriteComplete_otpChange s)

theorem keeps_of_exec {c : Instr} {s t : State} (h : exec c s = .next t) : Keeps c s t := by
  obtain ⟨u, hu, hk⟩ := exec_keeps c s
  cases h.symm.trans hu
  exact hk

/-! ### The invariant -/

theorem otp_legal_of_keeps {c : Instr} {s t : State} (hk : Keeps c s t) (h : s.otp.legal = true) :
    t.otp.legal = true := by
  rw [otp_legal_iff] at h ⊢
  exact ⟨reprov_le_of_otpChange hk.row h.1, hk.svn_le h.2⟩

theorem inv_of_keeps {c : Instr} {s t : State} (hk : Keeps c s t) (h : s.inv = true) : t.inv = true := by
  rw [inv_iff] at h ⊢
  obtain ⟨hwf, hfuses, hotp⟩ := h
  exact ⟨hk.pending ▸ hwf, hk.fuses ▸ hfuses, otp_legal_of_keeps hk hotp⟩

/-- What stands behind the front command is well formed with it. -/
theorem inv_tail {s : State} {c : Instr} {rest : List Instr} (hp : s.pending = c :: rest) (h : s.inv = true) :
    ({ s with pending := rest } : State).inv = true := by
  rw [inv_iff] at h ⊢
  rw [hp, List.all_cons, Bool.and_eq_true] at h
  exact ⟨h.1.2, h.2⟩

/-- An idle tick moves the time alone; the front command keeps the invariant of the queue behind it. -/
theorem step_preserves_inv {s t : State} (h : s.inv = true) (hs : step s = .next t) : t.inv = true := by
  unfold step at hs
  split at hs
  case h_1 => cases hs; exact h
  case h_2 c rest hp => exact inv_of_keeps (keeps_of_exec hs) (inv_tail hp h)

/-! ### The statements -/

/-- Settles O59: `step_preserves_inv`, and what every command keeps. -/
theorem stepInv : Obligations.StepInv := by
  refine ⟨fun s t h hs => step_preserves_inv h hs, fun c s => ?_⟩
  obtain ⟨t, ht, hk⟩ := exec_keeps c s
  exact ⟨t, ht, hk.pending, hk.row, hk.svn_mono, hk.security⟩

/-- Settles O60: no way in which a command ends touches the fuses of manufacture. -/
theorem fusesFixed : Obligations.FusesFixed := fun _ _ _ h => (keeps_of_exec h).fuses

end Sys2Proof.Machine

/-! SUPPORT. The restart of control core 3 (R38): what came for it while it restarted is taken up, a held firmware update
(R456) among it. This refutes the statement on the control cores. -/

namespace Sys2Proof.Machine

open Sys2Proof

/-- Control core 3 runs again; what waited for it is taken up afterwards, in `controlCoreResumes`. -/
theorem controlCoreRestartDone_three {s : State} (hst : (ctlAt s 3).st = 1) :
    controlCoreRestartDone 3 s = setCtl s 3 { ctlAt s 3 with st := 0 } :=
  if_neg (not_not_intro hst)

theorem pairResumes_of_upHeld_none {s : State} (hup : s.twin.upHeld = none) : pairResumes s = s := by
  unfold pairResumes
  rw [hup]

/-- Once control core 3 runs again, what came from the pair is taken up, then a held firmware update. -/
theorem controlCoreResumes_three {s : State} (hst : (ctlAt s 3).st = 1) :
    controlCoreResumes 3 s =
      let t := pairResumes (controlCoreRestartDone 3 s)
      if t.sec.fwHeld then fwGo { t with sec := { t.sec with fwHeld := false } } else t := by
  have hgo : ¬ ((3 : Fin 4).val ≠ 3 ∨ ¬ (ctlAt s 3).st = 1) := fun h => h.elim (absurd rfl) (absurd hst)
  exact if_neg hgo

/-- The firmware update that waited for control core 3 starts as its restart ends. -/
theorem exec_restartDone_three_of_fwHeld {s : State} (hst : (ctlAt s 3).st = 1) (hup : s.twin.upHeld = none)
    (hfw : s.sec.fwHeld = true) : exec (.controlCoreRestartDone 3) s =
      .next (kept s (fwGo { setCtl s 3 { ctlAt s 3 with st := 0 } with sec := { s.sec with fwHeld := false } })) := by
  have hpair : pairResumes (setCtl s 3 { ctlAt s 3 with st := 0 }) = setCtl s 3 { ctlAt s 3 with st := 0 } :=
    pairResumes_of_upHeld_none hup
  have hres : controlCoreResumes 3 s =
      fwGo { setCtl s 3 { ctlAt s 3 with st := 0 } with sec := { s.sec with fwHeld := false } } := by
    rw [controlCoreResumes_three hst, controlCoreRestartDone_three hst, hpair]
    exact if_pos hfw
  exact congrArg (ran s) hres

/-- An update of length 0 ends at once with the error 5, whatever else holds (R456). -/
theorem fwGo_of_length_zero {s : State} (h1 : s.sec.fwState ≠ 1) (h2 : s.sec.fwState ≠ 2) (hcc : core3Waits s = false)
    (hlen : regFld s oFwLen 24 0 = 0) : fwGo s = fwFails s 5 := by
  have hidle : ¬ (s.sec.fwState = 1 ∨ s.sec.fwState = 2) := fun h => h.elim h1 h2
  have hruns : ¬ core3Waits s = true := by
    rw [hcc]
    exact Bool.false_ne_true
  unfold fwGo
  rw [if_neg hidle, if_neg hruns]
  exact if_pos (.inr (.inl hlen))

/-- A module in phase READY whose control core 3 restarts. -/
def core3Restarting : State := { phase := 5, bootDone := true, ctl := [(3, { st := 1 })] }

/-- ... after an FW_GO with FW_LEN 0, which waits for control core 3. -/
def updateHeld : State := { core3Restarting with sec := { fwHeld := true } }

/-- The model reaches the counterexample's state. -/
theorem exec_fwGo_core3Restarting : exec .fwGo core3Restarting = .next updateHeld := rfl

/-- After the restart the update waits no longer: it has failed with the error 5. -/
theorem exec_restartDone_updateHeld :
    ∃ t, exec (.controlCoreRestartDone 3) updateHeld = .next t ∧ t.sec.fwHeld = false ∧ t.sec.fwErr = 5 := by
  refine ⟨_, exec_restartDone_three_of_fwHeld rfl rfl rfl, ?_⟩
  rw [fwGo_of_length_zero (by decide) (by decide) rfl rfl]
  exact ⟨rfl, rfl⟩

/-- Refutes O37: the clause on a restart with no work left gives `u` for every control core, with no condition on what
control core 3 holds (R38); with a firmware update held, its restart takes that update up, where `u` still holds it. -/
theorem not_controlCores : ¬ Obligations.ControlCores := by
  intro h
  obtain ⟨-, -, -, hidle, -⟩ := h 3 updateHeld _ rfl
  have hu := hidle rfl rfl rfl rfl (fun p hp => absurd hp (List.not_mem_nil))
  obtain ⟨t, ht, hheld, -⟩ := exec_restartDone_updateHeld
  cases hu.symm.trans ht
  cases hheld

end Sys2Proof.Machine

/-! SUPPORT. The patrol scrub (R104) of a channel whose own counts start a migration of the row's layer (R108, R110): the
repair then goes where the row is said to be served from, and not to the row that was read. This refutes the statement on
repairs and the scrub. -/

namespace Sys2Proof.Machine

open Sys2Proof

/-- A channel that is CLEAN with its spare layer serving layer 1, where one more corrected column of layer 0 exceeds the
threshold of STK_SPARE_CTL with AUTO set (R108); column 0 of the row at the scrub position holds a flipped bit. -/
def cleanWithLayerOut : State :=
  { stks := [(0, { st := .ready, layerCe := [(0, 1)] })]
    chans := [(0, { layerOut := true, spLayer := 1 })]
    regs := [(oStk 0 kSpareCtl, 0x1000100)]
    dramErr := [(0, 1)] }

/-- The row at the scrub position. -/
def scrubbedRow : Loc := { chan := 0, layer := 0, bank := 0, row := 0 }

/-- The scrub goes to a row in service, in a bank that no stream holds, and no higher engine goes first. -/
theorem scrub_due_cleanWithLayerOut :
    (stackAt cleanWithLayerOut 0).st = .ready ∧ engineBlocked cleanWithLayerOut 0 4 = false ∧
      scrubbedRow = scrubLoc (stackAt cleanWithLayerOut 0).scrubPos ∧
      inService (chanAt cleanWithLayerOut 0 0) 0 = true ∧ bankStreams cleanWithLayerOut 0 0 0 = false := by
  decide +kernel

/-- Its count starts a migration of layer 0. With the spare layer in service the row's only copy is then the spare layer's,
and the row that was read keeps its flipped bit. -/
theorem patrolScrubRead_cleanWithLayerOut :
    let t := kept cleanWithLayerOut (patrolScrubRead 0 cleanWithLayerOut)
    (chanAt t 0 0).spSt = .migrating ∧ writeKeys t 0 scrubbedRow = [rowKey 0 0 16 0 0] ∧
      errCols t (rowKey 0 0 0 0 0) = [0] := by
  decide +kernel

theorem exec_patrolScrubRead (k : Fin 12) (s : State) :
    exec (.patrolScrubRead k) s = .next (kept s (patrolScrubRead k s)) := rfl

/-- Refutes O42: the clause on a scrub that repairs its row speaks of every state, with no condition that ties a channel's
state (R118) to what its spare layer serves. Where a CLEAN channel has the spare layer in service, which no command of the
model brings about, the migration that the scrub's own count starts (R108) moves the row before it is repaired. -/
theorem not_repairScrub : ¬ Obligations.RepairScrub := by
  intro h
  obtain ⟨-, hscrub, -, -⟩ := h cleanWithLayerOut 0 0 0
  obtain ⟨hready, hfree, hrow, hin, hstream⟩ := scrub_due_cleanWithLayerOut
  obtain ⟨-, -, hrepairs⟩ := hscrub scrubbedRow _ _ hready hfree hrow rfl rfl
  obtain ⟨t, ht, hnone, -⟩ := hrepairs hin hstream
  obtain ⟨-, -, hleft⟩ := patrolScrubRead_cleanWithLayerOut
  rw [exec_patrolScrubRead] at ht
  injection ht with ht
  rw [← ht] at hnone
  exact absurd (hleft.symm.trans hnone) (List.cons_ne_nil _ _)

end Sys2Proof.Machine

/-! SUPPORT. Sparing (R107–R118, R123): what the loss of a stack leaves of it, the copy of a row that holds no flipped bit,
the switchover of a layer, the remap of a bank, and the requests. This settles the statement on sparing. -/

namespace Sys2Proof.Machine

open Sys2Proof

/-! ### Channels -/

theorem chanAt_of_chans_eq {s t : State} (h : t.chans = s.chans) (k c : Nat) : chanAt t k c = chanAt s k c := by
  unfold chanAt
  rw [h]

theorem chanAt_event (s : State) (a b d e u p : Nat) (j : W32) (g k c : Nat) :
    chanAt (event s a b d e u p j g) k c = chanAt s k c := chanAt_of_chans_eq (by simp) k c

theorem chanAt_recordSpare (s : State) (r : SpareRec) (k c : Nat) : chanAt (recordSpare s r) k c = chanAt s k c := rfl

/-- The end of a command leaves the channels alone. -/
theorem chanAt_kept (s x : State) (k c : Nat) : chanAt (kept s x) k c = chanAt x k c := rfl

theorem chanAt_modChan_cases (s : State) (k c j d : Nat) (f : Chan → Chan) :
    chanAt (modChan s k c f) j d = f (chanAt s j d) ∨ chanAt (modChan s k c f) j d = chanAt s j d := by
  by_cases h : chanKey j d = chanKey k c
  · left
    unfold chanAt
    rw [h]
    exact chanAt_modChan s k c f
  · exact .inr (tget_tset_ne _ _ _ _ _ _ h)

/-! ### What the loss of a stack leaves of its channels' sparing (R119) -/

/-- No channel has changed its state of sparing, nor what its spare layer serves (R118, R112). -/
def sparingKept (s t : State) : Prop :=
  ∀ k c, (chanAt t k c).spSt = (chanAt s k c).spSt ∧ (chanAt t k c).layerOut = (chanAt s k c).layerOut

theorem sparingKept_trans {s t u : State} (h : sparingKept s t) (g : sparingKept t u) : sparingKept s u :=
  fun k c => ⟨(g k c).1.trans (h k c).1, (g k c).2.trans (h k c).2⟩

theorem sparingKept_of_chans_eq {s t : State} (h : t.chans = s.chans) : sparingKept s t := fun k c => by
  rw [chanAt_of_chans_eq h]
  exact ⟨rfl, rfl⟩

theorem sparingKept_fold {α : Type} (g : State → α → State) (h : ∀ s x, sparingKept s (g s x)) (l : List α) (s : State) :
    sparingKept s (l.foldl g s) := by
  induction l generalizing s with
  | nil => exact fun _ _ => ⟨rfl, rfl⟩
  | cons x r ih => exact sparingKept_trans (h s x) (ih _)

theorem sparingKept_modChan (s : State) (k c : Nat) (f : Chan → Chan)
    (h : ∀ ch, (f ch).spSt = ch.spSt ∧ (f ch).layerOut = ch.layerOut) : sparingKept s (modChan s k c f) := fun j d => by
  rcases chanAt_modChan_cases s k c j d f with e | e
  · rw [e]
    exact h _
  · rw [e]
    exact ⟨rfl, rfl⟩

theorem sparingKept_event (s : State) (a b d e u p : Nat) (j : W32) (g : Nat) :
    sparingKept s (event s a b d e u p j g) := sparingKept_of_chans_eq (by simp)

theorem sparingKept_jobOutcome (s : State) (id : Option Nat) (c code : Nat) : sparingKept s (jobOutcome s id c code) := by
  cases id <;> exact sparingKept_of_chans_eq rfl

theorem sparingKept_resetQuerns (s : State) (k c : Nat) (bs : List Nat) : sparingKept s (resetQuerns s k c bs) :=
  sparingKept_fold _ (fun s w => sparingKept_of_chans_eq (by simp [noteStreamFlags])) bs s

theorem sparingKept_abortChan (s : State) (k c : Nat) : sparingKept s (abortChan s k c) := by
  unfold abortChan
  simp only []
  split
  · exact sparingKept_of_chans_eq rfl
  · exact sparingKept_trans (sparingKept_trans (sparingKept_resetQuerns s k c _) (sparingKept_jobOutcome _ _ _ _))
      (sparingKept_modChan _ _ _ _ (fun _ => ⟨rfl, rfl⟩))

theorem sparingKept_modSlot (s : State) (m : Bool) (d : TileId) (f : Slot → Slot) : sparingKept s (modSlot s m d f) :=
  sparingKept_modChan s _ _ _ (fun _ => by cases m <;> exact ⟨rfl, rfl⟩)

theorem sparingKept_tileGot (s : State) (x : Option (List Byte × List Bool)) (q : SeqReq) :
    sparingKept s (tileGot s x q) := by
  cases q with
  | tile off dests => exact sparingKept_fold _ (fun s d => sparingKept_modSlot s false d _) dests s
  | mill off d => exact sparingKept_modSlot s true d _
  | unit | quiet | access => exact sparingKept_of_chans_eq rfl

theorem sparingKept_failReq (s : State) (r : FarReq) : sparingKept s (failReq s r) := by
  unfold failReq
  split
  · exact sparingKept_of_chans_eq rfl
  · split
    · exact sparingKept_modChan s _ _ _ (fun _ => ⟨rfl, rfl⟩)
    · exact sparingKept_jobOutcome s _ _ _
  · exact sparingKept_tileGot s _ _

theorem sparingKept_failStack (s : State) (k cause : Nat) : sparingKept s (failStack s k cause) := by
  unfold failStack
  split
  · exact sparingKept_of_chans_eq rfl
  · have habort : sparingKept s (abortStack s k) := sparingKept_fold _ (fun s c => sparingKept_abortChan s k c) _ s
    have hfail := sparingKept_trans habort (sparingKept_fold _ sparingKept_failReq (stackAt (abortStack s k) k).reqs _)
    exact sparingKept_trans hfail (sparingKept_of_chans_eq (by simp))

/-- R116, R118: the channel is DEGRADED, be it the eighth of its stack (R119); its spare layer serves what it served. -/
theorem degradeChan_spares (s : State) (k c b : Nat) :
    (chanAt (degradeChan s k c b) k c).spSt = .degraded ∧
      (chanAt (degradeChan s k c b) k c).layerOut = (chanAt s k c).layerOut := by
  unfold degradeChan
  split
  · exact ⟨‹_›, rfl⟩
  · simp only []
    split
    · obtain ⟨hst, hout⟩ := sparingKept_failStack
        (event (modChan s k c (fun ch => { ch with spSt := .degraded })) 2 3 5 0 (chanUnit k c) b) k 3 k c
      rw [hst, hout, chanAt_event, chanAt_modChan]
      exact ⟨rfl, rfl⟩
    · rw [chanAt_event, chanAt_modChan]
      exact ⟨rfl, rfl⟩

/-! ### The copy of a row that holds no flipped bit (R110) -/

/-- A state in which columns have been stored: the channels are as they were, and no more bits are flipped. -/
def rowsStored (s t : State) : Prop := t.chans = s.chans ∧ t.dramErr ⊆ s.dramErr

theorem rowsStored_refl (s : State) : rowsStored s s := ⟨rfl, List.Subset.refl _⟩

theorem rowsStored_trans {s t u : State} (h : rowsStored s t) (g : rowsStored t u) : rowsStored s u :=
  ⟨g.1.trans h.1, List.Subset.trans g.2 h.2⟩

theorem rowsStored_fold {α : Type} (g : State → α → State) (h : ∀ s x, rowsStored s (g s x)) (l : List α) (s : State) :
    rowsStored s (l.foldl g s) := by
  induction l generalizing s with
  | nil => exact rowsStored_refl s
  | cons x r ih => exact rowsStored_trans (h s x) (ih _)

theorem rowsStored_storeCol (s : State) (key col : Nat) (bs : List Byte) (p : Bool) :
    rowsStored s (storeCol s key col bs p) := by
  cases p <;> exact ⟨rfl, fun _ h => (List.mem_filter.mp h).1⟩

theorem errCols_eq_nil_iff (s : State) (key : Nat) :
    errCols s key = [] ↔ ∀ p ∈ s.dramErr, ¬ (colAddr key 0 ≤ p.1 ∧ p.1 < colAddr key 66) := by
  unfold errCols
  constructor
  · intro h p hp hin
    have hmem : (p.1 - colAddr key 0) / 34 ∈ ([] : List Nat) :=
      h ▸ List.mem_eraseDups.mpr (List.mem_map.mpr ⟨p, List.mem_filter.mpr ⟨hp, decide_eq_true hin⟩, rfl⟩)
    exact absurd hmem (List.not_mem_nil)
  · intro h
    rw [List.filter_eq_nil_iff.mpr (fun p hp hin => h p hp (of_decide_eq_true hin))]
    rfl

theorem errCols_eq_nil_of_rowsStored {s t : State} (h : rowsStored s t) {key : Nat} (he : errCols s key = []) :
    errCols t key = [] :=
  (errCols_eq_nil_iff t key).mpr (fun p hp => (errCols_eq_nil_iff s key).mp he p (h.2 hp))

/-- A row without a flipped bit is copied, and nothing of it is counted (R124). -/
theorem rowsStored_copyRow {s : State} {k : Nat} {l : Loc} {phys : Nat × Nat} (dst : Nat × Nat)
    (he : errCols s (rowKey k l.chan phys.1 phys.2 l.row) = []) : rowsStored s (copyRow s k l phys dst) := by
  have hcols : (decodeRow s (rowKey k l.chan phys.1 phys.2 l.row)).cols = [] := by
    unfold decodeRow
    rw [he]
    rfl
  unfold copyRow
  simp only [hcols, List.filter_nil, List.foldl_nil, List.isEmpty_nil, if_true]
  exact rowsStored_fold _ (fun s _ => rowsStored_storeCol s _ _ _ _) _ s

/-! ### Layer migration (R110, R112) -/

/-- The pass of `migrateFree` over one bank. -/
def migrateNext (k c : Nat) (s : State) (b : Nat) : State :=
  let ch := chanAt s k c
  if !ch.copying || ch.copied.contains b || bankStreams s k c (ch.spLayer * 4 + b) then s else migrateBank s k c b

theorem migrateFree_eq (s : State) (k c : Nat) : migrateFree s k c = (List.range 4).foldl (migrateNext k c) s := rfl

/-- Which banks a channel's streams hold depends on neither the copy under way nor its row. -/
theorem bankStreams_of_copying {s t : State} {k c : Nat} {l : List Nat}
    (h : chanAt t k c = { chanAt s k c with copying := true, copied := l }) (b : Nat) :
    bankStreams t k c b = bankStreams s k c b := by
  unfold bankStreams quernBank
  rw [h]

/-- A bank whose row holds no flipped bit is copied: the channel notes it, or goes to its next row with the fourth. -/
theorem migrateBank_of_clean {s : State} {k c b : Nat}
    (he : errCols s (rowKey k c (chanAt s k c).spLayer b (chanAt s k c).progress) = []) :
    (migrateBank s k c b).dramErr ⊆ s.dramErr ∧ chanAt (migrateBank s k c b) k c =
      if (chanAt s k c).copied.length = 3 then
        { chanAt s k c with progress := (chanAt s k c).progress + 1, copying := false, copied := [] }
      else { chanAt s k c with copied := (chanAt s k c).copied ++ [b] } := by
  obtain ⟨hch, herr⟩ := rowsStored_copyRow
    (l := { chan := c, layer := (chanAt s k c).spLayer, bank := b, row := (chanAt s k c).progress })
    (phys := ((chanAt s k c).spLayer, b)) (16, b) he
  unfold migrateBank
  simp only []
  rw [chanAt_modChan, chanAt_of_chans_eq hch]
  exact ⟨herr, rfl⟩

section
variable {s : State} {k c : Nat} {ch : Chan}
  (hb : ∀ b, b < 4 → bankStreams s k c (ch.spLayer * 4 + b) = false)
  (he : ∀ b, b < 4 → errCols s (rowKey k c ch.spLayer b ch.progress) = [])

/-- `n` banks of the row under way are copied, and the layer's rows hold no more flipped bits than in `s`. -/
def banksCopied (s : State) (k c : Nat) (ch : Chan) (n : Nat) (t : State) : Prop :=
  chanAt t k c = { ch with copying := true, copied := List.range n } ∧ t.dramErr ⊆ s.dramErr

include hb he

theorem migrateNext_eq (hch : chanAt s k c = ch) {n : Nat} (hn : n < 4) {t : State} (h : banksCopied s k c ch n t) :
    migrateNext k c t n = migrateBank t k c n ∧ (migrateBank t k c n).dramErr ⊆ s.dramErr ∧
      chanAt (migrateBank t k c n) k c =
        if n = 3 then { ch with progress := ch.progress + 1, copying := false, copied := [] }
        else { ch with copying := true, copied := List.range (n + 1) } := by
  obtain ⟨ht, herr⟩ := h
  have hstream : bankStreams t k c (ch.spLayer * 4 + n) = false := by
    rw [bankStreams_of_copying (hch.symm ▸ ht), hb n hn]
  have hclean : errCols t (rowKey k c (chanAt t k c).spLayer n (chanAt t k c).progress) = [] := by
    rw [ht]
    exact (errCols_eq_nil_iff t _).mpr (fun p hp => (errCols_eq_nil_iff s _).mp (he n hn) p (herr hp))
  obtain ⟨hsub, hnext⟩ := migrateBank_of_clean hclean
  refine ⟨?_, List.Subset.trans hsub herr, ?_⟩
  · unfold migrateNext
    simp [ht, hstream]
  · simp [hnext, ht, List.range_succ]

/-- Without a stream on the layer's banks a pass copies the whole row. -/
theorem chanAt_migrateFree (hch : chanAt s k c = ch) {t : State} (h : banksCopied s k c ch 0 t) :
    chanAt (migrateFree t k c) k c = { ch with progress := ch.progress + 1, copying := false, copied := [] } := by
  have hthree : ∀ n, n ≤ 3 → banksCopied s k c ch n ((List.range n).foldl (migrateNext k c) t) := by
    intro n
    induction n with
    | zero => exact fun _ => h
    | succ n ih =>
      intro hn
      obtain ⟨heq, hsub, hnext⟩ := migrateNext_eq hb he hch (by omega) (ih (by omega))
      rw [List.range_succ, List.foldl_append, List.foldl_cons, List.foldl_nil, heq]
      exact ⟨hnext.trans (if_neg (by omega)), hsub⟩
  obtain ⟨heq, -, hlast⟩ := migrateNext_eq hb he hch (by omega) (hthree 3 (Nat.le_refl 3))
  rw [migrateFree_eq, List.range_succ, List.foldl_append, List.foldl_cons, List.foldl_nil, heq]
  exact hlast

end

/-- MIGRATION_ROW_COPY of a row that no stream keeps waiting (R110). -/
theorem chanAt_migrationRowCopy {s : State} {k : Fin 12} {c : Fin 32} {ch : Chan} (hch : chanAt s k c = ch)
    (hready : (stackAt s k).st = .ready) (hmig : ch.spSt = .migrating) (hrow : ch.progress < 16384)
    (hfree : engineBlocked s k 3 = false) (hnone : ch.copied = [])
    (hb : ∀ b, b < 4 → bankStreams s k c (ch.spLayer * 4 + b) = false)
    (he : ∀ b, b < 4 → errCols s (rowKey k c ch.spLayer b ch.progress) = []) :
    chanAt (migrationRowCopy k c s) k c = { ch with progress := ch.progress + 1, copying := false, copied := [] } := by
  have hgo : migrationRowCopy k c s = migrateFree (modChan s k c (fun ch => { ch with copying := true })) k c := by
    unfold migrationRowCopy
    simp only [hch]
    exact if_neg (by simp [hready, hmig, hfree, hrow])
  rw [hgo]
  refine chanAt_migrateFree hb he hch ⟨?_, List.Subset.refl _⟩
  rw [chanAt_modChan, hch, List.range_zero, ← hnone]

theorem chanAt_migrationDone (s : State) (k c : Nat) : chanAt (migrationDone s k c) k c = { chanAt s k c with
    spSt := .layerSpared, layerOut := true, progress := 0, noGap := false, copying := false, copied := [], failed := [] } := by
  unfold migrationDone
  rw [chanAt_recordSpare, chanAt_modChan]

theorem sameMemory_migrationDone (s : State) (k c : Nat) : sameMemory s (migrationDone s k c) :=
  ⟨rfl, rfl, rfl, rfl, rfl, rfl⟩

/-- R118: any failure that waited leaves the channel DEGRADED. -/
theorem migrationFailure_degrades (s : State) (k c : Nat) {failed : List (Bool × Nat)} (h : failed ≠ []) :
    (chanAt (migrationFailure s k c failed) k c).spSt = .degraded ∧
      (chanAt (migrationFailure s k c failed) k c).layerOut = (chanAt s k c).layerOut := by
  match failed with
  | [] => exact absurd rfl h
  | (true, l) :: _ => exact degradeChan_spares s k c (l * 4)
  | (false, w) :: _ => exact degradeChan_spares s k c w

/-- A state that differs in its stacks alone. -/
def stacksOnly (s t : State) : Prop := ∃ sk, t = { s with stks := sk }

theorem stacksOnly_moveOpenRow (s : State) (k c l b : Nat) : stacksOnly s (moveOpenRow s k c l b) := ⟨_, rfl⟩

theorem stacksOnly_fold {α : Type} (g : State → α → State) (h : ∀ s x, stacksOnly s (g s x)) (l : List α) (s : State) :
    stacksOnly s (l.foldl g s) := by
  induction l generalizing s with
  | nil => exact ⟨_, rfl⟩
  | cons x r ih =>
    obtain ⟨_, hx⟩ := h s x
    obtain ⟨sk, hr⟩ := ih (g s x)
    exact ⟨sk, by rw [List.foldl_cons, hr, hx]⟩

/-- The open rows of the failing layer's streams move to the spare layer (R112). -/
def moveOpenRows (s : State) (k c : Nat) (ch : Chan) : State :=
  (List.range 4).foldl (fun s b =>
    if ch.streaming.contains (ch.spLayer * 4 + b) then moveOpenRow s k c ch.spLayer b else s) s

theorem stacksOnly_moveOpenRows (s : State) (k c : Nat) (ch : Chan) : stacksOnly s (moveOpenRows s k c ch) :=
  stacksOnly_fold _ (fun s b => by
    split
    · exact stacksOnly_moveOpenRow s _ _ _ _
    · exact ⟨_, rfl⟩) _ s

theorem migrationSwitchover_eq {s : State} {k : Fin 12} {c : Fin 32} {ch : Chan} (hch : chanAt s k c = ch)
    (hmig : ch.spSt = .migrating) (hrow : ch.progress = 16384)
    (hidle : ∀ b, b < 4 → quernActive s k c (ch.spLayer * 4 + b) = false) :
    migrationSwitchover k c s = migrationFailure
      (event (moveOpenRows (migrationDone s k c) k c ch) 2 3 3 1 (chanUnit k c) ch.spLayer) k c ch.failed := by
  have hheld : (List.range 4).any (fun b => quernActive s k c (ch.spLayer * 4 + b)) = false :=
    List.any_eq_false.mpr (fun b hb => by simp [hidle b (List.mem_range.mp hb)])
  unfold migrationSwitchover
  simp only [hch, hheld]
  exact if_neg (by simp [hmig, hrow])

/-- R112: the spare layer serves the failing layer; what failed meanwhile is looked at last (R118). -/
theorem migrationSwitchover_serves {s : State} {k : Fin 12} {c : Fin 32} {ch : Chan} (hch : chanAt s k c = ch)
    (hmig : ch.spSt = .migrating) (hrow : ch.progress = 16384)
    (hidle : ∀ b, b < 4 → quernActive s k c (ch.spLayer * 4 + b) = false) :
    ∃ u, migrationSwitchover k c s = migrationFailure u k c ch.failed ∧ sameMemory s u ∧ chanAt u k c = { ch with
      spSt := .layerSpared, layerOut := true, progress := 0, noGap := false, copying := false, copied := [], failed := [] } := by
  refine ⟨_, migrationSwitchover_eq hch hmig hrow hidle, ?_⟩
  obtain ⟨sk, hmoved⟩ := stacksOnly_moveOpenRows (migrationDone s k c) k c ch
  rw [chanAt_event, hmoved]
  refine ⟨?_, (chanAt_migrationDone s k c).trans (by rw [hch])⟩
  simpa [sameMemory] using sameMemory_migrationDone s k c

/-! ### Bank remap (R115) -/

theorem chanAt_bankRemapCopy {s : State} {k : Fin 12} {c : Fin 32} {ch : Chan} {sp w : Nat} (hch : chanAt s k c = ch)
    (hremap : ch.remapping = some (sp, w)) (hready : (stackAt s k).st = .ready) (hrow : ch.progress < 16384)
    (hfree : engineBlocked s k 2 = false) (hb : bankStreams s k c (remapHome ch w) = false)
    (he : errCols s (rowKey k c (homeAt ch { chan := c, layer := w / 4, bank := w % 4, row := ch.progress }).1
      (homeAt ch { chan := c, layer := w / 4, bank := w % 4, row := ch.progress }).2 ch.progress) = []) :
    chanAt (bankRemapCopy k c s) k c = { ch with progress := ch.progress + 1 } := by
  obtain ⟨hkept, -⟩ := rowsStored_copyRow
    (l := { chan := c, layer := w / 4, bank := w % 4, row := ch.progress }) (16, sp) he
  have hgo : bankRemapCopy k c s = remapRow s k c := by
    unfold bankRemapCopy
    simp only [hch, hremap]
    exact if_neg (by simp [hready, hrow, hfree, hb])
  have hrowCopied : remapRow s k c = modChan (copyRow s k { chan := c, layer := w / 4, bank := w % 4, row := ch.progress }
      (homeAt ch { chan := c, layer := w / 4, bank := w % 4, row := ch.progress }) (16, sp)) k c
      (fun ch => { ch with progress := ch.progress + 1 }) := by
    unfold remapRow
    simp only [hch, hremap]
  rw [hgo, hrowCopied, chanAt_modChan, chanAt_of_chans_eq hkept, hch]

theorem nextFailure_of_none {s : State} {k c : Nat} (h : (chanAt s k c).failed = []) : nextFailure s k c = s := by
  unfold nextFailure
  rw [h]
  split <;> rfl

/-- BANK_REMAP_COMPLETE with no failure that waits (R115). -/
theorem bankRemapComplete_serves {s : State} {k : Fin 12} {c : Fin 32} {ch : Chan} {sp w : Nat} (hch : chanAt s k c = ch)
    (hremap : ch.remapping = some (sp, w)) (hrow : ch.progress = 16384) (hnone : ch.failed = []) :
    sameMemory s (bankRemapComplete k c s) ∧ chanAt (bankRemapComplete k c s) k c = { ch with
      spSt := .remapped, remapping := none, progress := 0
      spares := ch.spares.filter (fun p => p.2 != w) ++ [(sp, w)] } := by
  unfold bankRemapComplete
  simp only [hch, hremap]
  rw [if_neg (by omega), nextFailure_of_none (by simp [chanAt_event, chanAt_recordSpare, hch, hnone])]
  refine ⟨by simp [sameMemory, recordSpare], ?_⟩
  rw [chanAt_event, chanAt_recordSpare, chanAt_modChan, hch]

/-! ### A quern that does not answer (R109, R114–R116) -/

theorem cc2Down_eq_false {s : State} (h : (ctlAt s 2).st = 0) : ¬ cc2Down s = true := by
  simp [cc2Down, h]

section
variable {s : State} {k c w : Nat} (hq : (quernOf s k c w).st ≠ .isolated) (hcc : (ctlAt s 2).st = 0)
include hq hcc

/-- R114, R115: with the quern isolated, a CLEAN or REMAPPED channel needs a spare bank. -/
theorem quernFailed_remaps
    (h : (chanAt (isolateQuern s k c w) k c).spSt = .clean ∨ (chanAt (isolateQuern s k c w) k c).spSt = .remapped) :
    quernFailed s k c w = remapOrDegrade (isolateQuern s k c w) k c w := by
  unfold quernFailed
  rw [if_neg hq, if_neg (cc2Down_eq_false hcc)]
  rcases h with h | h <;> simp only [h]

/-- R118: where the spare layer is in use, no spare bank is left. -/
theorem quernFailed_degrades (h : (chanAt (isolateQuern s k c w) k c).spSt = .layerSpared) :
    quernFailed s k c w = degradeChan (isolateQuern s k c w) k c w := by
  unfold quernFailed
  rw [if_neg hq, if_neg (cc2Down_eq_false hcc)]
  simp only [h]

end

theorem remapOrDegrade_of_spare {s : State} {k c w sp : Nat} (h : spareFor s k c = some sp) :
    remapOrDegrade s k c w = startRemap s k c w sp := by
  unfold remapOrDegrade
  rw [h]

theorem remapOrDegrade_of_none {s : State} {k c w : Nat} (h : spareFor s k c = none) :
    remapOrDegrade s k c w = degradeChan s k c w := by
  unfold remapOrDegrade
  rw [h]

theorem chanAt_startRemap (s : State) (k c w sp : Nat) : chanAt (startRemap s k c w sp) k c =
    { chanAt s k c with spSt := .remapping, remapping := some (sp, w), progress := 0 } := by
  unfold startRemap
  rw [chanAt_recordSpare, chanAt_event, chanAt_modChan]

/-- The two commands that report a failed quern (R109, R123). -/
theorem exec_quernFailed {s : State} {k : Fin 12} {c : Fin 32} {b : Fin 64} {i : Instr}
    (h : (i = .quernRowBoundaryTimeout k c b ∧ (quernOf s k c b).atBoundary = true) ∨
      (i = .spareReqRemap k c ⟨b.val / 4, by omega⟩ ⟨b.val % 4, by omega⟩ ∧ (spareFor s k c).isSome = true ∧
        ((chanAt s k c).spSt = .clean ∨ (chanAt s k c).spSt = .remapped))) :
    exec i s = .next (kept s (quernFailed s k c b)) := by
  rcases h with ⟨rfl, hbound⟩ | ⟨rfl, hspare, hst⟩
  · exact congrArg (ran s) (if_pos hbound)
  · have hgo : ((chanAt s k c).spSt = .clean ∨ (chanAt s k c).spSt = .remapped ∨ (chanAt s k c).spSt = .remapping) ∧
        (spareFor s k c).isSome = true := ⟨hst.imp_right .inl, hspare⟩
    have hbank : b.val / 4 * 4 + b.val % 4 = b.val := Nat.div_add_mod' _ _
    refine congrArg (ran s) ((if_pos hgo).trans ?_)
    exact congrArg (quernFailed s k c) hbank

/-! ### Requests (R123) -/

/-- R123: a request that changes nothing leaves one event. -/
theorem ran_spareRefused (s : State) (k c kind : Nat) :
    ran s (spareRefused s k c kind) = .next (event s 6 3 6 kind (chanUnit k c)) := by
  obtain ⟨_, _, h⟩ := event_logRegs s 6 3 6 kind (chanUnit k c) 0 0 0xFFF
  unfold ran spareRefused
  rw [h]

/-- SPARE_REQ_MIGRATE of a CLEAN channel starts the migration (R107, R110). -/
theorem spareReqMigrate_of_clean {s : State} {k : Fin 12} {c : Fin 32} (l : Fin 16) (hst : (chanAt s k c).spSt = .clean)
    (hcc : (ctlAt s 2).st = 0) : spareReqMigrate k c l s = startMigration s k c l := by
  unfold spareReqMigrate layerFailing
  rw [if_pos hst]
  simp only [hst]
  rw [if_neg (by omega), if_neg (cc2Down_eq_false hcc)]
  rfl

theorem chanAt_startMigration (s : State) (k c l : Nat) : chanAt (startMigration s k c l) k c =
    { chanAt s k c with spSt := .migrating, spLayer := l, progress := 0, noGap := false } := by
  unfold startMigration
  rw [chanAt_recordSpare, chanAt_event, chanAt_modChan]

theorem sameMemory_startMigration (s : State) (k c l : Nat) : sameMemory s (startMigration s k c l) := by
  simp [sameMemory, startMigration, recordSpare]

/-- SPARE_REQ_REMAP changes nothing where no spare bank may be taken (R123). -/
theorem spareReqRemap_refused {s : State} {k : Fin 12} {c : Fin 32} (l : Fin 16) (b : Fin 4)
    (h : (chanAt s k c).spSt = .migrating ∨ (chanAt s k c).spSt = .layerSpared ∨ (chanAt s k c).spSt = .degraded ∨
      spareFor s k c = none) : spareReqRemap k c l b s = spareRefused s k c 2 := by
  unfold spareReqRemap
  simp only []
  rw [if_neg]
  rintro ⟨hst, hspare⟩
  rcases h with h | h | h | h
  · simp [h] at hst
  · simp [h] at hst
  · simp [h] at hst
  · simp [h] at hspare

/-! ### The statement -/

/-- Settles O43: one command after the other, by what its copy, switchover, isolation or request leaves of the channel. -/
theorem sparing : Obligations.Sparing := by
  unfold Obligations.Sparing
  rintro s k c _ rfl
  refine ⟨?_, ?_, ?_, ?_, ?_, ?_, ?_, ?_⟩
  · intro hready hmig hrow hfree hnone hb he
    exact ⟨_, rfl, chanAt_migrationRowCopy rfl hready hmig hrow hfree hnone hb he⟩
  · intro hmig hrow hidle
    obtain ⟨u, hu, hmem, hserved⟩ := migrationSwitchover_serves rfl hmig hrow hidle
    have hexec : exec (.migrationSwitchover k c) s = .next (kept s (migrationFailure u k c (chanAt s k c).failed)) :=
      congrArg (ran s) hu
    refine ⟨fun hnone => ?_, fun hsome => ?_⟩
    · rw [hnone] at hexec
      exact ⟨_, hexec, hmem, hserved.trans (by rw [hnone])⟩
    · obtain ⟨hst, hout⟩ := migrationFailure_degrades u k c hsome
      refine ⟨_, hexec, ?_⟩
      rw [chanAt_kept]
      exact ⟨hst, hout.trans (congrArg Chan.layerOut hserved)⟩
  · intro sp w hremap
    refine ⟨fun hready hrow hfree hb he => ?_, fun hrow hnone => ?_⟩
    · exact ⟨_, rfl, chanAt_bankRemapCopy rfl hremap hready hrow hfree hb he⟩
    · exact ⟨_, rfl, bankRemapComplete_serves rfl hremap hrow hnone⟩
  · rintro b u rfl hq hcc i hi
    have hexec := exec_quernFailed hi
    refine ⟨fun sp hst hspare => ?_, fun hst => ?_⟩
    · rw [quernFailed_remaps hq hcc hst, remapOrDegrade_of_spare hspare] at hexec
      have hstarted := chanAt_startRemap (isolateQuern s k c b) k c b sp
      exact ⟨_, hexec, congrArg Chan.spSt hstarted, congrArg Chan.remapping hstarted⟩
    · have hdegrade : quernFailed s k c b = degradeChan (isolateQuern s k c b) k c b := by
        rcases hst with hst | ⟨hst, hspare⟩
        · exact quernFailed_degrades hq hcc hst
        · rw [quernFailed_remaps hq hcc hst, remapOrDegrade_of_none hspare]
      rw [hdegrade] at hexec
      refine ⟨_, hexec, ?_⟩
      rw [chanAt_kept]
      exact (degradeChan_spares _ k c b).1
  · intro l
    refine ⟨fun hst hcc => ?_, fun hst => ?_⟩
    · have hgo := spareReqMigrate_of_clean l hst hcc
      exact ⟨_, congrArg (ran s) hgo, sameMemory_startMigration s k c l, chanAt_startMigration s k c l⟩
    · exact (congrArg (ran s) (if_neg hst)).trans (ran_spareRefused s k c 1)
  · intro l b h
    exact (congrArg (ran s) (spareReqRemap_refused l b h)).trans (ran_spareRefused s k c 2)
  · exact ran_spareRefused s k c 3
  · rfl

end Sys2Proof.Machine

/-! SUPPORT. Streams, trees and the end of a job (R135, R139, R141, R153, R162–R168, R323, R519, R520): what a quern's
step, its drain and a short stream leave of their channel, a row boundary at which nothing waits, one clean column, one unit
of a tree, and a job's completion. This settles the statement on streams. -/

namespace Sys2Proof.Machine

open Sys2Proof

/-! ### What counting and a job's flags change -/

/-- A state that differs from `s` in the jobs, the log and the stored register bits alone. -/
def jobsLogRegs (s t : State) : Prop := ∃ j l r, t = { s with jobs := j, log := l, regs := r }

theorem jobsLogRegs_trans {s t u : State} (h : jobsLogRegs s t) (g : jobsLogRegs t u) : jobsLogRegs s u := by
  obtain ⟨_, _, _, rfl⟩ := h
  obtain ⟨_, _, _, rfl⟩ := g
  exact ⟨_, _, _, rfl⟩

theorem jobsLogRegs_of {s t : State} (h : logRegs s t) : jobsLogRegs s t := by
  obtain ⟨_, _, rfl⟩ := h
  exact ⟨_, _, _, rfl⟩

theorem jobsLogRegs_jobFlag (s : State) (id : Option Nat) (bit : Nat) : jobsLogRegs s (jobFlag s id bit) := by
  cases id <;> exact ⟨_, _, _, rfl⟩

theorem jobsLogRegs_jobFlags (s : State) (id : Option Nat) (f : BitVec 8) : jobsLogRegs s (jobFlags s id f) := by
  cases id <;> exact ⟨_, _, _, rfl⟩

theorem jobsLogRegs_noteStreamFlags (s : State) (k : Nat) (q : Quern) : jobsLogRegs s (noteStreamFlags s k q) :=
  jobsLogRegs_of (logRegs_trans (countIf_logRegs s _ _) (countIf_logRegs _ _ _))

/-- A step is the new quern, with what it counts and flags (R146, R150). -/
theorem jobsLogRegs_applyStep (s : State) (k c w : Nat) (st : QStep) :
    jobsLogRegs (modQuernOf s k c w (fun _ => st.q)) (applyStep s k c w st) :=
  jobsLogRegs_trans (jobsLogRegs_of (logRegs_trans (countBy_logRegs _ _ _) (countBy_logRegs _ _ _)))
    (jobsLogRegs_jobFlags _ _ _)

/-! ### Querns and banks -/

theorem sameMemory_trans {s t u : State} (h : sameMemory s t) (g : sameMemory t u) : sameMemory s u := by
  obtain ⟨h1, h2, h3, h4, h5, h6⟩ := h
  obtain ⟨g1, g2, g3, g4, g5, g6⟩ := g
  exact ⟨g1.trans h1, g2.trans h2, g3.trans h3, g4.trans h4, g5.trans h5, g6.trans h6⟩

/-- Sparing alone says which bank serves (R10, R112, R115). -/
theorem quernBank_congr {s t : State} {k c : Nat} (w : Nat) (hout : (chanAt t k c).layerOut = (chanAt s k c).layerOut)
    (hlayer : (chanAt t k c).spLayer = (chanAt s k c).spLayer)
    (hspares : (chanAt t k c).spares = (chanAt s k c).spares) :
    quernBank t k c w = quernBank s k c w := by
  unfold quernBank
  simp only [hout, hlayer, hspares]

theorem quernOf_modQuernOf (s : State) (k c w : Nat) (f : Quern → Quern) :
    quernOf (modQuernOf s k c w f) k c w = f (quernOf s k c w) := quernAt_modQuern s k c _ f

theorem bankAt_setBank (s : State) (k c b : Nat) (x : BankSt) : bankAt (setBank s k c b x) k c b = x := by
  unfold bankAt setBank
  rw [stackAt_modStack, tget_tset_same]

theorem quernOf_applyStep (s : State) (k c w : Nat) (st : QStep) : quernOf (applyStep s k c w st) k c w = st.q := by
  obtain ⟨_, _, _, h⟩ := jobsLogRegs_applyStep s k c w st
  have hq := quernOf_modQuernOf s k c w (fun _ => st.q)
  rw [h]
  exact hq

theorem chanAt_applyStep (s : State) (k c w : Nat) (st : QStep) :
    chanAt (applyStep s k c w st) k c = chanAt s k c := by
  obtain ⟨_, _, _, h⟩ := jobsLogRegs_applyStep s k c w st
  rw [h]
  rfl

theorem sameMemory_applyStep (s : State) (k c w : Nat) (st : QStep) : sameMemory s (applyStep s k c w st) := by
  obtain ⟨_, _, _, h⟩ := jobsLogRegs_applyStep s k c w st
  rw [h]
  exact ⟨rfl, rfl, rfl, rfl, rfl, rfl⟩

/-! ### What a drain and a short stream change (R138, R157) -/

/-- Memory is as it was, and so is the channel but for its trees and the note that a quern was short. -/
def treesOnly (k c : Nat) (s t : State) : Prop :=
  sameMemory s t ∧ ∃ tr sh, chanAt t k c = { chanAt s k c with trees := tr, short := sh }

theorem treesOnly_trans {k c : Nat} {s t u : State} (h : treesOnly k c s t) (g : treesOnly k c t u) :
    treesOnly k c s u := by
  obtain ⟨hmem, _, _, hch⟩ := h
  obtain ⟨gmem, _, _, gch⟩ := g
  exact ⟨sameMemory_trans hmem gmem, _, _, by rw [gch, hch]⟩

theorem treesOnly_of_chans_eq {k c : Nat} {s t : State} (hch : t.chans = s.chans) (hmem : sameMemory s t) :
    treesOnly k c s t := ⟨hmem, _, _, chanAt_of_chans_eq hch k c⟩

theorem treesOnly_refl (k c : Nat) (s : State) : treesOnly k c s s :=
  treesOnly_of_chans_eq rfl ⟨rfl, rfl, rfl, rfl, rfl, rfl⟩

theorem treesOnly_of_jobsLogRegs (k c : Nat) {s t : State} (h : jobsLogRegs s t) : treesOnly k c s t := by
  obtain ⟨_, _, _, rfl⟩ := h
  exact treesOnly_of_chans_eq rfl ⟨rfl, rfl, rfl, rfl, rfl, rfl⟩

theorem treesOnly_modTree (s : State) (k c t : Nat) (f : TreeSt → TreeSt) : treesOnly k c s (modTree s k c t f) :=
  ⟨⟨rfl, rfl, rfl, rfl, rfl, rfl⟩, _, _, chanAt_modChan s k c _⟩

theorem treesOnly_short (s : State) (k c : Nat) :
    treesOnly k c s (modChan s k c (fun ch => { ch with short := true })) :=
  ⟨⟨rfl, rfl, rfl, rfl, rfl, rfl⟩, _, _, chanAt_modChan s k c _⟩

theorem treesOnly_modQuernOf (s : State) (k c w : Nat) (f : Quern → Quern) : treesOnly k c s (modQuernOf s k c w f) :=
  treesOnly_of_chans_eq rfl ⟨rfl, rfl, rfl, rfl, rfl, rfl⟩

theorem treesOnly_prechargeBank (s : State) (k c w : Nat) : treesOnly k c s (prechargeBank s k c w) :=
  treesOnly_of_chans_eq rfl ⟨rfl, rfl, rfl, rfl, rfl, rfl⟩

theorem quernBank_of_treesOnly {k c : Nat} {s t : State} (h : treesOnly k c s t) (w : Nat) :
    quernBank t k c w = quernBank s k c w := by
  obtain ⟨-, _, _, hch⟩ := h
  exact quernBank_congr w (by rw [hch]) (by rw [hch]) (by rw [hch])

theorem quernOf_modTree (s : State) (k c t w : Nat) (f : TreeSt → TreeSt) :
    quernOf (modTree s k c t f) k c w = quernOf s k c w := by
  unfold quernOf
  rw [quernBank_of_treesOnly (treesOnly_modTree s k c t f) w]
  rfl

theorem treesOnly_quernIdle (s : State) (k c w : Nat) : treesOnly k c s (quernIdle s k c w) := by
  have hflags : treesOnly k c s (noteStreamFlags (countIf (modQuernOf s k c w (fun _ => {}))
      (decide (streamCols (quernOf s k c w).word ≤ nextRead (quernOf s k c w).word (quernOf s k c w).col))
      (oQrn k qStream)) k (quernOf s k c w)) :=
    treesOnly_trans (treesOnly_modQuernOf s k c w _) (treesOnly_of_jobsLogRegs k c
      (jobsLogRegs_trans (jobsLogRegs_of (countIf_logRegs _ _ _)) (jobsLogRegs_noteStreamFlags _ _ _)))
  unfold quernIdle
  simp only []
  split
  · exact treesOnly_trans hflags (treesOnly_prechargeBank _ k c w)
  · exact hflags

theorem treesOnly_pumpN (k c w n : Nat) (s : State) : treesOnly k c s (pumpN k c w n s) := by
  induction n generalizing s with
  | zero => exact treesOnly_refl k c s
  | succ n ih =>
    simp only [pumpN]
    split
    · split
      · exact treesOnly_quernIdle s k c w
      · exact treesOnly_refl k c s
    · split
      · exact treesOnly_refl k c s
      · split
        · exact treesOnly_trans (treesOnly_trans (treesOnly_modTree s k c _ _) (treesOnly_modQuernOf _ k c w _)) (ih _)
        · exact treesOnly_refl k c s

theorem treesOnly_pump (s : State) (k c w : Nat) : treesOnly k c s (pump s k c w) := treesOnly_pumpN k c w _ s

theorem treesOnly_shorten (s : State) (k c w : Nat) : treesOnly k c s (shorten s k c w) :=
  treesOnly_trans (treesOnly_trans (treesOnly_trans (treesOnly_modQuernOf s k c w _)
    (treesOnly_of_jobsLogRegs k c (jobsLogRegs_jobFlag _ _ _))) (treesOnly_short _ k c)) (treesOnly_pump _ k c w)

theorem treesOnly_endShort (s : State) (k c : Nat) (banks : List Nat) (force : Bool) :
    treesOnly k c s (endShort s k c banks force) := by
  unfold endShort
  induction banks generalizing s with
  | nil => exact treesOnly_refl k c s
  | cons w ws ih =>
    have hfirst : treesOnly k c s (if isShort (quernOf s k c w) force then shorten s k c w else s) := by
      split
      · exact treesOnly_shorten s k c w
      · exact treesOnly_refl k c s
    exact treesOnly_trans hfirst (ih _)

/-- Units leave the drain buffer; the quern itself goes on as it was, while it is not in FINISH (R148). -/
theorem quernOf_pumpN {k c w : Nat} (n : Nat) (s : State) (h : (quernOf s k c w).st ≠ .finish) :
    ∃ d, quernOf (pumpN k c w n s) k c w = { quernOf s k c w with drain := d } := by
  induction n generalizing s with
  | zero => exact ⟨_, rfl⟩
  | succ n ih =>
    simp only [pumpN]
    split
    · rw [if_neg h]
      exact ⟨_, rfl⟩
    · split
      · exact ⟨_, rfl⟩
      · split
        · refine (ih _ ?_).imp (fun d hd => hd.trans ?_)
          · rw [quernOf_modQuernOf, quernOf_modTree]
            exact h
          · rw [quernOf_modQuernOf, quernOf_modTree]
        · exact ⟨_, rfl⟩

theorem quernOf_pump {s : State} {k c w : Nat} (h : (quernOf s k c w).st ≠ .finish) :
    ∃ d, quernOf (pump s k c w) k c w = { quernOf s k c w with drain := d } := quernOf_pumpN _ s h

/-- With an empty buffer nothing leaves. -/
theorem pump_of_empty {s : State} {k c w : Nat} (hdrain : (quernOf s k c w).drain = [])
    (h : (quernOf s k c w).st ≠ .finish) :
    pump s k c w = s := by
  unfold pump
  simp only [pumpN, hdrain]
  exact if_neg h

/-- No SYNC or END waits while the sequencer runs (R154). -/
theorem settleSync_of_run {s : State} {k c : Nat} (w : Nat) (h : (chanAt s k c).seq = .run) :
    settleSync s k c w = s := by
  unfold settleSync
  simp [h]

/-! ### Admission (R165–R167) -/

theorem bankAt_modQuernOf (s : State) (k c w b : Nat) (f : Quern → Quern) :
    bankAt (modQuernOf s k c w f) k c b = bankAt s k c b := rfl

theorem chanAt_setBank (s : State) (k c b : Nat) (x : BankSt) : chanAt (setBank s k c b x) k c = chanAt s k c := rfl

theorem chanAt_modQuernOf (s : State) (k c w : Nat) (f : Quern → Quern) :
    chanAt (modQuernOf s k c w f) k c = chanAt s k c := rfl

/-- The working bank is the newest of its channel's streams (R167). -/
def placed (s : State) (k c w : Nat) : State :=
  modChan s k c (fun ch => { dropStream ch w with streaming := w :: (dropStream ch w).streaming })

theorem chanAt_placed (s : State) (k c w : Nat) : chanAt (placed s k c w) k c = { chanAt s k c with
    streaming := w :: (chanAt s k c).streaming.filter (· != w)
    admission := (chanAt s k c).admission.filter (· != w) } := chanAt_modChan s k c _

theorem quernOf_placed (s : State) (k c w : Nat) : quernOf (placed s k c w) k c w = quernOf s k c w := by
  have hbank : quernBank (placed s k c w) k c w = quernBank s k c w :=
    quernBank_congr w (by rw [chanAt_placed]) (by rw [chanAt_placed]) (by rw [chanAt_placed])
  unfold quernOf
  rw [hbank]
  rfl

theorem admitBank_eq (s : State) (k c w : Nat) : admitBank s k c w = modQuernOf
    (setBank (placed s k c w) k c (quernBank s k c w) { bankAt s k c (quernBank s k c w) with
      openRow := streamRow (quernOf s k c w), streak := 0, gate := false }) k c w
    (fun q => { q with st := if q.st = .held then .stream else q.st, atBoundary := false }) := rfl

theorem chanAt_admitBank (s : State) (k c w : Nat) : chanAt (admitBank s k c w) k c = { chanAt s k c with
    streaming := w :: (chanAt s k c).streaming.filter (· != w)
    admission := (chanAt s k c).admission.filter (· != w) } := by
  rw [admitBank_eq, chanAt_modQuernOf, chanAt_setBank, chanAt_placed]

theorem openRow_admitBank (s : State) (k c w : Nat) :
    (bankAt (admitBank s k c w) k c (quernBank s k c w)).openRow = streamRow (quernOf s k c w) := by
  rw [admitBank_eq, bankAt_modQuernOf, bankAt_setBank]

theorem quernOf_setBank (s : State) (k c w b : Nat) (x : BankSt) :
    quernOf (setBank s k c b x) k c w = quernOf s k c w := rfl

theorem quernOf_admitBank (s : State) (k c w : Nat) : quernOf (admitBank s k c w) k c w = { quernOf s k c w with
    st := if (quernOf s k c w).st = .held then .stream else (quernOf s k c w).st, atBoundary := false } := by
  rw [admitBank_eq, quernOf_modQuernOf, quernOf_setBank, quernOf_placed]

theorem sameMemory_admitBank (s : State) (k c w : Nat) : sameMemory s (admitBank s k c w) := by
  rw [admitBank_eq]
  simp [sameMemory, modQuernOf, setBank, placed]

/-- BANK_ADMISSION while ALLOW leaves a place. -/
theorem bankAdmission_of_place {s : State} {k : Fin 12} {c : Fin 32} {w : Nat} {rest : List Nat}
    (hw : admissible s k c = w :: rest) (hplace : (chanAt s k c).streaming.length < allow s k) :
    bankAdmission k c s = admitBank s k c w := by
  have hallow : allow s k ≠ 0 := by omega
  unfold bankAdmission
  simp [hw, hallow, hplace]

theorem bankAdmission_of_allow_zero {s : State} {k : Fin 12} (c : Fin 32) (h : allow s k = 0) :
    bankAdmission k c s = s := if_pos (.inr h)

/-! ### A row boundary at which nothing waits (R168) -/

theorem serveBankN_of_none {s : State} {k c b : Nat} {below : Bool} (h : bankReqs s k c b below = []) (n : Nat) :
    serveBankN k c b below n s = s := by
  cases n with
  | zero => rfl
  | succ n =>
    unfold serveBankN
    rw [h]
    rfl

theorem repairBankN_of_none {s : State} {k c b : Nat} (h : queuedRepair s k c b = none) (n : Nat) :
    repairBankN k c b n s = s := by
  cases n with
  | zero => rfl
  | succ n =>
    unfold repairBankN
    rw [h]

theorem serveBank_of_none {s : State} {k c w b : Nat} (hreqs : bankReqs s k c b false = [])
    (hcopy : copyWaits s k c w = false) (hremap : remapWaits s k c w = false) : serveBank s k c w b = s := by
  unfold serveBank
  simp [hremap, hcopy, serveBankN_of_none hreqs]

/-- Nothing waits at a boundary of the working bank: its place is not asked back, and no repair, request, copy or remap is
due (R168). -/
structure QuietBoundary (s : State) (k c w : Nat) : Prop where
  yields : mustYield s k c w = false
  repairs : queuedRepair s k c (quernBank s k c w) = none
  reqs : bankReqs s k c (quernBank s k c w) false = []
  copy : copyWaits s k c w = false
  remap : remapWaits s k c w = false

/-- R168: the stream's row is open, and the bank is open to the module until the next column. -/
def reopened (s : State) (k c w : Nat) : State :=
  setBank s k c (quernBank s k c w)
    { bankAt s k c (quernBank s k c w) with openRow := streamRow (quernOf s k c w), streak := 0, gate := true }

theorem rowBoundary_of_quiet {s : State} {k : Fin 12} {c : Fin 32} {b : Fin 64}
    (hat : atRowBoundary (quernOf s k c b) = true) (hb : b.val ∈ (chanAt s k c).streaming)
    (h : QuietBoundary s k c b) : rowBoundary k c b s = modQuernOf (reopened s k c b) k c b
      (fun q => { q with atBoundary := q.atBoundary && q.feeds.isEmpty }) := by
  obtain ⟨hyields, hrepairs, hreqs, hcopy, hremap⟩ := h
  unfold rowBoundary
  simp [hat, hb, hyields, hrepairs, hreqs, hcopy, hremap, repairBankN_of_none hrepairs,
    serveBank_of_none hreqs hcopy hremap, reopened]

theorem bankAt_reopened (s : State) (k c w : Nat) : bankAt (reopened s k c w) k c (quernBank s k c w)
    = { bankAt s k c (quernBank s k c w) with openRow := streamRow (quernOf s k c w), streak := 0, gate := true } :=
  bankAt_setBank s k c _ _

theorem sameMemory_reopened (s : State) (k c w : Nat) : sameMemory s (reopened s k c w) := by
  simp [sameMemory, reopened, setBank]

/-! ### Columns and steps (R135, R139, R141, R471) -/

theorem columnDelivered_of_held {s : State} {k : Fin 12} (c : Fin 32) (b : Fin 64)
    (h : clockHeld s (.stack k) = true) : columnDelivered k c b s = s := by
  unfold columnDelivered
  simp only []
  split
  · rfl
  · exact if_pos (by simp [h])

theorem exponentStepDone_of_held {s : State} {k : Fin 12} (c : Fin 32) (b : Fin 64)
    (h : clockHeld s (.stack k) = true) : exponentStepDone k c b s = s := if_pos (.inr h)

/-- A clean column of the open row enters a quern that is free to take it; its bank is no longer open to the module. -/
theorem columnDelivered_of_clean {s : State} {k : Fin 12} {c : Fin 32} {b : Fin 64} {x : Nat}
    (hx : nextFeed (quernOf s k c b) = some x) (hst : (quernOf s k c b).st = .stream)
    (hstalled : (quernOf s k c b).stalled = false) (hbound : (quernOf s k c b).atBoundary = false)
    (hb : b.val ∈ (chanAt s k c).streaming) (hclock : clockHeld s (.stack k) = false)
    (hopen : (bankAt s k c (quernBank s k c b)).openRow = some (x / 64))
    (hdue : copyStalls s k c (quernOf s k c b) = false)
    (hcls : (colState s (quernRowKey s k c b (x / 64)) (x % 64)).cls = .clean) {st : QStep}
    (hstep : st = quernColumn (quernOf s k c b) (quernOf s k c b).col
      (readCol s (quernRowKey s k c b (x / 64)) (x % 64) none).1 false) :
    ∃ u, stacksOnly s u ∧ columnDelivered k c b s = settleSync (pump
      (applyStep u k c b { st with q := afterColumn st.q (quernOf s k c b).col x }) k c b) k c b := by
  subst hstep
  refine ⟨if (bankAt s k c (quernBank s k c b)).gate then
    setBank s k c (quernBank s k c b) { bankAt s k c (quernBank s k c b) with gate := false } else s, ?_, ?_⟩
  · split <;> exact ⟨_, rfl⟩
  · unfold columnDelivered
    simp only [hx]
    rw [if_neg (by simp [hst, hstalled, hbound, hopen, hclock, hb])]
    simp [hcls, hdue, colBad, countIf, caused, noteQuernCol]

/-- The quern's step keeps it where it is: nothing drains and no SYNC waits. -/
theorem applyStep_settled {s : State} {k c w : Nat} {st : QStep} (hdrain : st.q.drain = []) (hst : st.q.st ≠ .finish)
    (hseq : (chanAt s k c).seq = .run) :
    settleSync (pump (applyStep s k c w st) k c w) k c w = applyStep s k c w st := by
  have hq := quernOf_applyStep s k c w st
  rw [pump_of_empty (by rw [hq]; exact hdrain) (by rw [hq]; exact hst)]
  exact settleSync_of_run w (by rw [chanAt_applyStep]; exact hseq)

theorem drainStallRelease_of_drained {s : State} {k : Fin 12} {c : Fin 32} {b : Fin 64}
    (hdrain : (quernOf s k c b).drain = []) (hstalled : (quernOf s k c b).stalled = true)
    (hst : (quernOf s k c b).st ≠ .finish) (hseq : (chanAt s k c).seq = .run) :
    drainStallRelease k c b s = modQuernOf s k c b (fun q => { q with stalled := false }) := by
  have hsettle : settleSync (modQuernOf s k c b (fun q => { q with stalled := false })) k c b
      = modQuernOf s k c b (fun q => { q with stalled := false }) := settleSync_of_run b hseq
  unfold drainStallRelease
  rw [pump_of_empty hdrain hst]
  simp [hstalled, hdrain, hsettle]

/-- R141, R148: the exponent step of the block under way, after which the quern streams, or is held. -/
def exponentTo (q : Quern) (next : QuernSt) : QStep :=
  let st := exponentStep q ((q.col - 1) / areaCols q.word)
  { st with q := { st.q with st := next } }

theorem exponentStepDone_eq {s : State} {k : Fin 12} {c : Fin 32} {b : Fin 64} (hst : (quernOf s k c b).st = .exp)
    (hclock : clockHeld s (.stack k) = false) : exponentStepDone k c b s = settleSync (pump (applyStep s k c b
      (exponentTo (quernOf s k c b) (if b.val ∈ (chanAt s k c).streaming then .stream else .held))) k c b) k c b := by
  unfold exponentStepDone
  simp only []
  rw [if_neg (by simp [hst, hclock])]
  by_cases hb : b.val ∈ (chanAt s k c).streaming <;> simp [hb, exponentTo]

/-- The exponent step leaves its results in the quern, which goes on; its header drains. -/
theorem exponentStepDone_goes {s : State} {k : Fin 12} {c : Fin 32} {b : Fin 64} (hst : (quernOf s k c b).st = .exp)
    (hseq : (chanAt s k c).seq = .run) (hclock : clockHeld s (.stack k) = false) :
    sameMemory s (exponentStepDone k c b s) ∧ (quernOf (exponentStepDone k c b s) k c b).st
        = (if b.val ∈ (chanAt s k c).streaming then .stream else .held) ∧
      (quernOf (exponentStepDone k c b s) k c b).l = (exponentTo (quernOf s k c b) .stream).q.l ∧
      (quernOf (exponentStepDone k c b s) k c b).scores
        = (exponentTo (quernOf s k c b) .stream).q.scores := by
  generalize hnext : (if b.val ∈ (chanAt s k c).streaming then QuernSt.stream else .held) = next
  have hgoes : next ≠ .finish := by
    subst hnext
    split <;> simp
  have hmem := sameMemory_applyStep s k c b (exponentTo (quernOf s k c b) next)
  have hq := quernOf_applyStep s k c b (exponentTo (quernOf s k c b) next)
  have hrun := (congrArg Chan.seq (chanAt_applyStep s k c b (exponentTo (quernOf s k c b) next))).trans hseq
  rw [exponentStepDone_eq hst hclock, hnext]
  generalize applyStep s k c b (exponentTo (quernOf s k c b) next) = u at *
  obtain ⟨hpump, _, _, hch⟩ := treesOnly_pump u k c b
  obtain ⟨d, hd⟩ := quernOf_pump (s := u) (k := k) (c := c) (w := b) (by rw [hq]; exact hgoes)
  rw [settleSync_of_run b ((congrArg Chan.seq hch).trans hrun)]
  rw [hd, hq]
  exact ⟨sameMemory_trans hmem hpump, rfl, rfl, rfl⟩

/-! ### One unit of 32 bytes (R51, R520) -/

/-- R51: no request is cut below 32 bytes. -/
theorem five_le_cutLog (s : State) (da : Nat) : 5 ≤ cutLog s da := by
  unfold cutLog
  split
  · unfold pieceLog
    simp only []
    cases hfind : ((List.range 6).map (· + 5)).find? (maskBits (effGet s) (groupOf (da % 2 ^ 48))).testBit with
    | none => simp
    | some a =>
      obtain ⟨n, -, rfl⟩ := List.mem_map.mp (List.mem_of_find?_eq_some hfind)
      exact Nat.le_add_left 5 n
  · exact Nat.le_refl 5

theorem accessPieces_unit (s : State) {da : Nat} (halign : da % 32 = 0) (hda : da < 2 ^ 48) :
    accessPieces s da 32 = [(da, 32)] := by
  obtain ⟨n, hn⟩ := Nat.exists_eq_add_of_le (five_le_cutLog s da)
  have hpow : 2 ^ cutLog s da = 32 * 2 ^ n := by rw [hn, Nat.pow_add]
  have hroom : 32 ≤ 2 ^ cutLog s da - da % 2 ^ cutLog s da := by
    have hlt : da % 2 ^ cutLog s da < 2 ^ cutLog s da := Nat.mod_lt _ (Nat.two_pow_pos _)
    have hmod : da % (32 * 2 ^ n) % 32 = da % 32 := Nat.mod_mul_right_mod da 32 (2 ^ n)
    rw [hpow] at hlt ⊢
    omega
  have hwrap : da % 281474976710656 = da := Nat.mod_eq_of_lt hda
  have hmin : min 32 (2 ^ cutLog s da - da % 2 ^ cutLog s da) = 32 := Nat.min_eq_left hroom
  simp [accessPieces, accessPiecesN, hmin, hwrap]

theorem units32_unit {da : Nat} (halign : da % 32 = 0) : units32 da 32 = [(da, 32)] := by
  simp [units32, unitsN, halign]

/-- A scratchpad takes a tailrace unit whatever its seal (R447). -/
theorem unitRefused_scratch {s : State} {da n off : Nat} (auth : Option (Fin 4)) (halign : da % 32 = 0)
    (hda : da < 2 ^ 48) (h : daKind s da = .scratch n off) : unitRefused s auth da = false := by
  unfold unitRefused rangeError rangeSealRefused
  rw [units32_unit halign]
  have hwrap : da % 281474976710656 = da := Nat.mod_eq_of_lt hda
  have hseal : sealRefused s auth da true = false := by
    unfold sealRefused
    split
    · rfl
    · simp [h]
  simp [hwrap, daError, h, hseal]

theorem length_unitBytes (vals : List W32) : (vals.flatMap (fun v => leBytes 4 v.toNat)).length = 4 * vals.length := by
  induction vals with
  | nil => rfl
  | cons v vs ih =>
    rw [List.flatMap_cons, List.length_append, ih, List.length_cons]
    simp [leBytes]
    omega

/-- R63, R162: the request that carries a tailrace unit. -/
def unitReq (s : State) (k c job da : Nat) (bytes : List Byte) (p : Bool) : FarReq :=
  { id := 0, port := if (locate s da).stack = k then 3 else 2, src := chanKey k c, loc := (locate s da).loc
    off := (locate s da).off, op := .write bytes [p], arrival := 0, seq := some (.unit job k c) }

theorem reqs_enqueueOne (s : State) (n : Nat) (r : FarReq) : (stackAt (enqueueOne s n r) n).reqs
    = (stackAt s n).reqs ++ [{ r with id := s.nextId, arrival := s.time }] :=
  congrArg Stack.reqs (stackAt_modStack _ n _)

section
variable {s : State} {k c job da : Nat} {bytes : List Byte} (p : Bool) (halign : da % 32 = 0) (hda : da < 2 ^ 48)
  (hlen : bytes.length = 32)
include halign hda hlen

/-- A unit for DRAM becomes one request of the sequencer (R63, R162). -/
theorem unitWrite_dram (h : daKind s da = .dram) : unitWrite s k c job da bytes (unitFlags da p)
    = enqueueOne s (locate s da).stack (unitReq s k c job da bytes p) := by
  unfold unitWrite
  rw [hlen, accessPieces_unit s halign hda]
  simp [h, opPart, unitFlags, halign, List.take_of_length_le (Nat.le_of_eq hlen), unitReq]

/-- A unit for a scratchpad is written at once. -/
theorem unitWrite_scratch {n off : Nat} (h : daKind s da = .scratch n off) :
    unitWrite s k c job da bytes (unitFlags da p) = writePiece s (fun _ => 2) da bytes [p] := by
  unfold unitWrite
  rw [hlen, accessPieces_unit s halign hda]
  simp [h, opPart, unitFlags, halign, List.take_of_length_le (Nat.le_of_eq hlen)]

end

theorem writePiece_scratch {s : State} {da n off : Nat} (port : Nat → Nat) (bytes : List Byte) (ps : List Bool)
    (h : daKind s da = .scratch n off) : ∃ sp, writePiece s port da bytes ps
      = { s with scratch := mwrite s.scratch (scratchAddr n off) bytes, scratchPoison := sp } := by
  have hset : ∀ b, ∃ sp, setLinePoison (scratchWrite s n off bytes) n (off / 32) b
      = { s with scratch := mwrite s.scratch (scratchAddr n off) bytes, scratchPoison := sp } :=
    fun b => by cases b <;> exact ⟨_, rfl⟩
  unfold writePiece
  simp only [h]
  split
  · exact hset true
  · split
    · exact hset false
    · exact ⟨_, rfl⟩

/-! ### A tree's output (R162–R164, R520) -/

/-- The unit has left its tree, and the job has its flags. -/
def unitLeaves (s : State) (k c i : Nat) (o : TOut) : State :=
  let s := modTree s k c i (fun t => treeAfter t o)
  let s := if o.ovf then jobFlag s (chanAt s k c).job 1 else s
  if o.poison then jobFlag s (chanAt s k c).job 3 else s

theorem jobsLogRegs_unitLeaves (s : State) (k c i : Nat) (o : TOut) :
    jobsLogRegs (modTree s k c i (fun t => treeAfter t o)) (unitLeaves s k c i o) := by
  unfold unitLeaves
  simp only []
  split <;> split
  · exact jobsLogRegs_trans (jobsLogRegs_jobFlag _ _ 1) (jobsLogRegs_jobFlag _ _ 3)
  · exact jobsLogRegs_jobFlag _ _ 3
  · exact jobsLogRegs_jobFlag _ _ 1
  · exact jobsLogRegs_of (logRegs_refl _)

/-- The unit goes where its DA says, for the job `job` with the authority `auth`; a refused one is lost (R520). -/
def unitSent (s : State) (k c job : Nat) (auth : Option (Fin 4)) (da : Nat) (o : TOut) : State :=
  if rangeError s da 32 then modChan s k c (fun ch => { ch with tailErr := true })
  else if rangeSealRefused s auth da 32 true then
    modChan (sealedRefuse s 2 (chanUnit k c) da (chanTag s k c)) k c (fun ch => { ch with tailErr := true })
  else caused s (chanTag s k c) 0xFFF (fun s =>
    unitWrite s k c job da (o.vals.flatMap (fun v => leBytes 4 v.toNat)) (unitFlags da o.poison))

theorem pumpAll_of_no_banks {s : State} {k c : Nat} (h : (chanAt s k c).entryBanks = []) : pumpAll s k c = s := by
  unfold pumpAll
  rw [h]
  rfl

theorem treeOutputUnit_eq {s : State} {k : Fin 12} {c : Fin 32} {i : Nat} {x : TreeSt} {o : TOut}
    (hx : treeAt s k c i = some x) (ho : treeOut x = some o) (hroom : unitsWaiting s k c < 16)
    (hwin : windowWaits s (unitDa s k c x o.rank o.n) 32 true = false) : treeOutputUnit k c i s
      = pumpAll (unitSent (unitLeaves s k c i o) k c ((chanAt s k c).job.getD 0)
          (((chanAt s k c).job.bind (jobAt s)).bind (·.auth)) (unitDa s k c x o.rank o.n) o) k c := by
  unfold treeOutputUnit
  simp only [hx, ho]
  rw [if_neg (by simp [hwin]; omega)]
  rfl

section
variable (s : State) (k c i : Nat) (o : TOut)

theorem chanAt_unitLeaves : chanAt (unitLeaves s k c i o) k c
    = { chanAt s k c with trees := (chanAt s k c).trees.modify i (fun t => treeAfter t o) } := by
  obtain ⟨_, _, _, h⟩ := jobsLogRegs_unitLeaves s k c i o
  have hch := chanAt_modChan s k c (fun ch => { ch with trees := ch.trees.modify i (fun t => treeAfter t o) })
  rw [h]
  exact hch

theorem entryBanks_unitLeaves : (chanAt (unitLeaves s k c i o) k c).entryBanks = (chanAt s k c).entryBanks := by
  rw [chanAt_unitLeaves]

theorem sameMemory_unitLeaves : sameMemory s (unitLeaves s k c i o) := by
  obtain ⟨_, _, _, h⟩ := jobsLogRegs_unitLeaves s k c i o
  rw [h]
  exact ⟨rfl, rfl, rfl, rfl, rfl, rfl⟩

/-- No address, map, seal or stack has changed. -/
theorem unitLeaves_map (auth : Option (Fin 4)) (da j : Nat) :
    unitRefused (unitLeaves s k c i o) auth da = unitRefused s auth da ∧
      daKind (unitLeaves s k c i o) da = daKind s da ∧
      locate (unitLeaves s k c i o) da = locate s da ∧ stackAt (unitLeaves s k c i o) j = stackAt s j := by
  obtain ⟨_, _, _, h⟩ := jobsLogRegs_unitLeaves s k c i o
  rw [h]
  exact ⟨rfl, rfl, rfl, rfl⟩

end

theorem treeAt_unitLeaves {s : State} {k c i : Nat} {x : TreeSt} (o : TOut) (h : treeAt s k c i = some x) :
    treeAt (unitLeaves s k c i o) k c i = some (treeAfter x o) := by
  unfold treeAt at h ⊢
  rw [chanAt_unitLeaves]
  simp [h]

theorem treeAt_of_trees_eq {s t : State} {k c : Nat} (h : (chanAt t k c).trees = (chanAt s k c).trees) (i : Nat) :
    treeAt t k c i = treeAt s k c i := by
  unfold treeAt
  rw [h]

theorem logRegs_sealedRefuse (s : State) (kind unit da : Nat) (jobtag : W32) (tag : Nat) :
    logRegs s (sealedRefuse s kind unit da jobtag tag) :=
  logRegs_trans (count_logRegs s _) (event_logRegs _ _ _ _ _ _ _ _ _)

section
variable {s : State} {k c job da : Nat} {auth : Option (Fin 4)} {o : TOut}

/-- A refused unit is lost, and the channel notes it (R520, R447). -/
theorem unitSent_of_refused (h : unitRefused s auth da = true) : sameMemory s (unitSent s k c job auth da o) ∧
    chanAt (unitSent s k c job auth da o) k c = { chanAt s k c with tailErr := true } := by
  unfold unitSent
  by_cases herr : rangeError s da 32 = true
  · rw [if_pos herr]
    exact ⟨⟨rfl, rfl, rfl, rfl, rfl, rfl⟩, chanAt_modChan s k c _⟩
  · have hseal : rangeSealRefused s auth da 32 true = true := by
      simpa [unitRefused, herr] using h
    obtain ⟨_, _, hlog⟩ := logRegs_sealedRefuse s 2 (chanUnit k c) da (chanTag s k c) 0xFFF
    rw [if_neg herr, if_pos hseal, hlog]
    exact ⟨⟨rfl, rfl, rfl, rfl, rfl, rfl⟩, chanAt_modChan _ k c _⟩

/-- The state in which the channel's entry is the cause of what follows (R14). -/
def tagged (s : State) (k c : Nat) : State := { s with cause := (chanTag s k c, 0xFFF) }

/-- A unit that is not refused is written under the tag of its entry, which is put off again (R14). -/
theorem unitSent_of_accepted {t : State} (h : unitRefused s auth da = false)
    (ht : unitWrite (tagged s k c) k c job da
      (o.vals.flatMap (fun v => leBytes 4 v.toNat)) (unitFlags da o.poison) = t) :
    unitSent s k c job auth da o = after s t := by
  obtain ⟨herr, hseal⟩ := Bool.or_eq_false_iff.mp h
  subst ht
  unfold unitSent
  rw [herr, hseal]
  rfl

section
variable (halign : da % 32 = 0) (hda : da < 2 ^ 48) (hvals : o.vals.length = 8)
include halign hda hvals

theorem unitSent_scratch {n off : Nat} (h : daKind s da = .scratch n off) :
    ∃ sp, unitSent s k c job auth da o = { s with
      scratch := mwrite s.scratch (scratchAddr n off) (o.vals.flatMap (fun v => leBytes 4 v.toNat))
      scratchPoison := sp } := by
  have hlen : (o.vals.flatMap (fun v => leBytes 4 v.toNat)).length = 32 := by rw [length_unitBytes, hvals]
  have hkind : daKind (tagged s k c) da = .scratch n off := h
  obtain ⟨sp, hsp⟩ := writePiece_scratch (fun _ => 2) (o.vals.flatMap (fun v => leBytes 4 v.toNat)) [o.poison] hkind
  refine ⟨sp, ?_⟩
  exact (unitSent_of_accepted (unitRefused_scratch auth halign hda h)
    ((unitWrite_scratch o.poison halign hda hlen hkind).trans hsp)).trans rfl

theorem unitSent_dram (h : daKind s da = .dram) (hok : unitRefused s auth da = false) :
    ∃ t r, unitSent s k c job auth da o = t ∧ sameMemory s t ∧ chanAt t k c = chanAt s k c ∧
      (stackAt t (locate s da).stack).reqs = (stackAt s (locate s da).stack).reqs ++ [r] ∧
      r.port = (if (locate s da).stack = k then 3 else 2) ∧ r.loc = (locate s da).loc ∧
      r.op = .write (o.vals.flatMap (fun v => leBytes 4 v.toNat)) [o.poison] := by
  have hlen : (o.vals.flatMap (fun v => leBytes 4 v.toNat)).length = 32 := by rw [length_unitBytes, hvals]
  have hkind : daKind (tagged s k c) da = .dram := h
  refine ⟨_, { unitReq s k c job da (o.vals.flatMap (fun v => leBytes 4 v.toNat)) o.poison with
      id := s.nextId, arrival := s.time },
    unitSent_of_accepted hok (unitWrite_dram o.poison halign hda hlen hkind), ⟨rfl, rfl, rfl, rfl, rfl, rfl⟩, rfl,
    ?_, rfl, rfl, rfl⟩
  exact reqs_enqueueOne (tagged s k c) (locate s da).stack _

end

end

/-- A unit of a tree whose entry has no bank that could send more. -/
theorem treeOutputUnit_of_no_banks {s : State} {k : Fin 12} {c : Fin 32} {i : Nat} {x : TreeSt} {o : TOut}
    (hx : treeAt s k c i = some x) (ho : treeOut x = some o) (hroom : unitsWaiting s k c < 16)
    (hwin : windowWaits s (unitDa s k c x o.rank o.n) 32 true = false) {t : State}
    (ht : unitSent (unitLeaves s k c i o) k c ((chanAt s k c).job.getD 0)
      (((chanAt s k c).job.bind (jobAt s)).bind (·.auth)) (unitDa s k c x o.rank o.n) o = t)
    (hbanks : (chanAt t k c).entryBanks = []) : treeOutputUnit k c i s = t := by
  rw [treeOutputUnit_eq hx ho hroom hwin, ht]
  exact pumpAll_of_no_banks hbanks

section
variable {s : State} {k : Fin 12} {c : Fin 32} {i : Nat} {x : TreeSt} {o : TOut} (hx : treeAt s k c i = some x)
  (ho : treeOut x = some o) (hbanks : (chanAt s k c).entryBanks = []) (halign : unitDa s k c x o.rank o.n % 32 = 0)
  (hvals : o.vals.length = 8) (hroom : unitsWaiting s k c < 16)
  (hwin : windowWaits s (unitDa s k c x o.rank o.n) 32 true = false)

include hx ho hbanks hroom hwin

/-- R520, R447: a refused unit has left its tree and is lost. -/
theorem treeOutputUnit_refused
    (h : unitRefused s (((chanAt s k c).job.bind (jobAt s)).bind (·.auth)) (unitDa s k c x o.rank o.n) = true) :
    sameMemory s (treeOutputUnit k c i s) ∧ treeAt (treeOutputUnit k c i s) k c i = some (treeAfter x o) ∧
      (chanAt (treeOutputUnit k c i s) k c).tailErr = true := by
  obtain ⟨hrefused, -⟩ := unitLeaves_map s k c i o (((chanAt s k c).job.bind (jobAt s)).bind (·.auth))
    (unitDa s k c x o.rank o.n) 0
  obtain ⟨hlost, hch⟩ := unitSent_of_refused (k := k) (c := c) (job := (chanAt s k c).job.getD 0) (o := o)
    (hrefused.trans h)
  have hnone := (entryBanks_unitLeaves s k c i o).trans hbanks
  rw [treeOutputUnit_of_no_banks hx ho hroom hwin rfl ((congrArg Chan.entryBanks hch).trans hnone)]
  exact ⟨sameMemory_trans (sameMemory_unitLeaves s k c i o) hlost,
    (treeAt_of_trees_eq (by rw [hch]) i).trans (treeAt_unitLeaves o hx), congrArg Chan.tailErr hch⟩

include halign hvals

/-- A unit for a scratchpad is written there at once. -/
theorem treeOutputUnit_scratch {n off : Nat} (h : daKind s (unitDa s k c x o.rank o.n) = .scratch n off) :
    (treeOutputUnit k c i s).dram = s.dram ∧ treeAt (treeOutputUnit k c i s) k c i = some (treeAfter x o) ∧
      (treeOutputUnit k c i s).scratch
        = mwrite s.scratch (scratchAddr n off) (o.vals.flatMap (fun v => leBytes 4 v.toNat)) := by
  obtain ⟨-, hkind, -⟩ := unitLeaves_map s k c i o none (unitDa s k c x o.rank o.n) 0
  obtain ⟨sp, hsent⟩ := unitSent_scratch halign (Nat.mod_lt _ (Nat.two_pow_pos _)) hvals (hkind.trans h)
  have hnone := (entryBanks_unitLeaves s k c i o).trans hbanks
  obtain ⟨hdram, -, -, hscratch, -⟩ := sameMemory_unitLeaves s k c i o
  rw [treeOutputUnit_of_no_banks hx ho hroom hwin hsent hnone]
  exact ⟨hdram, treeAt_unitLeaves o hx, by rw [hscratch]⟩

/-- A unit for DRAM waits as one request of the stack that holds its place. -/
theorem treeOutputUnit_dram (h : daKind s (unitDa s k c x o.rank o.n) = .dram)
    (hok : unitRefused s (((chanAt s k c).job.bind (jobAt s)).bind (·.auth)) (unitDa s k c x o.rank o.n) = false) :
    ∃ r, sameMemory s (treeOutputUnit k c i s) ∧ treeAt (treeOutputUnit k c i s) k c i = some (treeAfter x o) ∧
      (stackAt (treeOutputUnit k c i s) (locate s (unitDa s k c x o.rank o.n)).stack).reqs
        = (stackAt s (locate s (unitDa s k c x o.rank o.n)).stack).reqs ++ [r] ∧
      r.port = (if (locate s (unitDa s k c x o.rank o.n)).stack = k.val then 3 else 2) ∧
      r.loc = (locate s (unitDa s k c x o.rank o.n)).loc ∧
      r.op = .write (o.vals.flatMap (fun v => leBytes 4 v.toNat)) [o.poison] := by
  obtain ⟨hrefused, hkind, hloc, hstack⟩ := unitLeaves_map s k c i o
    (((chanAt s k c).job.bind (jobAt s)).bind (·.auth)) (unitDa s k c x o.rank o.n)
    (locate s (unitDa s k c x o.rank o.n)).stack
  obtain ⟨t, r, hsent, hsame, hch, hreqs, hport, hrloc, hop⟩ := unitSent_dram (k := k) (c := c)
    (job := (chanAt s k c).job.getD 0) halign (Nat.mod_lt _ (Nat.two_pow_pos _)) hvals (hkind.trans h)
    (hrefused.trans hok)
  rw [hloc] at hreqs hport hrloc
  have hnone := (congrArg Chan.entryBanks hch).trans ((entryBanks_unitLeaves s k c i o).trans hbanks)
  rw [treeOutputUnit_of_no_banks hx ho hroom hwin hsent hnone]
  exact ⟨r, sameMemory_trans (sameMemory_unitLeaves s k c i o) hsame,
    (treeAt_of_trees_eq (by rw [hch]) i).trans (treeAt_unitLeaves o hx), by rw [hreqs, hstack], hport, hrloc, hop⟩

end

/-- R520: the entry ends as at END, whatever its short querns still send. -/
theorem tailraceAddrError_ends {s : State} {k : Fin 12} {c : Fin 32} (herr : (chanAt s k c).tailErr = true)
    (hseq : (chanAt s k c).seq ≠ .idle) : sameMemory s (tailraceAddrError k c s) ∧
      (chanAt (tailraceAddrError k c s) k c).seq = .ending ∧ (chanAt (tailraceAddrError k c s) k c).waiting = false ∧
      (chanAt (tailraceAddrError k c s) k c).casting = false := by
  unfold tailraceAddrError
  simp only []
  rw [if_neg (by simp [herr, hseq])]
  generalize hu : modChan s k c _ = u
  have hch : (chanAt u k c).seq = .ending ∧ (chanAt u k c).waiting = false ∧ (chanAt u k c).casting = false := by
    rw [← hu, chanAt_modChan]
    exact ⟨rfl, rfl, rfl⟩
  have hmem : sameMemory s u := by
    rw [← hu]
    exact ⟨rfl, rfl, rfl, rfl, rfl, rfl⟩
  obtain ⟨hend, _, _, htrees⟩ := treesOnly_endShort u k c (chanAt s k c).entryBanks true
  rw [htrees]
  exact ⟨sameMemory_trans hmem hend, hch⟩

/-! ### The end of a job (R153, R323, R519) -/

theorem jobAt_id {s : State} {n : Nat} {j : Job} (h : jobAt s n = some j) : j.id = n := by
  simpa using List.find?_some h

theorem coreAt_of_cores_eq {s t : State} (h : t.cores = s.cores) (a : Nat) : coreAt t a = coreAt s a := by
  unfold coreAt
  rw [h]

theorem jobAt_modJob (s : State) (n : Nat) {f : Job → Job} (hf : ∀ j, (f j).id = j.id) :
    jobAt (modJob s n f) n = (jobAt s n).map f := by
  have hsame : ((fun j : Job => j.id == n) ∘ fun j => if j.id = n then f j else j) = fun j => j.id == n := by
    funext j
    by_cases h : j.id = n <;> simp [h, hf]
  unfold jobAt modJob
  rw [List.find?_map, hsame]
  cases hj : s.jobs.find? (fun j => j.id == n) with
  | none => rfl
  | some j => exact congrArg some (if_pos (jobAt_id hj))

/-- R387: the descriptor of a completed job is no longer admitted. -/
theorem admAt_complete (s : State) (did : Nat) (x : Done) : admAt (complete s did x) did = none := by
  unfold complete
  split
  · assumption
  · simp only []
    split <;> simp [admAt]

section
variable {s : State} {j : Job}

theorem arriveJob_of_none (h : j.arr = none) : arriveJob s j = dropJob s j.id := by
  unfold arriveJob
  rw [h]

theorem arriveJob_of_free {a : Nat} (h : j.arr = some a) (hfree : qFree (coreAt s a) 12 1 = true) :
    arriveJob s j = dropJob (modCore s a (fun c => qPush c 12 (jobArrival j))) j.id := by
  unfold arriveJob pushQ12
  simp only [h, hfree, if_true]

theorem arriveJob_of_full {a : Nat} (h : j.arr = some a) (hfull : qFree (coreAt s a) 12 1 = false) :
    arriveJob s j = modJob s j.id (fun j => { j with arrWait := true }) := by
  unfold arriveJob pushQ12
  simp only [h, hfull]
  rfl

theorem coreAt_dropJob (id a : Nat) : coreAt (dropJob s id) a = coreAt s a := rfl

/-- R323: with a place in Q12 the arrival is pushed, and the job is gone. -/
theorem arriveJob_pushes {a : Nat} (h : j.arr = some a) (hfree : qFree (coreAt s a) 12 1 = true) :
    (arriveJob s j).jobs = s.jobs.filter (fun x => x.id != j.id) ∧
      coreAt (arriveJob s j) a = qPush (coreAt s a) 12 (jobArrival j) := by
  rw [arriveJob_of_free h hfree, coreAt_dropJob, coreAt_modCore]
  exact ⟨rfl, rfl⟩

/-- Whether its arrival goes out or not, a job that is done touches no memory and no admitted descriptor. -/
theorem arriveJob_frame : sameMemory s (arriveJob s j) ∧ (arriveJob s j).admitted = s.admitted := by
  cases harr : j.arr with
  | none =>
    rw [arriveJob_of_none harr]
    exact ⟨⟨rfl, rfl, rfl, rfl, rfl, rfl⟩, rfl⟩
  | some a =>
    cases hfree : qFree (coreAt s a) 12 1 with
    | true =>
      rw [arriveJob_of_free harr hfree]
      exact ⟨⟨rfl, rfl, rfl, rfl, rfl, rfl⟩, rfl⟩
    | false =>
      rw [arriveJob_of_full harr hfree]
      exact ⟨⟨rfl, rfl, rfl, rfl, rfl, rfl⟩, rfl⟩

end

/-- The job's end is traced, and its record is written (R502, R384). -/
def jobRecorded (s : State) (j : Job) : State :=
  complete (trace s 7 (ringOf s j.did) j.jobtag (data := headOf s j.did)) j.did
    { status := jobStatus j, info0 := jobInfo j, qflags := j.flags.toNat }

theorem jobRecorded_frame (s : State) (j : Job) : sameMemory s (jobRecorded s j) ∧ (jobRecorded s j).jobs = s.jobs ∧
    (jobRecorded s j).cores = s.cores := by
  simp [jobRecorded, sameMemory]

theorem quernJobComplete_of_done {s : State} {n : Nat} {j : Job} (hj : jobAt s n = some j) (hleft : j.left = 0)
    (harr : j.arrWait = false) (hunits : unitsLeft s j.id = false)
    (hends : ∀ d, d < 32 → bitOf j.mask d = true → ∃ o ∈ j.outcomes, o.1 = d) :
    quernJobComplete n s = arriveJob (jobRecorded s j) j := by
  have hall : (List.range 32).all (fun c => !bitOf j.mask c || j.outcomes.any (fun o => o.1 == c)) = true := by
    rw [List.all_eq_true]
    intro d hd
    cases hbit : bitOf j.mask d with
    | false => rfl
    | true =>
      obtain ⟨o, ho, hod⟩ := hends d (List.mem_range.mp hd) hbit
      exact Bool.or_eq_true_iff.mpr (.inr (List.any_eq_true.mpr ⟨o, ho, beq_iff_eq.mpr hod⟩))
  unfold quernJobComplete
  simp only [hj]
  rw [if_neg (by simp only [hleft, harr, hunits, hall]; simp)]
  rfl

theorem quernArrivalRelease_of_waiting {s : State} {n : Nat} {j : Job} (hj : jobAt s n = some j)
    (harr : j.arrWait = true) : quernArrivalRelease n s = arriveJob s j := by
  unfold quernArrivalRelease
  simp only [hj]
  exact if_pos harr

section
variable {s : State} {j : Job} (hj : jobAt s j.id = some j) (hleft : j.left = 0) (harr : j.arrWait = false)
  (hunits : unitsLeft s j.id = false) (hends : ∀ d, d < 32 → bitOf j.mask d = true → ∃ o ∈ j.outcomes, o.1 = d)

include hj hleft harr hunits hends

/-- QUERN_JOB_COMPLETE: the record is written, then the arrival is pushed, or waits (R153, R323). -/
theorem quernJobComplete_ends : admAt (quernJobComplete j.id s) j.did = none ∧
    sameMemory s (quernJobComplete j.id s) ∧
    (j.arr = none → (quernJobComplete j.id s).jobs = s.jobs.filter (fun x => x.id != j.id)) ∧
    (∀ a, j.arr = some a → qFree (coreAt s a) 12 1 = true →
      (quernJobComplete j.id s).jobs = s.jobs.filter (fun x => x.id != j.id) ∧
        coreAt (quernJobComplete j.id s) a = qPush (coreAt s a) 12 (jobArrival j)) ∧
    (∀ a, j.arr = some a → qFree (coreAt s a) 12 1 = false →
      (jobAt (quernJobComplete j.id s) j.id).map (·.arrWait) = some true) := by
  obtain ⟨hmem, hjobs, hcores⟩ := jobRecorded_frame s j
  obtain ⟨harrive, hadm⟩ := arriveJob_frame (s := jobRecorded s j) (j := j)
  have hcore := coreAt_of_cores_eq hcores
  rw [quernJobComplete_of_done hj hleft harr hunits hends]
  refine ⟨?_, sameMemory_trans hmem harrive, ?_, ?_, ?_⟩
  · have hgone : admAt (jobRecorded s j) j.did = none := admAt_complete _ _ _
    unfold admAt at hgone ⊢
    rw [hadm]
    exact hgone
  · intro hnone
    rw [arriveJob_of_none hnone, ← hjobs]
    rfl
  · intro a ha hfree
    rw [← hjobs, ← hcore a]
    exact arriveJob_pushes ha ((congrArg (qFree · 12 1) (hcore a)).trans hfree)
  · intro a ha hfull
    have hrec : jobAt (jobRecorded s j) j.id = some j := by
      unfold jobAt
      rw [hjobs]
      exact hj
    rw [arriveJob_of_full ha ((congrArg (qFree · 12 1) (hcore a)).trans hfull),
      jobAt_modJob (jobRecorded s j) j.id (f := fun j => { j with arrWait := true }) (fun _ => rfl), hrec]
    rfl

end

/-! ### The statement -/

/-- A command whose operation answers `u` leaves `u`, with the queue and the fuses kept. -/
theorem ran_of_eq {s x u : State} (h : x = u) : ran s x = .next (kept s u) := congrArg (ran s) h

/-- Settles O45: one command after the other, by what it leaves of the bank, the quern, the tree or the job. -/
theorem streams : Obligations.Streams := by
  unfold Obligations.Streams
  rintro s k c b _ _ rfl rfl
  refine ⟨?_, ?_, ?_, ?_, ?_, ?_, ?_, ?_, ?_, ?_, ?_⟩
  · intro rest hrest hplace
    have hch := chanAt_admitBank s k c b
    exact ⟨_, ran_of_eq (bankAdmission_of_place hrest hplace), sameMemory_admitBank s k c b,
      congrArg Chan.streaming hch, congrArg Chan.admission hch, openRow_admitBank s k c b,
      congrArg Quern.st (quernOf_admitBank s k c b)⟩
  · intro hallow
    exact ran_of_eq (bankAdmission_of_allow_zero c hallow)
  · intro hat hb hyields hrepairs hreqs hcopy hremap
    have hbank := bankAt_reopened s k c b
    have hq := quernOf_modQuernOf (reopened s k c b) k c b
      (fun q => { q with atBoundary := q.atBoundary && q.feeds.isEmpty })
    exact ⟨_, ran_of_eq (rowBoundary_of_quiet hat hb ⟨hyields, hrepairs, hreqs, hcopy, hremap⟩),
      sameMemory_reopened s k c b, hq, congrArg BankSt.openRow hbank, congrArg BankSt.gate hbank⟩
  · intro hheld
    exact ⟨ran_of_eq (columnDelivered_of_held c b hheld), ran_of_eq (exponentStepDone_of_held c b hheld)⟩
  · rintro x _ st hx hst hstalled hbound hb hclock hopen hseq hdue rfl hcls hstep hgoes hdrain
    obtain ⟨u, ⟨sk, rfl⟩, hgo⟩ := columnDelivered_of_clean hx hst hstalled hbound hb hclock hopen hdue hcls hstep
    have hstays := applyStep_settled (s := { s with stks := sk }) (w := b) (st := { st with q := _ }) hdrain hgoes hseq
    exact ⟨_, ran_of_eq (hgo.trans hstays), sameMemory_applyStep { s with stks := sk } k c b _,
      quernOf_applyStep { s with stks := sk } k c b _⟩
  · intro hdrain hstalled hst hseq
    exact ran_of_eq (drainStallRelease_of_drained hdrain hstalled hst hseq)
  · intro hst hseq hclock
    exact ⟨_, ran_of_eq rfl, exponentStepDone_goes hst hseq hclock⟩
  · rintro i x o _ hx ho hbanks rfl halign hvals hroom hwin
    refine ⟨fun n off hscratch _ => ?_, fun hdram hok => ?_, fun hrefused => ?_⟩
    · exact ⟨_, ran_of_eq rfl, treeOutputUnit_scratch hx ho hbanks halign hvals hroom hwin hscratch⟩
    · exact ⟨_, (treeOutputUnit_dram hx ho hbanks halign hvals hroom hwin hdram hok).imp
        (fun _ hr => ⟨ran_of_eq rfl, hr⟩)⟩
    · exact ⟨_, ran_of_eq rfl, treeOutputUnit_refused hx ho hbanks hroom hwin hrefused⟩
  · intro herr hseq
    exact ⟨_, ran_of_eq rfl, tailraceAddrError_ends herr hseq⟩
  · intro n j hj hleft harr hunits hends
    obtain rfl := jobAt_id hj
    exact ⟨_, ran_of_eq rfl, quernJobComplete_ends hj hleft harr hunits hends⟩
  · intro n j a hj harr ha hfree
    obtain rfl := jobAt_id hj
    obtain ⟨hmem, -⟩ := arriveJob_frame (s := s) (j := j)
    exact ⟨_, ran_of_eq (quernArrivalRelease_of_waiting hj harr), hmem, arriveJob_pushes ha hfree⟩

end Sys2Proof.Machine

/-! SUPPORT. The matrix unit (R231, R235–R239): what MLDC, MSCL and MMA leave of their core and of memory as they leave the
unit, and the tile that an MMA with FIN writes. -/

namespace Sys2Proof.Machine

open Sys2Proof

/-! ### An engine's counters, and the elements it writes -/

theorem coreAt_of_logRegs {s t : State} (h : logRegs s t) (n : Nat) : coreAt t n = coreAt s n := by
  obtain ⟨_, _, rfl⟩ := h
  exact coreAt_of_cores_eq rfl n

theorem sameMemory_of_logRegs {s t : State} (h : logRegs s t) : sameMemory s t := by
  obtain ⟨_, _, rfl⟩ := h
  exact ⟨rfl, rfl, rfl, rfl, rfl, rfl⟩

theorem logRegs_orVstat (s : State) (n bits : Nat) : logRegs s (orVstat s n bits) := logRegs_regSet s _ _

/-- A state that differs from `s` in the scratchpads' poison flags alone. -/
def linesMarked (s t : State) : Prop := ∃ p, t = { s with scratchPoison := p }

theorem linesMarked_setLinePoison (s : State) (n l : Nat) (b : Bool) : linesMarked s (setLinePoison s n l b) := by
  cases b <;> exact ⟨_, rfl⟩

theorem linesMarked_fold {α : Type} (g : State → α → State) (h : ∀ s x, linesMarked s (g s x)) (l : List α) (s : State) :
    linesMarked s (l.foldl g s) := by
  induction l generalizing s with
  | nil => exact ⟨_, rfl⟩
  | cons x r ih =>
    obtain ⟨_, hx⟩ := h s x
    obtain ⟨p, hr⟩ := ih (g s x)
    exact ⟨p, by rw [List.foldl_cons, hr, hx]⟩

/-- Elements are written one after the other; beside them only poison flags change. -/
theorem linesMarked_writeElems (s : State) (n off w : Nat) (es : List Elem) :
    linesMarked { s with scratch := es.foldl (fun m x => elemPut m (scratchAddr n off) w x.i x.bits) s.scratch }
      (writeElems s n off w es) :=
  linesMarked_fold _ (fun s l => linesMarked_setLinePoison s n l _) _ _

theorem scratch_writeElems (s : State) (n off w : Nat) (es : List Elem) :
    (writeElems s n off w es).scratch = es.foldl (fun m x => elemPut m (scratchAddr n off) w x.i x.bits) s.scratch := by
  obtain ⟨p, h⟩ := linesMarked_writeElems s n off w es
  rw [h]

theorem coreAt_writeElems (s : State) (n off w : Nat) (es : List Elem) (m : Nat) :
    coreAt (writeElems s n off w es) m = coreAt s m := by
  obtain ⟨p, h⟩ := linesMarked_writeElems s n off w es
  rw [h]
  rfl

theorem sameMemory_modCore (s : State) (n : Nat) (f : Core → Core) : sameMemory s (modCore s n f) :=
  ⟨rfl, rfl, rfl, rfl, rfl, rfl⟩

/-- A core whose tasks have not all ended goes on (R218). -/
theorem settleCore_of_running {s : State} {n : Nat} (hst : (coreAt s n).st = .running)
    (hgo : allEnded (coreAt s n) = false) : settleCore s n = s := by
  unfold settleCore
  simp [hst, hgo]

/-! ### The accumulators -/

@[simp] theorem accOf_setAcc (m : MatUnit) (one : Bool) (t : Table W32) (p : Bool) : accOf (setAcc m one t p) one = t := by
  cases one <;> rfl

@[simp] theorem accPoison_setAcc (m : MatUnit) (one : Bool) (t : Table W32) (p : Bool) :
    accPoison (setAcc m one t p) one = p := by
  cases one <;> rfl

/-- A table filled from number 0 on holds at each number what was set there. -/
theorem tget_fill (f : Nat → W32) (k i : Nat) (h : i < k) :
    tget 0 ((List.range k).foldl (fun t i => tset 0 i (f i) t) ([] : Table W32)) i = f i := by
  induction k with
  | zero => exact absurd h (Nat.not_lt_zero i)
  | succ k ih =>
    rw [List.range_succ, List.foldl_append, List.foldl_cons, List.foldl_nil]
    rcases Nat.lt_succ_iff_lt_or_eq.mp h with hlt | rfl
    · rw [tget_tset_ne _ _ _ _ _ _ (Nat.ne_of_lt hlt), ih hlt]
    · exact tget_tset_same _ _ _ _

/-! ### What each instruction leaves of its core -/

theorem coreAt_mldcRun (s : State) (n : Nat) (e : EngInstr) :
    coreAt (mldcRun s n e) n = { coreAt s n with
      mat := setAcc (coreAt s n).mat (mAcc1 e.word)
        ((List.range 256).foldl (fun t i => tset 0 i (w32 (elemGet s n (eOff (engSrc e 0)) 32 i)) t) [])
        (linesPoison s n (eOff (engSrc e 0)) 1024) } := coreAt_modCore s n _

theorem accPoison_mldcRun (s : State) (n : Nat) (e : EngInstr) :
    accPoison (coreAt (mldcRun s n e) n).mat (mAcc1 e.word) = linesPoison s n (eOff (engSrc e 0)) 1024 := by
  rw [coreAt_mldcRun]
  exact accPoison_setAcc _ _ _ _

theorem accOf_mldcRun (s : State) (n : Nat) (e : EngInstr) {i : Nat} (hi : i < 256) :
    tget 0 (accOf (coreAt (mldcRun s n e) n).mat (mAcc1 e.word)) i = w32 (elemGet s n (eOff (engSrc e 0)) 32 i) := by
  rw [coreAt_mldcRun]
  simp only [accOf_setAcc]
  exact tget_fill _ _ _ hi

theorem sameMemory_matPop (s : State) (n : Nat) : sameMemory s (matPop s n) := sameMemory_modCore s n _

theorem sameMemory_mldcRun (s : State) (n : Nat) (e : EngInstr) : sameMemory s (mldcRun s n e) := sameMemory_modCore s n _

theorem sameMemory_msclRun (s : State) (n : Nat) (e : EngInstr) : sameMemory s (msclRun s n e) := sameMemory_modCore s n _

/-- R235: the scale registers with the sides that an MSCL uses loaded. -/
def scalesLoaded (s : State) (n : Nat) (e : EngInstr) (m : MatUnit) : MatUnit :=
  let m := if engUses e 0 then { m with sa := msclSide s n (mKb e.word) (engSrc e 0), saKb := mKb e.word } else m
  if engUses e 1 then { m with sb := msclSide s n (mKb e.word) (engSrc e 1), sbKb := mKb e.word } else m

theorem scalesLoaded_eq (s : State) (n : Nat) (e : EngInstr) (m : MatUnit) :
    scalesLoaded s n e m = { m with
      saKb := if engUses e 0 then mKb e.word else m.saKb
      sa := if engUses e 0 then scratchRead s n (eOff (engSrc e 0)) (16 * mKb e.word) else m.sa
      sbKb := if engUses e 1 then mKb e.word else m.sbKb
      sb := if engUses e 1 then scratchRead s n (eOff (engSrc e 1)) (16 * mKb e.word) else m.sb } := by
  unfold scalesLoaded msclSide
  cases engUses e 0 <;> cases engUses e 1 <;> rfl

theorem coreAt_msclRun (s : State) (n : Nat) (e : EngInstr) :
    ∃ p q, coreAt (msclRun s n e) n = { coreAt s n with
      mat := { scalesLoaded s n e (coreAt s n).mat with poison0 := p, poison1 := q } } :=
  ⟨_, _, coreAt_modCore s n _⟩

/-- An MMA works on its accumulator, and counts. -/
theorem mmaRun_logRegs (s : State) (n : Nat) (e : EngInstr) :
    ∃ p, logRegs (modCore s n (fun c => { c with
      mat := setAcc c.mat (mAcc1 e.word) (mmaTile s n (coreAt s n).mat e
        (if mZero e.word then [] else accOf (coreAt s n).mat (mAcc1 e.word))).1 p })) (mmaRun s n e) :=
  ⟨_, logRegs_trans (logRegs_orVstat _ _ _) (countBy_logRegs _ _ _)⟩

theorem coreAt_mmaRun (s : State) (n : Nat) (e : EngInstr) :
    ∃ p, coreAt (mmaRun s n e) n = { coreAt s n with
      mat := setAcc (coreAt s n).mat (mAcc1 e.word) (mmaTile s n (coreAt s n).mat e
        (if mZero e.word then [] else accOf (coreAt s n).mat (mAcc1 e.word))).1 p } := by
  obtain ⟨p, h⟩ := mmaRun_logRegs s n e
  exact ⟨p, (coreAt_of_logRegs h n).trans (coreAt_modCore s n _)⟩

theorem sameMemory_mmaRun (s : State) (n : Nat) (e : EngInstr) : sameMemory s (mmaRun s n e) := by
  obtain ⟨_, h⟩ := mmaRun_logRegs s n e
  exact sameMemory_trans (sameMemory_modCore s n _) (sameMemory_of_logRegs h)

/-- R236: an accumulator as the output buffer takes it. -/
def tileBytes (e : EngInstr) (acc : Table W32) : List Byte :=
  (List.range 256).flatMap (fun i => leBytes (tileBits (mOutfmt e.word) / 8)
    (tileElem (mOutfmt e.word) (mSat e.word) (tget 0 acc i)).1)

/-- R236: the output buffer `out` as it is written to the region of SRC2. -/
def tileStored (n : Nat) (e : EngInstr) (out : List Byte) (m : Memory) : Memory :=
  (List.range 256).foldl (fun m i => elemPut m (scratchAddr n (eOff (engSrc e 2))) (tileBits (mOutfmt e.word)) i
    (sliceNat out (tileBits (mOutfmt e.word) / 8 * i) (tileBits (mOutfmt e.word) / 8))) m

/-- R236: the handle of the tile. -/
def tileHandle (e : EngInstr) (poison : Bool) : W64 :=
  mkHandle (eOff (engSrc e 2)) (32 * tileBits (mOutfmt e.word)) (mOutfmt e.word + 1) poison (iTag e.word)

theorem mmaCopyOut_logRegs (s : State) (n : Nat) (e : EngInstr) :
    logRegs (modCore s n (fun c => { c with
      mat := { c.mat with out := tileBytes e (accOf (coreAt s n).mat (mAcc1 e.word)) } })) (mmaCopyOut s n e) := by
  unfold mmaCopyOut tileBytes
  simp only [List.flatMap_map]
  exact logRegs_orVstat _ _ _

theorem coreAt_mmaCopyOut (s : State) (n : Nat) (e : EngInstr) :
    coreAt (mmaCopyOut s n e) n = { coreAt s n with
      mat := { (coreAt s n).mat with out := tileBytes e (accOf (coreAt s n).mat (mAcc1 e.word)) } } :=
  (coreAt_of_logRegs (mmaCopyOut_logRegs s n e) n).trans (coreAt_modCore s n _)

theorem sameMemory_mmaCopyOut (s : State) (n : Nat) (e : EngInstr) : sameMemory s (mmaCopyOut s n e) :=
  sameMemory_trans (sameMemory_modCore s n _) (sameMemory_of_logRegs (mmaCopyOut_logRegs s n e))

theorem coreAt_mmaWriteOut (s : State) (n : Nat) (e : EngInstr) :
    coreAt (mmaWriteOut s n e) n = { qPush (coreAt s n) 14 (tileHandle e (accPoison (coreAt s n).mat (mAcc1 e.word))) with
      q14rsv := (coreAt s n).q14rsv - 1 } := by
  unfold mmaWriteOut
  rw [coreAt_modCore, coreAt_writeElems]
  rfl

theorem scratch_mmaWriteOut (s : State) (n : Nat) (e : EngInstr) :
    (mmaWriteOut s n e).scratch = tileStored n e (coreAt s n).mat.out s.scratch := by
  have h := scratch_writeElems s n (eOff (engSrc e 2)) (tileBits (mOutfmt e.word)) ((List.range 256).map (fun i =>
    { i := i, bits := sliceNat (coreAt s n).mat.out (tileBits (mOutfmt e.word) / 8 * i) (tileBits (mOutfmt e.word) / 8)
      poison := accPoison (coreAt s n).mat (mAcc1 e.word) }))
  rw [List.foldl_map] at h
  exact h

theorem coreAt_mmaFinish (s : State) (n : Nat) (e : EngInstr) :
    coreAt (mmaFinish s n e) n = { qPush (coreAt s n) 14 (tileHandle e (accPoison (coreAt s n).mat (mAcc1 e.word))) with
      mat := { (coreAt s n).mat with out := tileBytes e (accOf (coreAt s n).mat (mAcc1 e.word)) }
      q14rsv := (coreAt s n).q14rsv - 1 } := by
  unfold mmaFinish
  rw [coreAt_mmaWriteOut, coreAt_mmaCopyOut]
  rfl

/-- The accumulators stay as they are. -/
theorem accOf_mmaFinish (s : State) (n : Nat) (e : EngInstr) (one : Bool) :
    accOf (coreAt (mmaFinish s n e) n).mat one = accOf (coreAt s n).mat one := by
  rw [coreAt_mmaFinish]
  rfl

theorem accPoison_mmaFinish (s : State) (n : Nat) (e : EngInstr) (one : Bool) :
    accPoison (coreAt (mmaFinish s n e) n).mat one = accPoison (coreAt s n).mat one := by
  rw [coreAt_mmaFinish]
  rfl

theorem out_mmaFinish (s : State) (n : Nat) (e : EngInstr) :
    (coreAt (mmaFinish s n e) n).mat.out = tileBytes e (accOf (coreAt (mmaFinish s n e) n).mat (mAcc1 e.word)) := by
  rw [accOf_mmaFinish, coreAt_mmaFinish]

theorem queue14_mmaFinish (s : State) (n : Nat) (e : EngInstr) :
    queueAt (coreAt (mmaFinish s n e) n) 14 = queueAt (coreAt s n) 14 ++ [{
      rid := (coreAt s n).nextRid
      entry := some (tileHandle e (accPoison (coreAt (mmaFinish s n e) n).mat (mAcc1 e.word))) }] := by
  rw [accPoison_mmaFinish, coreAt_mmaFinish]
  exact tget_tset_same _ _ _ _

theorem scratch_mmaFinish (s : State) (n : Nat) (e : EngInstr) :
    (mmaFinish s n e).scratch = tileStored n e (coreAt (mmaFinish s n e) n).mat.out s.scratch := by
  obtain ⟨-, -, -, hscratch, -, -⟩ := sameMemory_mmaCopyOut s n e
  rw [coreAt_mmaFinish]
  unfold mmaFinish
  rw [scratch_mmaWriteOut, coreAt_mmaCopyOut, hscratch]

/-! ### Completion -/

section
variable {n : Fin 1200} {s : State} {e : EngInstr} {rest : List EngInstr} (hq : (coreAt s n).matq = e :: rest)
  (hst : (coreAt s n).st = .running) (hgo : allEnded (coreAt s n) = false) (hheld : coreHeld s n = false)
  (hfault : matFault (coreAt s n) e = none)

include hq in
theorem coreAt_matPop_of_head : coreAt (matPop s n) n = { coreAt s n with matq := rest } := by
  unfold matPop
  rw [coreAt_modCore, hq]
  rfl

include hq hfault in
/-- The unit's own registers alone decide whether an instruction may start (R262). -/
theorem matFault_matPop : matFault (coreAt (matPop s n) n) e = none := by
  rw [coreAt_matPop_of_head hq]
  exact hfault

include hq hst hgo in
/-- An instruction that changes the unit's registers alone does not end its core's part (R218). -/
theorem settleCore_of_mat {u : State} {m : MatUnit} (hu : coreAt u n = { coreAt (matPop s n) n with mat := m }) :
    settleCore u n = u := by
  rw [coreAt_matPop_of_head hq] at hu
  exact settleCore_of_running (by rw [hu]; exact hst) (by rw [hu]; exact hgo)

include hq hst hgo hheld hfault

theorem matrixInstructionComplete_eq (hfin : isFinMma e = false) {m : MatUnit}
    (hrun : coreAt (matRun (matPop s n) n e) n = { coreAt (matPop s n) n with mat := m }) :
    matrixInstructionComplete n s = matRun (matPop s n) n e := by
  unfold matrixInstructionComplete
  simp only [hq, hheld, hfin, matFault_matPop hq hfault, Bool.or_self, Bool.false_eq_true, if_false]
  exact settleCore_of_mat hq hst hgo hrun

/-- MLDC (R231). -/
theorem mldc_completes (hop : iOp e.word = 2) :
    matrixInstructionComplete n s = mldcRun (matPop s n) n e := by
  have hrun : matRun (matPop s n) n e = mldcRun (matPop s n) n e := by simp only [matRun, hop]
  have hcore := coreAt_mldcRun (matPop s n) n e
  rw [← hrun] at hcore ⊢
  exact matrixInstructionComplete_eq hq hst hgo hheld hfault (by simp [isFinMma, hop]) hcore

/-- MSCL (R235). -/
theorem mscl_completes (hop : iOp e.word = 1) :
    matrixInstructionComplete n s = msclRun (matPop s n) n e := by
  have hrun : matRun (matPop s n) n e = msclRun (matPop s n) n e := by simp only [matRun, hop]
  obtain ⟨p, q, hcore⟩ := coreAt_msclRun (matPop s n) n e
  rw [← hrun] at hcore ⊢
  exact matrixInstructionComplete_eq hq hst hgo hheld hfault (by simp [isFinMma, hop]) hcore

/-- MMA without FIN (R236). -/
theorem mma_completes (hop : iOp e.word = 0) (hfin : mFin e.word = false) :
    matrixInstructionComplete n s = mmaRun (matPop s n) n e := by
  have hrun : matRun (matPop s n) n e = mmaRun (matPop s n) n e := by simp only [matRun, hop]
  obtain ⟨p, hcore⟩ := coreAt_mmaRun (matPop s n) n e
  rw [← hrun] at hcore ⊢
  exact matrixInstructionComplete_eq hq hst hgo hheld hfault (by simp [isFinMma, hfin]) hcore

/-- MMA with FIN (R236). -/
theorem mmaFin_completes (hop : iOp e.word = 0) (hfin : mFin e.word = true) :
    mmaComplete n s = mmaFinish (mmaRun (matPop s n) n e) n e := by
  have hstart : mmaFault (coreAt (matPop s n) n) e = none := by
    have h := matFault_matPop hq hfault
    simpa only [matFault, hop] using h
  have hends : mmaComplete n s = settleCore (mmaFinish (mmaRun (matPop s n) n e) n e) n := by
    unfold mmaComplete
    simp only [hq, isFinMma, hop, hfin, hheld, hstart]
    rfl
  obtain ⟨p, hrun⟩ := coreAt_mmaRun (matPop s n) n e
  have hcore := coreAt_mmaFinish (mmaRun (matPop s n) n e) n e
  rw [hrun, coreAt_matPop_of_head hq] at hcore
  rw [hends]
  exact settleCore_of_running (by rw [hcore]; exact hst) (by rw [hcore]; exact hgo)

end

/-! ### The statement -/

/-- The end of a command leaves the cores alone. -/
theorem coreAt_kept (s x : State) (n : Nat) : coreAt (kept s x) n = coreAt x n := coreAt_of_cores_eq rfl n

/-- ... and memory. -/
theorem sameMemory_kept {s x : State} (h : sameMemory s x) : sameMemory s (kept s x) := h

/-- Settles O17: each instruction of the unit is its own run, by what that leaves of its core and of memory. -/
theorem matrixComplete : Obligations.MatrixComplete := by
  unfold Obligations.MatrixComplete
  rintro n s e rest _ rfl hq hst hgo hfault hheld
  have hpop := coreAt_matPop_of_head hq
  have hpopped := sameMemory_matPop s n
  refine ⟨fun hop => ?_, fun hop => ?_, fun hop hfin => ?_, fun hop hfin => ?_⟩
  · have hcore := coreAt_mldcRun (matPop s n) n e
    rw [hpop] at hcore
    refine ⟨_, ran_of_eq (mldc_completes hq hst hgo hheld hfault hop), ?_⟩
    rw [coreAt_kept]
    exact ⟨congrArg Core.matq hcore, sameMemory_kept (sameMemory_trans hpopped (sameMemory_mldcRun _ n e)),
      accPoison_mldcRun (matPop s n) n e, fun i hi => accOf_mldcRun (matPop s n) n e hi⟩
  · obtain ⟨p, q, hcore⟩ := coreAt_msclRun (matPop s n) n e
    rw [hpop, scalesLoaded_eq] at hcore
    refine ⟨_, ran_of_eq (mscl_completes hq hst hgo hheld hfault hop), ?_⟩
    rw [coreAt_kept, hcore]
    exact ⟨rfl, sameMemory_kept (sameMemory_trans hpopped (sameMemory_msclRun _ n e)), rfl, rfl, rfl, rfl, rfl, rfl⟩
  · obtain ⟨p, hcore⟩ := coreAt_mmaRun (matPop s n) n e
    rw [hpop] at hcore
    refine ⟨_, ran_of_eq (mma_completes hq hst hgo hheld hfault hop hfin), ?_⟩
    rw [coreAt_kept, hcore]
    exact ⟨rfl, sameMemory_kept (sameMemory_trans hpopped (sameMemory_mmaRun _ n e)), accOf_setAcc _ _ _ _⟩
  · obtain ⟨p, hcore⟩ := coreAt_mmaRun (matPop s n) n e
    rw [hpop] at hcore
    have hends := coreAt_mmaFinish (mmaRun (matPop s n) n e) n e
    have hacc := accOf_mmaFinish (mmaRun (matPop s n) n e) n e (mAcc1 e.word)
    have hq14 := queue14_mmaFinish (mmaRun (matPop s n) n e) n e
    have hmem := scratch_mmaFinish (mmaRun (matPop s n) n e) n e
    obtain ⟨-, -, -, hscratch, -, -⟩ := sameMemory_trans hpopped (sameMemory_mmaRun (matPop s n) n e)
    rw [hcore] at hends hacc hq14
    rw [hscratch] at hmem
    refine ⟨_, ran_of_eq (mmaFin_completes hq hst hgo hheld hfault hop hfin), ?_⟩
    rw [coreAt_kept]
    exact ⟨congrArg Core.matq hends, hacc.trans (accOf_setAcc _ _ _ _), out_mmaFinish _ n e, hmem, hq14,
      congrArg Core.q14rsv hends⟩

end Sys2Proof.Machine

/-! SUPPORT. The vector engine (R240–R262): what its instructions leave of their core and of memory where the task table is in
canonical form, which elements a permutation writes, and a core whose table is not in that form, which refutes the statement
on the completions. -/

namespace Sys2Proof.Machine

open Sys2Proof

/-! ### The entries and the flag of an instruction's end -/

theorem vecEntry_frame (c : Core) (d : Option (Nat × Nat)) (x : Option W64) :
    (vecEntry c d x).st = c.st ∧ (vecEntry c d x).tasks = c.tasks := by
  cases x <;> cases d <;> exact ⟨rfl, rfl⟩

theorem vecLeaves_st (c : Core) (e : EngInstr) (flag : Bool) (d0 d1 : Option W64) :
    (vecLeaves c e flag d0 d1).st = c.st := by
  have hentries := ((vecEntry_frame _ (engDst e 1) d1).1).trans (vecEntry_frame c (engDst e 0) d0).1
  unfold vecLeaves
  split
  · exact hentries
  · exact hentries

/-! ### The end of an instruction whose task table is in canonical form -/

section
variable {α : Type}

theorem tget_eq_or_mem (d : α) (t : Table α) (k : Nat) : tget d t k = d ∨ (k, tget d t k) ∈ t := by
  induction t with
  | nil => exact .inl rfl
  | cons p r ih =>
    unfold tget
    split
    · rename_i h
      exact .inr (h ▸ List.mem_cons_self)
    · exact ih.imp_right (List.mem_cons_of_mem p)

/-- What a table in canonical form lists is what it reads as. -/
theorem tget_of_mem_sorted {d : α} {t : Table α} (h : Table.sorted t = true) {p : Nat × α} (hp : p ∈ t) :
    tget d t p.1 = p.2 := by
  rw [sorted_iff] at h
  induction t with
  | nil => exact absurd hp List.not_mem_nil
  | cons q r ih =>
    obtain ⟨hq, hr⟩ := List.pairwise_cons.mp h
    rcases List.mem_cons.mp hp with rfl | hp
    · exact if_pos rfl
    · exact (if_neg (Nat.ne_of_lt (hq p hp))).trans (ih hr hp)

end

theorem allEnded_iff_of_sorted {c : Core} (h : Table.sorted c.tasks = true) :
    allEnded c = true ↔ ∀ t, (taskAt c t).st = .ended := by
  unfold allEnded taskAt
  rw [List.all_eq_true]
  refine ⟨fun hall t => ?_, fun hall p hp => ?_⟩
  · rcases tget_eq_or_mem ({} : Task) c.tasks t with ht | ht
    · rw [ht]
    · exact of_decide_eq_true (hall _ ht)
  · have ht := hall p.1
    rw [tget_of_mem_sorted h hp] at ht
    exact decide_eq_true ht

/-- A flag is no part of whether its task has ended. -/
theorem allEnded_setFlag {c : Core} (h : Table.sorted c.tasks = true) (t i : Nat) (b : Bool) :
    allEnded (modTask c t (fun x => fSet x i b)) = allEnded c := by
  have hst : ∀ u, (taskAt (modTask c t (fun x => fSet x i b)) u).st = (taskAt c u).st := by
    intro u
    by_cases hu : u = t
    · rw [hu, taskAt_modTask]
      rfl
    · rw [taskAt_modTask_ne _ _ _ _ hu]
  have hsorted : Table.sorted (modTask c t (fun x => fSet x i b)).tasks = true := sorted_tset _ _ _ _ h
  rw [Bool.eq_iff_iff, allEnded_iff_of_sorted hsorted, allEnded_iff_of_sorted h]
  simp only [hst]

theorem allEnded_vecLeaves {c : Core} (h : Table.sorted c.tasks = true) (e : EngInstr) (flag : Bool) (d0 d1 : Option W64) :
    allEnded (vecLeaves c e flag d0 d1) = allEnded c := by
  have htasks := ((vecEntry_frame _ (engDst e 1) d1).2).trans (vecEntry_frame c (engDst e 0) d0).2
  have hended : allEnded (vecEntry (vecEntry c (engDst e 0) d0) (engDst e 1) d1) = allEnded c := by
    unfold allEnded
    rw [htasks]
  unfold vecLeaves
  split
  · exact (allEnded_setFlag (by rw [htasks]; exact h) _ _ _).trans hended
  · exact hended

/-- The core goes on with the instruction's entries and flag (R240, R251); beside them the end counts. -/
theorem vecEnd_of_sorted {s : State} {n : Nat} (hst : (coreAt s n).st = .running) (hgo : allEnded (coreAt s n) = false)
    (hsorted : Table.sorted (coreAt s n).tasks = true) (e : EngInstr) (fl active : Nat) (flag poison : Bool)
    (d0 d1 : Option W64) :
    sameMemory s (vecEnd s n e fl active flag poison d0 d1) ∧
      coreAt (vecEnd s n e fl active flag poison d0 d1) n = vecLeaves (coreAt s n) e flag d0 d1 := by
  have hcounted := logRegs_trans (logRegs_orVstat s n (fl ||| (if poison then vsPoison else 0)))
    (countBy_logRegs _ (oCore n cVecCnt) active)
  unfold vecEnd
  simp only []
  generalize countBy (orVstat s n (fl ||| (if poison then vsPoison else 0))) (oCore n cVecCnt) active = u at hcounted
  have hcore : coreAt (modCore u n (fun c => vecLeaves c e flag d0 d1)) n = vecLeaves (coreAt s n) e flag d0 d1 := by
    rw [coreAt_modCore, coreAt_of_logRegs hcounted]
  rw [settleCore_of_running (by rw [hcore, vecLeaves_st, hst]) (by rw [hcore, allEnded_vecLeaves hsorted, hgo])]
  exact ⟨sameMemory_trans (sameMemory_of_logRegs hcounted) (sameMemory_modCore u n _), hcore⟩

/-! ### What the instructions leave of their core and of memory -/

/-- The instruction at the engine's head has left it. -/
def vecPop (s : State) (n : Nat) (rest : List EngInstr) : State := modCore s n (fun c => { c with vecq := rest })

section
variable {n : Fin 1200} {s : State} {e : EngInstr} {rest : List EngInstr} (hq : (coreAt s n).vecq = e :: rest)
  (hst : (coreAt s n).st = .running) (hgo : allEnded (coreAt s n) = false) (hheld : coreHeld s n = false)
  (hfault : vecFault e = none) (hsorted : Table.sorted (coreAt s n).tasks = true)

include hq hheld hfault in
theorem vectorComplete_eq : vectorComplete n s = vecRun (vecPop s n rest) n e := by
  unfold vectorComplete vecPop
  simp only [hq, hheld, hfault]
  rfl

include hst hgo hsorted in
/-- The end of an instruction that has written its elements. -/
theorem vecEnd_leaves {u : State} (hu : coreAt u n = { coreAt s n with vecq := rest }) (fl active : Nat)
    (flag poison : Bool) (d0 d1 : Option W64) :
    sameMemory u (vecEnd u n e fl active flag poison d0 d1) ∧
      coreAt (vecEnd u n e fl active flag poison d0 d1) n = vecLeaves { coreAt s n with vecq := rest } e flag d0 d1 := by
  have hend := vecEnd_of_sorted (s := u) (n := n) (by rw [hu]; exact hst) (by rw [hu]; exact hgo) (by rw [hu]; exact hsorted)
    e fl active flag poison d0 d1
  rwa [hu] at hend

theorem coreAt_vecPop : coreAt (vecPop s n rest) n = { coreAt s n with vecq := rest } := coreAt_modCore s n _

include hq hheld hfault in
theorem vectorComplete_chain (hcls : (iClass e.word = 6 ∧ iOp e.word = 0) ∨ iClass e.word = 7) :
    vectorComplete n s = chainRun (vecPop s n rest) n e := by
  rw [vectorComplete_eq hq hheld hfault]
  unfold vecRun
  rcases hcls with ⟨h6, h0⟩ | h7
  · simp [h6, h0]
  · simp [h7]

include hst hgo hsorted in
/-- The end of an instruction with its elements written. -/
theorem vecEnd_writeElems (off w : Nat) (es : List Elem) (fl active : Nat) (flag poison : Bool) (d0 d1 : Option W64) :
    let t := vecEnd (writeElems (vecPop s n rest) n off w es) n e fl active flag poison d0 d1
    t.scratch = es.foldl (fun m x => elemPut m (scratchAddr n off) w x.i x.bits) s.scratch ∧
      coreAt t n = vecLeaves { coreAt s n with vecq := rest } e flag d0 d1 := by
  obtain ⟨⟨-, -, -, hscratch, -, -⟩, hcore⟩ := vecEnd_leaves hst hgo hsorted
    ((coreAt_writeElems (vecPop s n rest) n off w es n).trans coreAt_vecPop) fl active flag poison d0 d1
  exact ⟨hscratch.trans (scratch_writeElems _ n off w es), hcore⟩

include hq hst hgo hheld hfault hsorted

/-- VOP or CHAIN with OUTM 2: its value alone (R243). -/
theorem chain_pushes_value (hcls : (iClass e.word = 6 ∧ iOp e.word = 0) ∨ iClass e.word = 7) (hout : vOutm e.word = 2)
    {r : Result} (hr : r = runChain (vecPop s n rest) n e) :
    sameMemory s (vectorComplete n s) ∧ coreAt (vectorComplete n s) n = vecLeaves { coreAt s n with vecq := rest } e
      (chainFlag e r.fl) (r.tap.map (fun x => mkValue x.v r.poison (iTag e.word))) none := by
  rw [vectorComplete_chain hq hheld hfault hcls]
  unfold chainRun
  simp only [hout, if_true, ← hr]
  exact (vecEnd_leaves hst hgo hsorted coreAt_vecPop _ _ _ _ _ _).imp_left (sameMemory_trans (sameMemory_modCore s n _))

/-- VOP or CHAIN with an output region: its converted lanes, a handle, and the value of a tap (R243, R245). -/
theorem chain_writes_lanes (hcls : (iClass e.word = 6 ∧ iOp e.word = 0) ∨ iClass e.word = 7) (hout : vOutm e.word ≠ 2)
    {r : Result} (hr : r = runChain (vecPop s n rest) n e) {w : Nat} (hw : w = outBits (vOfmt e.word)) :
    (vectorComplete n s).scratch = (chainOut e r).es.foldl (fun m x =>
        elemPut m (scratchAddr n (eOff (outHandle e))) w x.i x.bits) s.scratch ∧
      coreAt (vectorComplete n s) n = vecLeaves { coreAt s n with vecq := rest } e (chainFlag e (chainOut e r).fl)
        (some (mkHandle (eOff (outHandle e)) (lineBytes (vecLen e) w) (vOfmt e.word) r.poison (iTag e.word)))
        (r.tap.map (fun x => mkValue x.v r.poison (iTag e.word))) := by
  rw [vectorComplete_chain hq hheld hfault hcls]
  unfold chainRun
  simp only [hout, if_false, ← hr, ← hw]
  exact vecEnd_writeElems hst hgo hsorted _ _ _ _ _ _ _ _ _

/-- VQMX: its elements and its scales (R254). -/
theorem vqmx_completes (hcls : iClass e.word = 6) (hop : iOp e.word = 1) {bs : List MxBlock} {off w : Nat} {p : Bool}
    (hbs : bs = vqmxBlocks (vecPop s n rest) n e) (hoff : off = eOff (engSrc e 2)) (hw : w = fmtBits (vOfmt e.word))
    (hp : p = bs.any (·.poison)) :
    (vectorComplete n s).scratch = (bs.map (·.scale)).foldl (fun m x =>
        elemPut m (scratchAddr n (off + lineBytes (vecLen e) w)) 8 x.i x.bits)
        ((bs.flatMap (·.elems)).foldl (fun m x => elemPut m (scratchAddr n off) w x.i x.bits) s.scratch) ∧
      coreAt (vectorComplete n s) n = vecLeaves { coreAt s n with vecq := rest } e
        ((bs.foldl (fun a (x : MxBlock) => a ||| x.out.2.2) 0).testBit 2)
        (some (mkHandle off (lineBytes (vecLen e) w) (vOfmt e.word) p (iTag e.word)))
        (some (mkHandle (off + lineBytes (vecLen e) w) (lineBytes bs.length 8) 0 p (iTag e.word))) := by
  have hrun : vectorComplete n s = vqmxRun (vecPop s n rest) n e := by
    rw [vectorComplete_eq hq hheld hfault]
    simp [vecRun, hcls, hop]
  have helems := coreAt_writeElems (vecPop s n rest) n off w (bs.flatMap (·.elems)) n
  have hscales := coreAt_writeElems (writeElems (vecPop s n rest) n off w (bs.flatMap (·.elems))) n
    (off + lineBytes (vecLen e) w) 8 (bs.map (·.scale)) n
  obtain ⟨⟨-, -, -, hscratch, -, -⟩, hcore⟩ := vecEnd_leaves hst hgo hsorted
    ((hscales.trans helems).trans coreAt_vecPop) (bs.foldl (fun a (x : MxBlock) => a ||| x.out.2.2) 0) (vecLen e)
    ((bs.foldl (fun a (x : MxBlock) => a ||| x.out.2.2) 0).testBit 2) p
    (some (mkHandle off (lineBytes (vecLen e) w) (vOfmt e.word) p (iTag e.word)))
    (some (mkHandle (off + lineBytes (vecLen e) w) (lineBytes bs.length 8) 0 p (iTag e.word)))
  rw [scratch_writeElems, scratch_writeElems] at hscratch
  rw [hrun]
  unfold vqmxRun
  simp only [← hbs, ← hoff, ← hw, ← hp]
  exact ⟨hscratch, hcore⟩

/-- A permutation: its elements, and with COMPRESS the number of them (R259, R261). -/
theorem perm_completes (hcls : iClass e.word = 8) {ls : List (Nat × Bool)} {r : Perm} {p : Bool}
    (hls : ls = activeLanes (vecPop s n rest) n e) (hr : r = permOf (vecPop s n rest) n e ls)
    (hp : p = r.es.any (·.poison)) :
    (vectorComplete n s).scratch = r.es.foldl (fun m x =>
        elemPut m (scratchAddr n (eOff (outHandle e))) (permBits e) x.i x.bits) s.scratch ∧
      coreAt (vectorComplete n s) n = vecLeaves { coreAt s n with vecq := rest } e
        (if iOp e.word = 2 then ls.isEmpty else r.range)
        (some (mkHandle (eOff (outHandle e)) (lineBytes (if iOp e.word = 2 then ls.length else vecLen e) (permBits e))
          (eFmt (engSrc e 0)) p (iTag e.word)))
        (if iOp e.word = 2 then some (mkValue (w32 ls.length) p (iTag e.word)) else none) := by
  have hrun : vectorComplete n s = permRun (vecPop s n rest) n e := by
    rw [vectorComplete_eq hq hheld hfault]
    exact if_pos hcls
  have hkept : iOp e.word = 2 → r.kept = ls.length := by
    intro hop
    rw [hr]
    simp only [permOf, hop]
    rfl
  rw [hrun]
  unfold permRun
  simp only [← hls, ← hr, ← hp]
  by_cases hop : iOp e.word = 2
  · simp only [hop, hkept hop, decide_true, if_true, Bool.true_and]
    rw [show (ls.length == 0) = ls.isEmpty by cases ls <;> rfl]
    exact vecEnd_writeElems hst hgo hsorted _ _ _ _ _ _ _ _ _
  · simp only [hop, decide_false, Bool.false_eq_true, if_false]
    exact vecEnd_writeElems hst hgo hsorted _ _ _ _ _ _ _ _ _

end

/-! ### Which elements a permutation writes (R260, R261) -/

section
variable (s : State) (n : Nat) (e : EngInstr) {ls : List (Nat × Bool)} {k : Nat} {l : Nat × Bool}

theorem getElem?_zip_range {α : Type} {l : List α} {k : Nat} {a : α} (h : l[k]? = some a) :
    (l.zip (List.range l.length))[k]? = some (a, k) := by
  obtain ⟨hk, -⟩ := List.getElem?_eq_some_iff.mp h
  rw [List.getElem?_zip_eq_some]
  exact ⟨h, List.getElem?_range hk⟩

/-- A list that begins with the images of another has the k-th of them as its k-th entry. -/
theorem getElem?_map_append {α β : Type} {l : List α} {k : Nat} {a : α} (h : l[k]? = some a) (f : α → β) (m : List β) :
    (l.map f ++ m)[k]? = some (f a) := by
  obtain ⟨hk, -⟩ := List.getElem?_eq_some_iff.mp h
  rw [List.getElem?_append_left (by rwa [List.length_map]), List.getElem?_map, h]
  rfl

/-- GATHER: the element that the lane's index names, or the fill value. -/
theorem permGather_getElem? (h : ls[k]? = some l) :
    ∃ x : Elem, (permGather s n e ls).es[k]? = some x ∧ x.i = l.1 ∧
      x.bits = (laneIndex s n e (regionCount (engSrc e 0) (permBits e)) l.1).elim (e.fill.toNat % 2 ^ permBits e)
        (elemGet s n (eOff (engSrc e 0)) (permBits e)) := by
  unfold permGather
  simp only [List.map_map]
  refine ⟨_, getElem?_map_append h _ _, ?_⟩
  simp only [Function.comp_apply]
  cases laneIndex s n e (regionCount (engSrc e 0) (permBits e)) l.1 <;> exact ⟨rfl, rfl⟩

/-- COMPRESS: the active lanes' elements in order. -/
theorem permCompress_getElem? (h : ls[k]? = some l) :
    ∃ x : Elem, (permCompress s n e ls).es[k]? = some x ∧ x.i = k ∧
      x.bits = elemGet s n (eOff (engSrc e 0)) (permBits e) l.1 := by
  unfold permCompress
  simp only [List.getElem?_map, getElem?_zip_range h, Option.map_some]
  exact ⟨_, rfl, rfl, rfl⟩

/-- EXPAND: the region's elements in order, then the fill value. -/
theorem permExpand_getElem? (h : ls[k]? = some l) :
    ∃ x : Elem, (permExpand s n e ls).es[k]? = some x ∧ x.i = l.1 ∧
      x.bits = if k < regionCount (engSrc e 0) (permBits e) then elemGet s n (eOff (engSrc e 0)) (permBits e) k
        else e.fill.toNat % 2 ^ permBits e := by
  unfold permExpand
  refine ⟨_, getElem?_map_append (getElem?_zip_range h) _ _, ?_⟩
  simp only []
  split <;> exact ⟨rfl, rfl⟩

/-- One lane of a SCATTER. -/
def scatterLane (a : Perm) (l : Nat × Bool) : Perm :=
  let p := l.2 || elemPoison s n (eOff (engSrc e 1)) 32 l.1 || elemPoison s n (eOff (engSrc e 0)) (permBits e) l.1
  match laneIndex s n e (regionCount (engSrc e 2) (permBits e)) l.1 with
  | some k => { a with
      es := a.es.filter (fun (y : Elem) => y.i != k) ++
        [{ i := k, bits := elemGet s n (eOff (engSrc e 0)) (permBits e) l.1, poison := p }] }
  | none => { a with range := true }

theorem permScatter_eq (ls : List (Nat × Bool)) : permScatter s n e ls = ls.foldl (scatterLane s n e) { es := [] } := rfl

/-- The elements numbered `k` after a lane with that index: its own alone. -/
theorem scatterLane_same (a : Perm) (h : laneIndex s n e (regionCount (engSrc e 2) (permBits e)) l.1 = some k) :
    ∃ p, (scatterLane s n e a l).es.filter (fun x => x.i == k)
      = [{ i := k, bits := elemGet s n (eOff (engSrc e 0)) (permBits e) l.1, poison := p }] := by
  have hgone : (a.es.filter (fun x => x.i != k)).filter (fun x => x.i == k) = [] := by
    rw [List.filter_eq_nil_iff]
    exact fun x hx => ne_true_of_eq_false (beq_eq_false_iff_ne.mpr (bne_iff_ne.mp (List.mem_filter.mp hx).2))
  unfold scatterLane
  simp only [h, List.filter_append, hgone, List.nil_append]
  exact ⟨_, List.filter_cons_of_pos (beq_self_eq_true k)⟩

theorem filter_of_number_ne {x : Elem} (h : x.i ≠ k) : [x].filter (fun y => y.i == k) = [] :=
  List.filter_cons_of_neg (fun hx => h (eq_of_beq hx))

/-- ... and after a lane with another index: as before. -/
theorem scatterLane_ne (a : Perm) (h : laneIndex s n e (regionCount (engSrc e 2) (permBits e)) l.1 ≠ some k) :
    (scatterLane s n e a l).es.filter (fun x => x.i == k) = a.es.filter (fun x => x.i == k) := by
  unfold scatterLane
  split
  · rename_i j hj
    have hjk : j ≠ k := fun hjk => h (hjk ▸ hj)
    have hsame : ∀ x ∈ a.es, ((x.i == k) && (x.i != j)) = (x.i == k) := fun x _ => by
      by_cases hx : x.i = k
      · simp [hx, hjk.symm]
      · simp [hx]
    simp only [List.filter_append, List.filter_filter, List.filter_congr hsame]
    rw [filter_of_number_ne hjk, List.append_nil]
  · rfl

theorem scatterLanes_ne (b : List (Nat × Bool)) (a : Perm)
    (h : ∀ y ∈ b, laneIndex s n e (regionCount (engSrc e 2) (permBits e)) y.1 ≠ some k) :
    (b.foldl (scatterLane s n e) a).es.filter (fun x => x.i == k) = a.es.filter (fun x => x.i == k) := by
  induction b generalizing a with
  | nil => rfl
  | cons y b ih =>
    rw [List.foldl_cons, ih _ (fun z hz => h z (List.mem_cons_of_mem y hz))]
    exact scatterLane_ne s n e a (h y List.mem_cons_self)

/-- SCATTER: the highest lane with an index writes the only element of that number. -/
theorem permScatter_filter (a b : List (Nat × Bool))
    (hl : laneIndex s n e (regionCount (engSrc e 2) (permBits e)) l.1 = some k)
    (hb : ∀ y ∈ b, laneIndex s n e (regionCount (engSrc e 2) (permBits e)) y.1 ≠ some k) :
    ∃ p, (permScatter s n e (a ++ l :: b)).es.filter (fun x => x.i == k)
      = [{ i := k, bits := elemGet s n (eOff (engSrc e 0)) (permBits e) l.1, poison := p }] := by
  rw [permScatter_eq, List.foldl_append, List.foldl_cons, scatterLanes_ne s n e b _ hb]
  exact scatterLane_same s n e _ hl

end

/-! ### A core whose task table lists a task twice -/

/-- A COMPRESS with FEN of one 32 B line of FP32 elements, of task 0. -/
def compressFen : EngInstr :=
  { task := 0, pc := 0, word := BitVec.ofNat 128 (8 + put 2 4 + put 1 90), srcs := [some (mkHandle 0 32 1 false 0)]
    dsts := [] }

/-- A core of a launch whose task table lists task 0 twice: ENDED, as a read finds it, and READY behind that. -/
def taskListedTwice : Core :=
  { st := .running, launch := some 0, tasks := [(0, {}), (0, { st := .ready })], vecq := [compressFen] }

def shadowedTask : State := { cores := [(0, taskListedTwice)] }

/-- The instruction passes its checks, and not every task that the table lists has ended. -/
theorem shadowedTask_completes : coreAt shadowedTask 0 = taskListedTwice ∧ allEnded taskListedTwice = false ∧
    iClass compressFen.word = 8 ∧ iOp compressFen.word = 2 ∧ vecFault compressFen = none ∧
    coreHeld shadowedTask 0 = false := by
  decide +kernel

/-- The write of its flag leaves task 0 listed no more, as the ENDED task that it reads as; so the core's part ends. -/
theorem vectorComplete_shadowedTask : (coreAt (vectorComplete 0 shadowedTask) 0).st = .loaded := by decide +kernel

theorem exec_vectorComplete (n : Fin 1200) (s : State) :
    exec (.vectorComplete n) s = .next (kept s (vectorComplete n s)) := rfl

/-- Refutes O18: its clauses speak of every state, with no condition that a core's task table is in canonical form
(`Table.sorted`), under which `chain_pushes_value`, `chain_writes_lanes`, `vqmx_completes` and `perm_completes` hold. Where
the table lists a task twice, which no write of a table brings about (`sorted_tset`), the flag of an instruction with FEN
(R251) drops the entry that had not ended, and the core is LOADED (R218) where `vecLeaves` has it RUNNING. -/
theorem not_vectorComplete : ¬ Obligations.VectorComplete := by
  intro h
  obtain ⟨hcore, hgo, hcls, hop, hfault, hheld⟩ := shadowedTask_completes
  obtain ⟨-, -, hperm⟩ := h 0 shadowedTask _ compressFen [] taskListedTwice _ _ hcore.symm rfl rfl hgo hfault hheld
    rfl rfl rfl
  obtain ⟨⟨t, ht, -, hleaves⟩, -⟩ := hperm _ _ _ hcls (by omega) rfl rfl rfl
  rw [exec_vectorComplete] at ht
  injection ht with ht
  have hruns := congrArg Core.st hleaves
  rw [vecLeaves_st, ← ht, coreAt_kept] at hruns
  exact CoreSt.noConfusion (vectorComplete_shadowedTask.symm.trans hruns)

end Sys2Proof.Machine

/-! SUPPORT. The hand-over of DMA, QUERN, FENCE and EVENT descriptors (R268, R288, R378, R380, R385): what is handed over is
the work of its class on the state that has counted it, and what the end of a descriptor leaves of the log and of its ring.
This settles the statement on the engines' descriptors. -/

namespace Sys2Proof.Machine

open Sys2Proof

/-! ### The log's queue -/

/-- Every record in the ingress queue of `s` is still there in `t` (R500). -/
def ingressKept (s t : State) : Prop := s.log.ingress ⊆ t.log.ingress

theorem ingressKept_refl (s : State) : ingressKept s s := List.Subset.refl _

theorem ingressKept_trans {s t u : State} (h : ingressKept s t) (g : ingressKept t u) : ingressKept s u :=
  List.Subset.trans h g

theorem ingressKept_of_log_eq {s t : State} (h : t.log = s.log) : ingressKept s t := by
  unfold ingressKept
  rw [h]
  exact List.Subset.refl _

theorem ingressKept_append (s : State) (r : Bool × Rec) {l : Log} (h : l.ingress = s.log.ingress ++ [r]) :
    ingressKept s { s with log := l } := by
  unfold ingressKept
  rw [h]
  exact List.subset_append_left _ _

theorem ingressKept_logHold (s : State) (r : Rec) (d : Option LogOwner) : ingressKept s (logHold s r d) := by
  unfold logHold
  split
  · exact ingressKept_refl s
  · split
    · exact ingressKept_append s _ rfl
    · split
      · exact ingressKept_append s _ rfl
      · exact ingressKept_refl s

/-- An occurrence or a count adds to the queue, if anything. -/
theorem ingressKept_logStep (n : Nat) (s : State) (r : Option Rec) (off k : Nat) :
    ingressKept s (logStep n s r off k) := by
  induction n generalizing s r off k with
  | zero => exact ingressKept_refl s
  | succ n ih =>
    cases r with
    | none =>
      simp only [logStep]
      split
      · split
        · exact ingressKept_refl s
        · exact ih (regSet s _ _) _ _ _
      · split
        · exact ih (regSet s _ _) _ _ _
        · exact ingressKept_refl s
      · exact ingressKept_refl s
    | some r =>
      simp only [logStep]
      split
      · split
        · refine ingressKept_trans ?_ (ih _ _ _ _)
          exact List.Subset.refl _
        · split
          · split
            · exact ingressKept_append s _ rfl
            · refine ingressKept_trans ?_ (ih _ _ _ _)
              exact List.Subset.refl _
          · split
            · exact ingressKept_append s _ rfl
            · refine ingressKept_trans ?_ (ih _ _ _ _)
              exact List.Subset.refl _
      · exact ingressKept_logHold s r none

theorem ingressKept_count (s : State) (off : Nat) : ingressKept s (count s off) := ingressKept_logStep 6 s none off 1

theorem ingressKept_trace (s : State) (kind unit : Nat) (j : W32) (tag task pc : Nat) (a b : Bool) (d : Nat) :
    ingressKept s (trace s kind unit j tag task pc a b d) := by
  unfold trace
  simp only []
  split
  · exact ingressKept_refl s
  · split
    · exact ingressKept_refl s
    · split
      · exact ingressKept_count s _
      · exact ingressKept_refl s

theorem ingressKept_countIf (s : State) (b : Bool) (off : Nat) : ingressKept s (countIf s b off) := by
  unfold countIf
  split
  · exact ingressKept_count s off
  · exact ingressKept_refl s

theorem ingressKept_writeRecord (s : State) (a : Adm) (x : Done) : ingressKept s (writeRecord s a x) := by
  have htrigger : ∀ u n b k, ingressKept u (ringTrigger u n b k) := fun u n b k => ingressKept_of_log_eq (by simp)
  have hout : ∀ u d l r n y, ingressKept u (setRing (hostWriteOut u d l r) n y) := fun u d l r n y =>
    ingressKept_of_log_eq (by simp)
  unfold writeRecord
  exact ingressKept_trans (ingressKept_trans (ingressKept_trans (hout _ _ _ _ _ _) (ingressKept_trace _ _ _ _ _ _ _ _ _ _))
    (ingressKept_countIf _ _ _)) (htrigger _ _ _ _)

theorem ingressKept_complete (s : State) (did : Nat) (x : Done) : ingressKept s (complete s did x) := by
  have hsettle : ∀ u n, ingressKept u (settleRing u n) := fun u n => ingressKept_of_log_eq (by simp)
  have hdropped : ∀ l, ingressKept s { s with admitted := l } := fun _ => ingressKept_of_log_eq rfl
  unfold complete
  split
  · exact ingressKept_refl s
  · refine ingressKept_trans ?_ (hsettle _ _)
    split
    · exact hdropped _
    · exact ingressKept_trans (hdropped _) (ingressKept_writeRecord _ _ _)

/-- R500: with nothing before it and a general place free, the record of a descriptor's EVENT enters the queue, and the
descriptor is over. -/
theorem logSoftware_of_room {s : State} (r : Rec) (did : Nat) (hwait : s.log.waiting = []) (hroom : generalFill s.log < 256) :
    logSoftware s r (.desc did) = complete { s with log := { s.log with
      ingress := s.log.ingress ++ [(false, { r with time := s.time, cls := 7 })] } } did {} := by
  have hplaced : (s.log.waiting.isEmpty && logRoom s.log) = true := by simp [hwait, logRoom, hroom]
  have hheld : logHold s { r with time := s.time, cls := 7 } (some (.desc did)) = { s with log := { s.log with
      ingress := s.log.ingress ++ [(false, { r with time := s.time, cls := 7 })] } } := by
    unfold logHold
    rw [if_neg (by simp [hwait]), if_pos hroom]
  unfold logSoftware
  simp only [hplaced, hheld, if_true]

/-! ### The ring's fence -/

theorem ringAt_of_rings_eq {s t : State} (h : t.rings = s.rings) (n : Nat) : ringAt t n = ringAt s n := by
  unfold ringAt
  rw [h]

theorem fence_setRing (s : State) {n : Nat} {x : Ring} (hx : x.fence = (ringAt s n).fence) (m : Nat) :
    (ringAt (setRing s n x) m).fence = (ringAt s m).fence := by
  by_cases h : m = n
  · rw [h, ringAt_setRing, hx]
  · rw [ringAt_setRing_ne s n m x h]

theorem fence_ringTrigger (s : State) (n m : Nat) (b : Bool) (k : Nat) :
    (ringAt (ringTrigger s n b k) m).fence = (ringAt s m).fence := by
  have hraise : ∀ u v, ringAt (msixRaise u v) m = ringAt u m := fun u v => ringAt_of_rings_eq (by simp) m
  unfold ringTrigger ringInterrupt
  simp only []
  split
  · rw [hraise]
    exact fence_setRing s (by rfl) m
  · rfl

theorem fence_writeRecord (s : State) (a : Adm) (x : Done) (m : Nat) :
    (ringAt (writeRecord s a x) m).fence = (ringAt s m).fence := by
  have htraced : ∀ u k n j d b o, ringAt (countIf (trace u k n j (data := d)) b o) m = ringAt u m :=
    fun u k n j d b o => ringAt_of_rings_eq (by simp) m
  have hsent : ∀ d l r n, ringAt (hostWriteOut s d l r) n = ringAt s n := fun d l r n => ringAt_of_rings_eq (by simp) n
  unfold writeRecord
  simp only [fence_ringTrigger, htraced]
  rw [fence_setRing _ (by rw [hsent]), hsent]

/-- A completion neither sets a fence nor releases one. -/
theorem fence_complete (s : State) (did : Nat) (x : Done) (m : Nat) :
    (ringAt (complete s did x) m).fence = (ringAt s m).fence := by
  have hsettle : ∀ (u : State) (n : Nat), (ringAt (settleRing u n) m).fence = (ringAt u m).fence := by
    intro u n
    unfold settleRing
    split
    · exact fence_setRing u (by rfl) m
    · rfl
  unfold complete
  split
  · rfl
  · simp only [hsettle]
    split
    · rfl
    · exact fence_writeRecord _ _ _ m

theorem sameMemory_complete (s : State) (did : Nat) (x : Done) : sameMemory s (complete s did x) := by
  simp [sameMemory]

/-! ### The hand-over -/

/-- The checks of a descriptor that names no map of cores leave the state as it is (R381). -/
theorem checkHead_state {s : State} {n : Nat} {x : RDesc} (h2 : rCls x.d ≠ 2) (h3 : rCls x.d ≠ 3) :
    (checkHead s n x).s = s := by
  unfold checkHead
  simp only []
  split
  · rfl
  · split
    · rfl
    · rw [if_neg (by omega)]
      split
      · rfl
      · split <;> rfl

theorem cause_popRing (s : State) (n : Nat) (x : RDesc) : (popRing s n x).cause = s.cause := by
  unfold popRing takeTurn
  split <;> rfl

theorem cause_noted (s : State) (o k n : Nat) (j : W32) (d : Nat) :
    (trace (count s o) k n j (data := d)).cause = s.cause := by
  obtain ⟨_, _, _, ht⟩ := trace_frame' (count s o) k n j 0xFFF 0 0 false false d
  obtain ⟨_, _, hc⟩ := count_logRegs s o
  rw [ht, hc]

section
variable {n : Fin 1024} {s u : State} {x : RDesc} {cores : List Nat} (h : HandsOver s n x u cores)
include h

/-- A descriptor that passes its checks does what its class does, in its own name (R14), once it is counted and traced. -/
theorem handOver_of_passes {sel : Desc → Bool} (act : Checked → RDesc → State) (hsel : sel x.d = true)
    (h2 : rCls x.d ≠ 2) (h3 : rCls x.d ≠ 3) (h6 : rCls x.d ≠ 6) :
    handOver s n sel act = after s (act { s := u, cores := cores } x) := by
  obtain ⟨hchoice, hpass, hcores, hu⟩ := h
  have hstate := checkHead_state (s := popRing s n x) (n := n) h2 h3
  have hcause := cause_noted (popRing s n x) (oRing n rDescCnt) 4 n (dJobtag x.d) (descHead x.d)
  rw [cause_popRing] at hcause
  rw [hstate] at hu
  unfold handOver
  simp only [hchoice, hsel]
  rw [if_neg (by simp)]
  rw [show modRing (takeTurn s n x) n (fun r => { r with queue := r.queue.drop 1 }) = popRing s n x from rfl]
  simp only [hpass, if_neg h6, hstate, caused, hcause, hcores, after, hu]
  rfl

/-- A FENCE is handed over neither counted nor traced (R385). -/
theorem handOver_fence (act : Checked → RDesc → State) (h6 : rCls x.d = 6) :
    handOver s n (fun d => rCls d == 6) act = act { s := popRing s n x, cores := cores } x := by
  obtain ⟨hchoice, hpass, hcores, -⟩ := h
  have hstate := checkHead_state (s := popRing s n x) (n := n) (x := x) (by omega) (by omega)
  unfold handOver
  simp only [hchoice, h6]
  rw [if_neg (by simp)]
  rw [show modRing (takeTurn s n x) n (fun r => { r with queue := r.queue.drop 1 }) = popRing s n x from rfl]
  generalize checkHead (popRing s n x) n x = c at hpass hcores hstate ⊢
  obtain ⟨cs, cf, cc⟩ := c
  simp only at hpass hcores hstate
  subst hpass hcores hstate
  exact if_pos trivial

end

/-! ### The classes -/

theorem sameMemory_modRing (s : State) (n : Nat) (f : Ring → Ring) : sameMemory s (modRing s n f) :=
  ⟨rfl, rfl, rfl, rfl, rfl, rfl⟩

theorem popRing_frame (s : State) (n : Nat) (x : RDesc) : sameMemory s (popRing s n x) ∧
    (ringAt (popRing s n x) n).queue = (ringAt s n).queue.drop 1 := by
  have hturn : sameMemory s (takeTurn s n x) ∧ (takeTurn s n x).rings = s.rings := by
    unfold takeTurn
    split
    · exact ⟨sameMemory_of_logRegs (logRegs_refl s), by rfl⟩
    · exact ⟨⟨rfl, rfl, rfl, rfl, rfl, rfl⟩, by rfl⟩
  obtain ⟨hmem, hrings⟩ := hturn
  refine ⟨sameMemory_trans hmem (sameMemory_modRing _ _ _), ?_⟩
  unfold popRing
  rw [ringAt_modRing, ringAt_of_rings_eq hrings]

theorem askHost_frame (s : State) (addr len : Nat) (who : HostRead) : sameMemory s (askHost s addr len who) ∧
    (askHost s addr len who).dmas = s.dmas ∧ (askHost s addr len who).sluices = s.sluices ∧
    (askHost s addr len who).link.nextTag = s.link.nextTag + 1 := by
  obtain ⟨_, _, h⟩ := hostOut_hostReadOut s addr len s.link.nextTag false
  unfold askHost
  dsimp only
  rw [h]
  exact ⟨⟨rfl, rfl, rfl, rfl, rfl, rfl⟩, rfl, rfl, rfl⟩

/-- R288: the transfer is the sluice's last; a host source is asked for at once, and no channel takes part. -/
theorem startSluice_frame (s : State) (did : Nat) (d : Desc) : (startSluice s did d).dmas = s.dmas ∧
    (startSluice s did d).sluices = s.sluices ++ [{ id := s.nextId, did := did, d := d, tag := s.link.nextTag }] := by
  unfold startSluice
  simp only []
  split
  · obtain ⟨-, hdmas, hsluices, -⟩ := askHost_frame { s with
      nextId := s.nextId + 1
      sluices := s.sluices ++ [{ id := s.nextId, did := did, d := d, tag := s.link.nextTag }] }
      d.w1.toNat (dBlklen d) (.sluice s.nextId)
    exact ⟨hdmas, hsluices⟩
  · exact ⟨rfl, rfl⟩

/-- R385: with no earlier descriptor left, the ring goes on, and the fence has its own record. -/
theorem fenceRelease_of_first {s : State} {n : Fin 1024} {did : Nat} (hfence : (ringAt s n).fence = some did)
    (hfirst : ∀ a ∈ s.admitted, a.ring = n.val → did ≤ a.did) :
    fenceRelease n s = complete (modRing s n (fun r => { r with fence := none })) did {} := by
  have hnone : s.admitted.any (fun a => a.ring == n.val && decide (a.did < did)) = false := by
    rw [List.any_eq_false]
    intro a ha
    have hle := hfirst a ha
    simp only [Bool.and_eq_true, beq_iff_eq, decide_eq_true_eq, not_and, Nat.not_lt]
    exact hle
  unfold fenceRelease
  simp only [hfence, hnone]
  rfl

theorem fenceRelease_of_earlier {s : State} {n : Fin 1024} {did : Nat} (hfence : (ringAt s n).fence = some did)
    (hearlier : ∃ a ∈ s.admitted, a.ring = n.val ∧ a.did < did) : fenceRelease n s = s := by
  have hsome : s.admitted.any (fun a => a.ring == n.val && decide (a.did < did)) = true := by
    obtain ⟨a, ha, hring, hlt⟩ := hearlier
    exact List.any_eq_true.mpr ⟨a, ha, by simp [hring, hlt]⟩
  unfold fenceRelease
  simp only [hfence, hsome]
  rfl

section
variable {n : Fin 1024} {s u : State} {x : RDesc} {cores : List Nat} (h : HandsOver s n x u cores)
include h

theorem dma_of_passes (hcls : rCls x.d = 4) : dma n s = after s (if sluiceQualifies u (engineDesc x.d)
    then startSluice u x.did (engineDesc x.d)
    else modDma u (dTch (engineDesc x.d)) (fun ch => { ch with
      pending := ch.pending ++ [{ origin := .ring x.did, head := some (engineDesc x.d), auth := x.auth }] })) :=
  handOver_of_passes h (sel := fun d => rCls d == 4) _ (beq_iff_eq.mpr hcls) (by omega) (by omega) (by omega)

theorem quern_of_passes (hcls : rCls x.d = 5) :
    quern n s = after s (if qMask x.d = 0
      then arriveJob (complete { u with
        nextId := u.nextId + 1, jobs := u.jobs ++ [{ jobOf u.nextId x with mcast := groupOfNew u (qMcast x.d) }] } x.did {})
        { jobOf u.nextId x with mcast := groupOfNew u (qMcast x.d) }
      else { u with
        nextId := u.nextId + 1, jobs := u.jobs ++ [{ jobOf u.nextId x with mcast := groupOfNew u (qMcast x.d) }] }) :=
  handOver_of_passes h (sel := fun d => rCls d == 5) _ (beq_iff_eq.mpr hcls) (by omega) (by omega) (by omega)

theorem eventDescriptor_of_passes (hcls : rCls x.d = 8) : eventDescriptor n s = after s (logSoftware u
    { source := 13, kind := fld x.d.w0 23 16, sub := fld x.d.w0 15 8, unit := n.val, jobtag := dJobtag x.d,
      payload := BitVec.ofNat 256 (x.d.w1.toNat + put x.d.w2.toNat 64) } (.desc x.did)) :=
  handOver_of_passes h (sel := fun d => rCls d == 8) _ (beq_iff_eq.mpr hcls) (by omega) (by omega) (by omega)

end

/-! ### The statement -/

/-- Settles O21: each class by what it does on the state that has counted its descriptor; the FENCE by its ring. -/
theorem engineDescriptors : Obligations.EngineDescriptors := by
  unfold Obligations.EngineDescriptors
  refine ⟨fun n s u x cores h => ⟨?_, ?_, ?_, ?_, ?_, ?_⟩, fun n s did hfence => ⟨fun hfirst => ?_, fun hearlier => ?_⟩⟩
  · intro hcls hq
    have hgo : dma n s = after s (modDma u (dTch (engineDesc x.d)) (fun ch => { ch with
        pending := ch.pending ++ [{ origin := .ring x.did, head := some (engineDesc x.d), auth := x.auth }] })) :=
      (dma_of_passes h hcls).trans (congrArg (after s) (if_neg (ne_true_of_eq_false hq)))
    have hch := dmaAt_modDma u (dTch (engineDesc x.d)) (fun ch => { ch with
      pending := ch.pending ++ [{ origin := .ring x.did, head := some (engineDesc x.d), auth := x.auth }] })
    exact ⟨_, ran_of_eq hgo, congrArg DmaCh.pending hch⟩
  · intro hcls hq
    have hgo : dma n s = after s (startSluice u x.did (engineDesc x.d)) :=
      (dma_of_passes h hcls).trans (congrArg (after s) (if_pos hq))
    exact ⟨_, ran_of_eq hgo, startSluice_frame u x.did (engineDesc x.d)⟩
  · intro hcls hmask
    have hgo : quern n s = after s { u with
        nextId := u.nextId + 1, jobs := u.jobs ++ [{ jobOf u.nextId x with mcast := groupOfNew u (qMcast x.d) }] } :=
      (quern_of_passes h hcls).trans (congrArg (after s) (if_neg hmask))
    exact ⟨_, ran_of_eq hgo, rfl, rfl, rfl, rfl, rfl, rfl, rfl, rfl⟩
  · intro hcls hmask harr
    let j : Job := { jobOf u.nextId x with mcast := groupOfNew u (qMcast x.d) }
    have hnone : j.arr = none := if_neg (ne_true_of_eq_false harr)
    have hgo : quern n s = after s (dropJob (complete { u with nextId := u.nextId + 1, jobs := u.jobs ++ [j] } x.did {}) j.id) :=
      (quern_of_passes h hcls).trans (congrArg (after s) ((if_pos hmask).trans (arriveJob_of_none hnone)))
    exact ⟨_, ran_of_eq hgo, admAt_complete _ x.did {}, sameMemory_complete _ x.did {}⟩
  · intro hcls
    obtain ⟨hmem, hqueue⟩ := popRing_frame s n x
    have hring := ringAt_modRing (popRing s n x) n (fun r => { r with fence := some x.did })
    exact ⟨_, ran_of_eq (handOver_fence h _ hcls), congrArg Ring.fence hring, (congrArg Ring.queue hring).trans hqueue,
      sameMemory_trans hmem (sameMemory_modRing _ n (fun r => { r with fence := some x.did }))⟩
  · intro hcls hwait hroom
    have hgo := (eventDescriptor_of_passes h hcls).trans (congrArg (after s) (logSoftware_of_room _ x.did hwait hroom))
    exact ⟨_, ran_of_eq hgo, admAt_complete _ x.did {}, sameMemory_complete _ x.did {},
      ingressKept_complete _ x.did {} (List.mem_append_right _ (List.mem_singleton.mpr rfl))⟩
  · have hnone := congrArg Ring.fence (ringAt_modRing s n (fun r => { r with fence := none }))
    exact ⟨_, ran_of_eq (fenceRelease_of_first hfence hfirst), (fence_complete _ did {} n).trans hnone,
      admAt_complete _ did {}, sameMemory_trans (sameMemory_modRing s n _) (sameMemory_complete _ did {})⟩
  · exact ran_of_eq (fenceRelease_of_earlier hfence hearlier)

end Sys2Proof.Machine

/-! SUPPORT. The DMA channels (R265–R287): what the work beside a channel leaves of it and of the memory, and each of the
channel's operations by what it makes of the channel. -/

namespace Sys2Proof.Machine

open Sys2Proof

/-! ### Work beside the channels -/

/-- The memory and every channel are as before. -/
def besideDma (s t : State) : Prop := sameMemory s t ∧ t.dmas = s.dmas

theorem dmaAt_of_dmas_eq {s t : State} (h : t.dmas = s.dmas) (g : Nat) : dmaAt t g = dmaAt s g := by
  unfold dmaAt
  rw [h]

theorem sameMemory_refl (s : State) : sameMemory s s := ⟨rfl, rfl, rfl, rfl, rfl, rfl⟩

theorem besideDma_refl (s : State) : besideDma s s := ⟨sameMemory_refl s, rfl⟩

theorem besideDma_trans {s t u : State} (h : besideDma s t) (k : besideDma t u) : besideDma s u :=
  ⟨sameMemory_trans h.1 k.1, k.2.trans h.2⟩

theorem dmaAt_besideDma {s t : State} (h : besideDma s t) (g : Nat) : dmaAt t g = dmaAt s g := dmaAt_of_dmas_eq h.2 g

theorem besideDma_of_logRegs {s t : State} (h : logRegs s t) : besideDma s t := by
  obtain ⟨_, _, rfl⟩ := h
  exact besideDma_refl s

theorem besideDma_of_coreWork {s t : State} (h : coreWork s t) : besideDma s t := by
  obtain ⟨_, _, _, _, _, _, _, _, _, _, _, _, rfl⟩ := h
  exact besideDma_refl s

theorem besideDma_count (s : State) (off : Nat) : besideDma s (count s off) := besideDma_of_logRegs (count_logRegs s off)

theorem besideDma_countBy (s : State) (off k : Nat) : besideDma s (countBy s off k) :=
  besideDma_of_logRegs (countBy_logRegs s off k)

theorem besideDma_trace (s : State) (kind unit : Nat) (j : W32) (tag task pc : Nat) (a b : Bool) (d : Nat) :
    besideDma s (trace s kind unit j tag task pc a b d) := by
  obtain ⟨_, _, _, h⟩ := trace_frame' s kind unit j tag task pc a b d
  rw [h]
  exact besideDma_refl s

theorem besideDma_dmaEvent (s : State) (g cls kind sub payload : Nat) : besideDma s (dmaEvent s g cls kind sub payload) :=
  besideDma_of_logRegs (event_logRegs s _ _ _ _ _ _ _ _)

theorem besideDma_sealedRefuse (s : State) (kind unit da : Nat) (j : W32) (tag : Nat) :
    besideDma s (sealedRefuse s kind unit da j tag) :=
  besideDma_of_logRegs (logRegs_sealedRefuse s kind unit da j tag)

theorem besideDma_complete (s : State) (did : Nat) (x : Done) : besideDma s (complete s did x) :=
  ⟨sameMemory_complete s did x, by simp⟩

theorem besideDma_modCore (s : State) (n : Nat) (f : Core → Core) : besideDma s (modCore s n f) := besideDma_refl s

theorem besideDma_fold {α : Type} (f : State → α → State) (h : ∀ s x, besideDma s (f s x)) (l : List α) (s : State) :
    besideDma s (l.foldl f s) := by
  induction l generalizing s with
  | nil => exact besideDma_refl s
  | cons x r ih => exact besideDma_trans (h s x) (ih _)

theorem besideDma_modStack (s : State) (k : Nat) (f : Stack → Stack) : besideDma s (modStack s k f) := besideDma_refl s

theorem besideDma_dropTickets (s : State) (b : Bool) (who : Nat) : besideDma s (dropTickets s b who) := by
  unfold dropTickets
  exact besideDma_fold _ (fun s (p : Nat × Stack) => besideDma_modStack s p.1 _) _ s

theorem besideDma_chanAsk (s : State) (g da len : Nat) (w : Bool) : besideDma s (chanAsk s g da len w) := by
  refine besideDma_fold _ (fun s p => ?_) _ s
  split
  · simp only []
    split
    · exact besideDma_refl s
    · exact besideDma_refl s
  · exact besideDma_refl s

theorem dmas_memWork {s t : State} (h : memWork s t) : t.dmas = s.dmas := by
  obtain ⟨-, -, -, -, -, hdmas, -⟩ := memWork_shield h
  exact hdmas

/-- R14, R284: a read by a channel leaves every channel as it is. -/
theorem dmas_chanRead (s : State) (g da len : Nat) : (chanRead s g da len).2.2.dmas = s.dmas :=
  (dmas_memWork (memWork_readAs _ _ _ _ _)).trans (besideDma_dropTickets s true g).2

theorem dmas_fetchDesc (s : State) (g da : Nat) : (fetchDesc s g da).2.dmas = s.dmas := by
  unfold fetchDesc
  split
  · rfl
  · split
    · exact (besideDma_sealedRefuse _ _ _ _ _ _).2
    · exact dmas_chanRead s g da 64

theorem dmas_fillOf (s : State) (g : Nat) (cur : DmaCur) : (fillOf s g cur).2.dmas = s.dmas := by
  unfold fillOf
  simp only []
  split
  · rfl
  · split
    · rfl
    · split
      · rfl
      · split <;> exact dmas_chanRead s g _ _

/-- A write in the name of a descriptor leaves every channel as it is. -/
theorem dmas_causedWrite (s : State) (j : W32) (tag : Nat) (f : State → State) (h : ∀ u, (f u).dmas = u.dmas) :
    (caused s j tag f).dmas = s.dmas := h _

theorem dmas_quietWrite (s : State) (g da : Nat) (bs : List Byte) : (quietWrite s g da bs).dmas = s.dmas := by
  have hwrite : ∀ u port a l, (daWrite u port a bs l).dmas = u.dmas := fun u port a l => dmas_memWork (memWork_daWrite u port a bs l)
  unfold quietWrite
  split
  · simp only []
    split
    · rfl
    · exact dmas_causedWrite s _ _ _ (fun u => hwrite u _ _ _)
  · exact hwrite s _ _ _

theorem sameMemory_setDma (s : State) (g : Nat) (x : DmaCh) : sameMemory s (setDma s g x) := sameMemory_refl s

theorem sameMemory_modDma (s : State) (g : Nat) (f : DmaCh → DmaCh) : sameMemory s (modDma s g f) := sameMemory_refl s

/-! ### The end of a chain -/

/-- A chain that ends leaves its channel idle, with its status; what else the end does is beside the channels. -/
theorem endChain_besideDma (s : State) (g status dflags done : Nat) :
    besideDma (setDma s g { dmaAt s g with
      st := .idle, start := none, cur := none, fetching := none, ahead := none, got := none, links := 0, chainLen := 0
      arrivals := [], halting := none, ending := none, aborting := false, lastStatus := status, tag := 0 })
      (endChain s g status dflags done) := by
  unfold endChain
  simp only []
  split
  · exact besideDma_complete _ _ _
  · exact besideDma_trans (besideDma_modCore _ _ _) (besideDma_of_coreWork (coreWork_settleCore _ _))
  · exact besideDma_refl _

theorem dmaAt_endChain (s : State) (g status dflags done : Nat) : dmaAt (endChain s g status dflags done) g = { dmaAt s g with
      st := .idle, start := none, cur := none, fetching := none, ahead := none, got := none, links := 0, chainLen := 0
      arrivals := [], halting := none, ending := none, aborting := false, lastStatus := status, tag := 0 } := by
  rw [dmaAt_besideDma (endChain_besideDma s g status dflags done), dmaAt_setDma]

theorem sameMemory_endChain (s : State) (g status dflags done : Nat) : sameMemory s (endChain s g status dflags done) :=
  sameMemory_trans (sameMemory_setDma s g _) (endChain_besideDma s g status dflags done).1

theorem admAt_endChain {s : State} {g did : Nat} (h : (dmaAt s g).start.map (·.origin) = some (.ring did))
    (status dflags done : Nat) : admAt (endChain s g status dflags done) did = none := by
  unfold endChain
  simp only [h]
  exact admAt_complete _ did _

theorem dmas_writeBack (s : State) (g : Nat) (cur : DmaCur) (status : Nat) : (writeBack s g cur status).dmas = s.dmas := by
  unfold writeBack
  split
  · split
    · exact dmas_quietWrite s g _ _
    · rfl
  · rfl

theorem dmas_endDesc (s : State) (g : Nat) (cur : DmaCur) (status : Nat) : (endDesc s g cur status).dmas = s.dmas :=
  (besideDma_trace _ _ _ _ _ _ _ _ _ _).2.trans (dmas_writeBack s g cur status)

/-- A descriptor without a write-back ends beside the channels. -/
theorem besideDma_endDesc {cur : DmaCur} (hwb : dWb cur.d = false) (s : State) (g status : Nat) :
    besideDma s (endDesc s g cur status) := by
  have hback : writeBack s g cur status = s := by
    unfold writeBack
    split
    · rw [hwb]
      exact if_neg (by simp)
    · rfl
  unfold endDesc
  rw [hback]
  exact besideDma_trace _ _ _ _ _ _ _ _ _ _

/-- The last descriptor of a chain, or one after which the chain does not go on, ends the chain. -/
theorem finishNow_ends {s : State} {g : Nat} {cur : DmaCur} (status : Nat) {follow : Bool} (hcur : (dmaAt s g).cur = some cur)
    (hlast : (follow && dLink cur.d) = false) :
    finishNow s g status follow = endChain (endDesc s g cur status) g status cur.dflags.toNat cur.done := by
  unfold finishNow
  simp only [hcur, hlast]
  rfl

theorem finishNow_none {s : State} {g : Nat} (status : Nat) (follow : Bool) (hcur : (dmaAt s g).cur = none) :
    finishNow s g status follow = endChain s g status 0 0 := by
  unfold finishNow
  simp only [hcur]

theorem finishDesc_none {s : State} {g : Nat} (status : Nat) (follow : Bool) (hcur : (dmaAt s g).cur = none) :
    finishDesc s g status follow = endChain s g status 0 0 := by
  unfold finishDesc
  simp only [hcur]
  exact finishNow_none status follow hcur

theorem finishDesc_waits {s : State} {g : Nat} {cur : DmaCur} (status : Nat) (follow : Bool)
    (hcur : (dmaAt s g).cur = some cur) (hwaits : wbWaits s cur = true) :
    finishDesc s g status follow = modDma (chanAsk s g ((cur.da.getD 0 + 60) % 2 ^ 48) 4 true) g
      (fun ch => { ch with ending := some (status, follow) }) := by
  unfold finishDesc
  simp only [hcur, hwaits]
  rfl

theorem finishDesc_now {s : State} {g : Nat} {cur : DmaCur} (status : Nat) (follow : Bool)
    (hcur : (dmaAt s g).cur = some cur) (hwaits : wbWaits s cur = false) :
    finishDesc s g status follow = finishNow s g status follow := by
  unfold finishDesc
  simp only [hcur, hwaits]
  rfl

/-- The chain ends with a status, whether or not a descriptor is in hand, once no status word waits. -/
theorem dmaAt_finishDesc_ends {s : State} {g : Nat} (status : Nat) {follow : Bool}
    (hwaits : ∀ x, (dmaAt s g).cur = some x → wbWaits s x = false)
    (hlast : ∀ x, (dmaAt s g).cur = some x → (follow && dLink x.d) = false) :
    (dmaAt (finishDesc s g status follow) g).st = .idle ∧ (dmaAt (finishDesc s g status follow) g).lastStatus = status := by
  cases hcur : (dmaAt s g).cur with
  | none =>
    rw [finishDesc_none status follow hcur, dmaAt_endChain]
    exact ⟨rfl, rfl⟩
  | some x =>
    rw [finishDesc_now status follow hcur (hwaits x hcur), finishNow_ends status hcur (hlast x hcur), dmaAt_endChain]
    exact ⟨rfl, rfl⟩

/-! ### Starts and fetches -/

theorem notLogReg_of_small {p : Nat} (h : p < 0xD00000) : notLogReg p :=
  ⟨by unfold oCoalCnt; omega, by unfold oTraceDrop; omega, fun c => by unfold oLogDrop; omega⟩

theorem notLogReg_oDma (g : Fin 64) {o : Nat} (ho : o < 0x100) : notLogReg (oDma g o) :=
  notLogReg_of_small (by unfold oDma; omega)

theorem dmaStartTaken_takes {s : State} {g : Fin 64} {p : Start} {rest : List Start} (hpending : (dmaAt s g).pending = p :: rest)
    (hidle : (dmaAt s g).st = .idle) (hmay : dmaMayStart s = true) (hheld : dmaHeld s g = false) :
    dmaStartTaken g s = setDma s g { dmaAt s g with
      st := .fetch, pending := rest, start := some p, cur := none, links := 1, chainLen := 0
      fetching := if p.head.isSome then none else some p.da, ahead := none, got := none, aborting := false
      halting := none, tag := match p.head with | some d => dJobtag d | none => 0 } := by
  unfold dmaStartTaken
  simp only [hpending]
  exact if_neg (by simp [hidle, hmay, hheld])

/-- R471: a channel whose clock is held takes no start and issues no block. -/
theorem dmaStartTaken_held {s : State} {g : Fin 64} (hheld : dmaHeld s g = true) : dmaStartTaken g s = s := by
  unfold dmaStartTaken
  simp only []
  split
  · rfl
  · exact if_pos (Or.inr (Or.inr hheld))

theorem dmaBlockIssue_held {s : State} {g : Fin 64} (hheld : dmaHeld s g = true) : dmaBlockIssue g s = s := by
  unfold dmaBlockIssue
  simp only []
  split
  · rfl
  · exact if_pos (Or.inr (Or.inl hheld))

/-- R269, R305: a descriptor that passes the check runs. -/
theorem takeDesc_runs {s : State} {g : Fin 64} {d : Desc} (da : Option Nat)
    (hgood : dmaBad s g d (decide ((dmaAt s g).links ≤ 1)) = false) :
    ∃ auth, (da = none → auth = (dmaAt s g).start.bind (·.auth)) ∧ sameMemory s (takeDesc s g d da) ∧
      dmaAt (takeDesc s g d da) g = { dmaAt s g with
        st := .run, tag := dJobtag d, got := none, fetching := none
        chainLen := if (dmaAt s g).links ≤ 1 then dChainlen d else (dmaAt s g).chainLen
        cur := some { d := d, da := da, pattern := regGet s (oDma g dFill), auth := auth } } := by
  let u := modDma s g (fun ch => { ch with tag := dJobtag d, got := none })
  let t := trace u 8 g (dJobtag d) (chainTag (dmaAt u g)) (data := descHead d)
  have hchan : dmaAt u g = { dmaAt s g with tag := dJobtag d, got := none } := dmaAt_modDma s g _
  have hgood' : dmaBad u g d (decide ((dmaAt u g).links ≤ 1)) = false := by
    rw [hchan]
    exact hgood
  have htake : takeDesc s g d da = setDma t g { dmaAt u g with
      st := .run, fetching := none
      chainLen := if decide ((dmaAt u g).links ≤ 1) then dChainlen d else (dmaAt u g).chainLen
      cur := some { d := d, da := da, pattern := regGet t (oDma g dFill), auth := fetchAuth t (dmaAt u g) da } } := by
    unfold takeDesc
    exact if_neg (ne_true_of_eq_false hgood')
  have hfill : regGet t (oDma g dFill) = regGet s (oDma g dFill) :=
    regGet_trace u _ _ _ _ _ _ _ _ _ _ (notLogReg_oDma g (by decide))
  refine ⟨fetchAuth t (dmaAt u g) da, ?_, ?_, ?_⟩
  · rintro rfl
    rw [hchan]
    rfl
  · rw [htake]
    exact sameMemory_trans (besideDma_trace u _ _ _ _ _ _ _ _ _).1 (sameMemory_setDma t g _)
  · rw [htake, dmaAt_setDma, hfill, hchan]
    simp only [decide_eq_true_eq]

/-- R269: a ring's head that fails the check ends its chain. -/
theorem takeDesc_refused {s : State} {g : Fin 64} {d : Desc} {did : Nat} (da : Option Nat) (hlinks : (dmaAt s g).links ≤ 1)
    (hbad : dmaBad s g d true = true) (horigin : (dmaAt s g).start.map (·.origin) = some (.ring did)) :
    takeDesc s g d da = endChain (modDma s g (fun ch => { ch with tag := dJobtag d, got := none })) g 3 0 0 := by
  have hchan : dmaAt (modDma s g (fun ch => { ch with tag := dJobtag d, got := none })) g
      = { dmaAt s g with tag := dJobtag d, got := none } := dmaAt_modDma s g _
  unfold takeDesc
  simp only [hchan, hlinks, decide_true, if_true, horigin]
  exact if_pos hbad

/-- R281, R283: what was fetched halts the channel with its cause. -/
theorem dmaAt_takeFetched_fault {s : State} {g da c : Nat} (hhalting : (dmaAt s g).halting = none) :
    (dmaAt (takeFetched s g da (.fault c)) g).halting = some c := by
  unfold takeFetched haltDma
  rw [dmaAt_modDma, dmaAt_modDma]
  simp only [hhalting]

section
variable {s : State} {g : Fin 64} (hst : (dmaAt s g).st = .fetch) (hhalting : (dmaAt s g).halting = none)
  (haborting : (dmaAt s g).aborting = false) (hending : (dmaAt s g).ending = none)
include hst hhalting haborting hending

/-- A head that its start copied is taken. -/
theorem descriptorFetchResponse_head {p : Start} {d : Desc} (hfetching : (dmaAt s g).fetching = none)
    (hstart : (dmaAt s g).start = some p) (hhead : p.head = some d) :
    descriptorFetchResponse g s = takeDesc s g d none := by
  unfold descriptorFetchResponse
  simp only [hst, hhalting, haborting, hending, hfetching, hstart, Option.bind_some, hhead]
  exact if_neg (by simp)

/-- A descriptor whose bytes do not wait is fetched and taken. -/
theorem descriptorFetchResponse_fetch {da : Nat} (hfetching : (dmaAt s g).fetching = some da) (hgot : (dmaAt s g).got = none)
    (hready : rangeError s da 64 = true ∨ rangeWaits s da 64 = false) :
    descriptorFetchResponse g s = takeFetched (fetchDesc s g da).2 g da (fetchDesc s g da).1 := by
  have hnow : (!rangeError s da 64 && rangeWaits s da 64) = false := by
    rcases hready with h | h <;> simp [h]
  unfold descriptorFetchResponse
  simp only [hst, hhalting, haborting, hending, hfetching, hgot, hnow]
  exact if_neg (by simp)

end

/-! ### Blocks -/

theorem settleAbort_of_not_aborting {s : State} {g : Nat} (h : (dmaAt s g).aborting = false) : settleAbort s g = s := by
  unfold settleAbort
  simp only [h]
  exact if_neg (by simp)

/-- R281: the fetch of NEXT that starts ahead is all that `startAhead` changes. -/
theorem startAhead_frame (s : State) (g : Nat) : sameMemory s (startAhead s g) ∧ (startAhead s g).link = s.link ∧
    (dmaAt (startAhead s g) g).cur = (dmaAt s g).cur := by
  unfold startAhead
  simp only []
  split
  · exact ⟨sameMemory_refl s, rfl, rfl⟩
  · split
    · exact ⟨sameMemory_setDma s g _, rfl, by rw [dmaAt_setDma]⟩
    · exact ⟨sameMemory_refl s, rfl, rfl⟩

theorem noteBytes_frame (s : State) (g n : Nat) : sameMemory s (noteBytes s g n) ∧
    ∃ r, dmaAt (noteBytes s g n) g = { dmaAt s g with byteRem := r } := by
  have hcount := fun k => besideDma_countBy s (oDma g dBytes) k
  unfold noteBytes
  refine ⟨sameMemory_trans (hcount _).1 (sameMemory_modDma _ g _), ((dmaAt s g).byteRem + n) % 32, ?_⟩
  rw [dmaAt_modDma, dmaAt_besideDma (hcount _)]

/-- A block without an arrival of its own, of a channel that no ABORT waits for, is counted in the descriptor in hand. -/
theorem blockDone_counts {s : State} {g dst len : Nat} {cur : DmaCur} (hcur : (dmaAt s g).cur = some cur)
    (harr : dArr cur.d = false) (haborting : (dmaAt s g).aborting = false) :
    blockDone s g dst len = modDma s g (fun ch => { ch with
      cur := some { cur with
        block := cur.block + 1, done := cur.done + 1, bytes := cur.bytes + len, reading := none, passed := false } }) := by
  unfold blockDone
  simp only [hcur, harr, Bool.false_and]
  refine settleAbort_of_not_aborting ?_
  simp only [Bool.false_eq_true, if_false, dmaAt_modDma, haborting]

/-- R283: with no unit at fault, all of the bytes are written in the name of the descriptor in hand. -/
theorem blockWrite_good {s : State} {g dst : Nat} {cur : DmaCur} {bs : List Byte} (hdas : dDas cur.d = false)
    (hgood : goodPrefix s cur.auth true (accessPieces s dst bs.length) = (bs.length, none)) :
    blockWrite s g cur dst bs = (noteBytes (caused s (dmaAt s g).tag (chainTag (dmaAt s g))
      (fun v => daWrite (dropTickets v true g) (dmaPort g) dst bs [])) g bs.length, bs.length, none) := by
  unfold blockWrite
  simp only [hdas, hgood, List.take_length]
  rfl

/-- The bytes of a copied block that meets no fault: they are written, and the block is counted. -/
theorem blockData_copies {s : State} {g dst src : Nat} {cur : DmaCur} {bs : List Byte} (hcur : (dmaAt s g).cur = some cur)
    (hwid : dSwid cur.d = dDwid cur.d) (hdas : dDas cur.d = false) (harr : dArr cur.d = false)
    (haborting : (dmaAt s g).aborting = false)
    (hgood : goodPrefix s cur.auth true (accessPieces s dst bs.length) = (bs.length, none)) :
    sameMemory (caused s (dmaAt s g).tag (chainTag (dmaAt s g)) (fun v => daWrite (dropTickets v true g) (dmaPort g) dst bs []))
      (blockData s g cur dst src bs none) ∧
    (dmaAt (blockData s g cur dst src bs none) g).cur = some { cur with
      block := cur.block + 1, done := cur.done + 1, bytes := cur.bytes + bs.length, reading := none, passed := false } := by
  let w := caused s (dmaAt s g).tag (chainTag (dmaAt s g)) (fun v => daWrite (dropTickets v true g) (dmaPort g) dst bs [])
  have hconv : convBytes cur.d bs = (bs, false) := by
    unfold convBytes
    exact if_pos hwid
  have hdmas : w.dmas = s.dmas := dmas_causedWrite s _ _ _ (fun u =>
    (dmas_memWork (memWork_daWrite _ _ _ _ _)).trans (besideDma_dropTickets u true g).2)
  obtain ⟨hmem, r, hchan⟩ := noteBytes_frame w g bs.length
  rw [dmaAt_of_dmas_eq hdmas] at hchan
  have hdata : blockData s g cur dst src bs none = blockDone (noteBytes w g bs.length) g dst bs.length := by
    unfold blockData
    simp only [hconv, blockWrite_good hdas hgood]
    rfl
  rw [hdata, blockDone_counts (cur := cur) (by rw [hchan]; exact hcur) harr (by rw [hchan]; exact haborting)]
  exact ⟨sameMemory_trans hmem (sameMemory_modDma _ g _), by rw [dmaAt_modDma]⟩

theorem blockAddr_oob {d : Desc} (hs : dIdxs d = false) (hd : dIdxd d = false) (b idx : Nat) : (blockAddr d b idx).oob = false := by
  unfold blockAddr
  simp only [hs, hd]
  rfl

theorem nextBlock_unindexed {s : State} {g : Nat} {cur : DmaCur} (hs : dIdxs cur.d = false) (hd : dIdxd cur.d = false) :
    nextBlock s g cur = startAhead (issueBlock s g cur cur.block (blockAddr cur.d cur.block 0)) g := by
  unfold nextBlock
  simp only [hs, hd]
  rfl

theorem arrivalBad_of_no_arrival {d : Desc} (h : dArr d = false) (dst len : Nat) : arrivalBad d dst len = false := by
  unfold arrivalBad
  simp only [h, Bool.false_and]

section
variable {s : State} {g : Nat} {cur : DmaCur} {b : Nat} {a : BlockAddr} (hoob : a.oob = false)
  (hdas : dDas cur.d = false) (harr : dArr cur.d = false) (hdst : rangeWaits s a.dst (blockOut cur.d) true = false)
include hoob hdas harr hdst

/-- R270: a block between device addresses that do not wait: the bytes before the first fault are read. -/
theorem issueBlock_device (hsas : dSas cur.d = false) (hsrc : rangeWaits s a.src (dBlklen cur.d) = false)
    (hgood : goodSource s cur.auth (fun k => dstWithin s k a.dst (blockOut cur.d) false)
      (accessPieces s a.src (dBlklen cur.d)) = (dBlklen cur.d, none))
    (hclean : cleanBytes a.src (chanRead s g a.src (dBlklen cur.d)).2.1 (dBlklen cur.d) = dBlklen cur.d) :
    issueBlock s g cur b a = blockData (chanRead s g a.src (dBlklen cur.d)).2.2 g cur a.dst a.src
      ((chanRead s g a.src (dBlklen cur.d)).1.take (dBlklen cur.d)) none := by
  unfold issueBlock
  simp only [hoob, hdas, hsas, hdst, hsrc, arrivalBad_of_no_arrival harr, hgood, hclean, Nat.lt_irrefl]
  rfl

/-- R343: a block from the host asks for its source. -/
theorem issueBlock_host (hsas : dSas cur.d = true) (hlink : linkCarries s = true) :
    issueBlock s g cur b a = modDma (askHost s a.src (dBlklen cur.d) (.dma g)) g (fun ch => { ch with
      cur := some { cur with reading := some s.link.nextTag, src := a.src, dst := a.dst } }) := by
  unfold issueBlock
  simp only [hoob, hdas, hsas, hlink, hdst, arrivalBad_of_no_arrival harr]
  rfl

end

section
variable {s : State} {g : Fin 64} {cur : DmaCur} (hst : (dmaAt s g).st = .run) (hhalting : (dmaAt s g).halting = none)
  (haborting : (dmaAt s g).aborting = false) (hending : (dmaAt s g).ending = none) (hheld : dmaHeld s g = false)
  (hcur : (dmaAt s g).cur = some cur) (hreading : cur.reading = none) (hblock : cur.block < blocksOf cur.d)
include hst hhalting haborting hending hheld hcur hreading hblock

/-- An unpaced block, or one that its fill count lets pass, goes out. -/
theorem dmaBlockIssue_passes (hpass : dPsrc cur.d = 0 ∨ cur.passed = true) : dmaBlockIssue g s = nextBlock s g cur := by
  unfold dmaBlockIssue
  simp only [hcur]
  rw [if_neg (by simp [hst, hhalting, haborting, hending, hheld, hreading, hblock])]
  exact if_pos hpass

/-- R279: a paced block waits above its high mark. -/
theorem dmaBlockIssue_paces {n : Nat} {u : State}
    (hpaced : dPsrc cur.d = 1 ∨ (dPsrc cur.d = 2 ∧ rangeWaits s (dItab cur.d) 4 = false)) (hpassed : cur.passed = false)
    (hfill : fillOf s g cur = (.ok n, u)) (hhigh : dHigh cur.d ≤ n) :
    dmaBlockIssue g s = setDma u g { dmaAt u g with st := .paced } := by
  have hsource : dPsrc cur.d ≠ 0 := by omega
  have hnow : ¬(dPsrc cur.d = 2 ∧ rangeWaits s (dItab cur.d) 4 = true) := by
    rintro ⟨h2, hw⟩
    rcases hpaced with h1 | ⟨-, hno⟩
    · omega
    · exact Bool.false_ne_true (hno.symm.trans hw)
  unfold dmaBlockIssue
  simp only [hcur]
  rw [if_neg (by simp [hst, hhalting, haborting, hending, hheld, hreading, hblock]), if_neg (by simp [hsource, hpassed]),
    if_neg hnow]
  simp only [hfill]
  exact if_pos hhigh

end

/-- R279: a paced channel that looks at its fill count goes on at its low mark. -/
theorem pacedLook_looks {s : State} {g n : Nat} {cur : DmaCur} {u : State} (hst : (dmaAt s g).st = .paced)
    (hhalting : (dmaAt s g).halting = none) (hending : (dmaAt s g).ending = none) (hcur : (dmaAt s g).cur = some cur)
    (hfill : fillOf s g cur = (.ok n, u)) : pacedLook s g = if n ≤ dLow cur.d then passBlock u g cur else u := by
  unfold pacedLook
  simp only [hcur]
  rw [if_neg (by simp [hst, hhalting, hending])]
  simp only [hfill]

/-- R278: with a place in Q12, the one arrival that a channel waits for is pushed, and the channel runs. -/
theorem arrWaitRelease_pushes {s : State} {g : Fin 64} {n : Nat} {e : W64} (harrivals : (dmaAt s g).arrivals = [(n, e)])
    (hst : (dmaAt s g).st = .arrWait) (haborting : (dmaAt s g).aborting = false) (hfree : qFree (coreAt s n) 12 1 = true) :
    arrWaitRelease g s = modDma (modCore s n (fun c => qPush c 12 e)) g (fun ch => { ch with arrivals := [], st := .run }) := by
  have hpush : pushQ12 s n e = some (modCore s n (fun c => qPush c 12 e)) := by
    unfold pushQ12
    exact if_pos hfree
  have hchan : dmaAt (modCore s n (fun c => qPush c 12 e)) g = dmaAt s g := rfl
  unfold arrWaitRelease
  simp only [harrivals, hpush]
  rw [settleAbort_of_not_aborting]
  · unfold modDma
    simp [hchan, hst]
  · simp [hchan, haborting]

/-! ### The end of a descriptor -/

theorem wbFault_setDma (s : State) (g : Nat) (x : DmaCh) (cur : DmaCur) : wbFault (setDma s g x) cur = wbFault s cur := rfl

theorem wbWaits_of_no_writeBack {cur : DmaCur} (h : dWb cur.d = false) (s : State) : wbWaits s cur = false := by
  unfold wbWaits
  split
  · rw [h, Bool.false_and, Bool.false_and]
  · rfl

theorem wbFault_of_no_writeBack {cur : DmaCur} (h : dWb cur.d = false) (s : State) : wbFault s cur = none := by
  unfold wbFault
  split
  · rw [h]
    exact if_pos rfl
  · rfl

section
variable {s : State} {g : Fin 64} {cur : DmaCur} (hst : (dmaAt s g).st = .run) (hhalting : (dmaAt s g).halting = none)
  (haborting : (dmaAt s g).aborting = false) (hending : (dmaAt s g).ending = none) (hcur : (dmaAt s g).cur = some cur)
  (hreading : cur.reading = none) (hblock : blocksOf cur.d ≤ cur.block)
include hst hhalting haborting hending hcur hreading hblock

/-- R62, R80: every block is written, and the status word waits at its stack or bank. -/
theorem dmaDescriptorComplete_waits (hwaits : wbWaits s cur = true) :
    dmaDescriptorComplete g s = chanAsk s g ((cur.da.getD 0 + 60) % 2 ^ 48) 4 true := by
  unfold dmaDescriptorComplete
  simp only [hcur, hending]
  rw [if_neg (by simp [hst, hhalting, haborting, hreading, hblock])]
  exact if_pos hwaits

/-- R275: every block is written, and the descriptor without an arrival is over. -/
theorem dmaDescriptorComplete_finishes (harr : dArr cur.d = false) (hfault : wbFault s cur = none)
    (hwaits : wbWaits s cur = false) :
    dmaDescriptorComplete g s = finishNow (modDma s g (fun ch => { ch with cur := some cur })) g 0 true := by
  have hnone : descArrival cur = none := by
    unfold descArrival
    exact if_neg (by simp [harr])
  unfold dmaDescriptorComplete
  simp only [hcur, hending]
  rw [if_neg (by simp [hst, hhalting, haborting, hreading, hblock]), if_neg (ne_true_of_eq_false hwaits)]
  unfold dmaDescriptorComplete.go
  simp only [hnone]
  unfold dmaDescriptorComplete.close
  simp only [modDma, wbFault_setDma, hfault]
  exact finishDesc_now 0 true (cur := cur) (by rw [dmaAt_setDma]) hwaits

end

/-- An end that waits for its status word waits on. -/
theorem dmaDescriptorComplete_ending {s : State} {g : Fin 64} {cur : DmaCur} {e : Nat × Bool}
    (hcur : (dmaAt s g).cur = some cur) (hending : (dmaAt s g).ending = some e) (hwaits : wbWaits s cur = true) :
    dmaDescriptorComplete g s = s := by
  unfold dmaDescriptorComplete
  simp only [hcur, hending]
  exact if_pos hwaits

theorem ownerOf_congr {s t : State} (h : ∀ g, dmaAt t g = dmaAt s g) (da : Nat) : ownerOf t da = ownerOf s da := by
  unfold ownerOf
  simp only [h]

/-- A channel that is set twice is as if it was set once. -/
theorem dmaAt_setDma_twice (s : State) (g : Nat) (x y : DmaCh) (j : Nat) :
    dmaAt (setDma (setDma s g x) g y) j = dmaAt (setDma s g y) j := by
  by_cases h : j = g
  · rw [h, dmaAt_setDma, dmaAt_setDma]
  · simp only [dmaAt_setDma_ne _ _ _ _ h]

/-- R275, R281: a descriptor in hand without a write-back is over, and the chain goes on at NEXT, which no channel owns. -/
theorem finishNow_links {s : State} {g : Nat} {cur : DmaCur} (status : Nat) (hcur : (dmaAt s g).cur = some cur)
    (hwb : dWb cur.d = false) (hlink : dLink cur.d = true) (hlinks : (dmaAt s g).links < chainLimit (dmaAt s g))
    (howner : ownerOf (setDma s g { dmaAt s g with cur := none, ahead := none }) (dNext cur.d) = none) :
    sameMemory s (finishNow s g status true) ∧ dmaAt (finishNow s g status true) g = { dmaAt s g with
      st := .fetch, cur := none, fetching := some (dNext cur.d), ahead := none, links := (dmaAt s g).links + 1
      ending := none } := by
  have hbeside := besideDma_endDesc hwb s g status
  have hgoes : finishNow s g status true = setDma (endDesc s g cur status) g { dmaAt (endDesc s g cur status) g with
      st := .fetch, cur := none, fetching := some (dNext cur.d), ahead := none, links := (dmaAt s g).links + 1
      ending := none } := by
    unfold finishNow
    simp only [hcur, hlink, howner]
    exact if_neg (Nat.not_le.mpr hlinks)
  rw [hgoes, dmaAt_setDma, dmaAt_besideDma hbeside]
  exact ⟨sameMemory_trans hbeside.1 (sameMemory_setDma _ g _), rfl⟩

/-! ### Halts -/

/-- What the settled halt leaves before the chain is held or ends: the channel, its counter and its event. -/
def haltNoted (s : State) (g cause : Nat) : State :=
  let u := count (setDma s g { dmaAt s g with st := .halted, cause := cause, halting := none }) (oDma g dHaltCnt)
  dmaEvent u g (haltClass cause) 1 cause (haltPayload u g cause)

theorem besideDma_haltNoted (s : State) (g cause : Nat) :
    besideDma (setDma s g { dmaAt s g with st := .halted, cause := cause, halting := none }) (haltNoted s g cause) :=
  besideDma_trans (besideDma_count _ _) (besideDma_dmaEvent _ _ _ _ _ _)

theorem dmaAt_haltNoted (s : State) (g cause : Nat) :
    dmaAt (haltNoted s g cause) g = { dmaAt s g with st := .halted, cause := cause, halting := none } := by
  rw [dmaAt_besideDma (besideDma_haltNoted s g cause), dmaAt_setDma]

theorem sameMemory_haltNoted (s : State) (g cause : Nat) : sameMemory s (haltNoted s g cause) :=
  sameMemory_trans (sameMemory_setDma s g _) (besideDma_haltNoted s g cause).1

theorem logRegs_haltNoted (s : State) (g cause : Nat) :
    logRegs (setDma s g { dmaAt s g with st := .halted, cause := cause, halting := none }) (haltNoted s g cause) :=
  logRegs_trans (count_logRegs _ _) (event_logRegs _ _ _ _ _ _ _ _ _)

theorem regGet_haltNoted (s : State) (g cause : Nat) {p : Nat} (h : notLogReg p) (hp : p ≠ oDma g dHaltCnt) :
    regGet (haltNoted s g cause) p = regGet s p := by
  unfold haltNoted dmaEvent
  simp only [regGet_event _ _ _ _ _ _ _ _ _ _ h, regGet_count _ _ _ h hp]
  rfl

theorem daWaits_of_logRegs {s : State} {l : Log} {r : Table W32}
    (hide : regBit { s with log := l, regs := r } oIdeCtl 0 = regBit s oIdeCtl 0) (da : Nat) (w : Bool) :
    daWaits { s with log := l, regs := r } da w = daWaits s da w := by
  have hlink : linkCarries { s with log := l, regs := r } = linkCarries s := by
    unfold linkCarries ideRequired
    rw [hide]
    rfl
  unfold daWaits daWaitsFor
  rw [hlink]
  rfl

/-- The counter and the event of a halt do not make a status word wait. -/
theorem wbWaits_haltNoted (s : State) (g : Fin 64) (cause : Nat) (cur : DmaCur) :
    wbWaits (haltNoted s g cause) cur = wbWaits s cur := by
  obtain ⟨l, r, h⟩ := logRegs_haltNoted s g cause
  have hide : regBit (haltNoted s g cause) oIdeCtl 0 = regBit s oIdeCtl 0 := by
    unfold regBit
    rw [regGet_haltNoted s g cause (notLogReg_of_small (by decide)) (by unfold oDma oIdeCtl dHaltCnt; omega)]
  rw [h] at hide ⊢
  unfold wbWaits
  split
  · rw [daWaits_of_logRegs hide]
    rfl
  · rfl

theorem dmaHaltSettled_settles {s : State} {g : Fin 64} {cause : Nat} (hhalting : (dmaAt s g).halting = some cause)
    (hreading : ∀ x, (dmaAt s g).cur = some x → x.reading = none) (harrivals : (dmaAt s g).arrivals = []) :
    dmaHaltSettled g s = if regBit (haltNoted s g cause) (oDma g dCtl) 0 && !(dmaAt s g).aborting
      then haltNoted s g cause else finishDesc (haltNoted s g cause) g (causeStatus cause) false := by
  have hquiet : ((match (dmaAt s g).cur with | some c => c.reading.isSome | none => false) || !(dmaAt s g).arrivals.isEmpty)
      = false := by
    rw [harrivals]
    split
    · next c hc => rw [hreading c hc]; rfl
    · rfl
  unfold dmaHaltSettled
  simp only [hhalting]
  exact if_neg (ne_true_of_eq_false hquiet)

/-! ### Timeouts -/

/-- R284: the host read of the block in hand has no response: the channel halts. -/
theorem dmaResponseTimeout_reading {s : State} {g : Fin 64} {cur : DmaCur} {tag : Nat} (hcur : (dmaAt s g).cur = some cur)
    (hreading : cur.reading = some tag) (hhalting : (dmaAt s g).halting = none) (hending : (dmaAt s g).ending = none) :
    sameMemory s (dmaResponseTimeout g s) ∧ dmaAt (dmaResponseTimeout g s) g = { dmaAt s g with
      cur := some { cur with reading := none }, late := (dmaAt s g).late + 1, halting := some 3 } := by
  let u : State := { s with link := { s.link with reads := tdel tag s.link.reads } }
  have hu : dmaAt u g = dmaAt s g := rfl
  have hgoes : dmaResponseTimeout g s = haltDma (modDma (modDma u g
      (fun ch => { ch with cur := ch.cur.map (fun c => { c with reading := none }) })) g
      (fun ch => { ch with late := ch.late + 1, ending := none })) g 3 := by
    unfold dmaResponseTimeout
    simp only [hcur, Option.bind_some, hreading]
    rfl
  rw [hgoes]
  refine ⟨sameMemory_trans (sameMemory_modDma u g _) (sameMemory_trans (sameMemory_modDma _ g _) (sameMemory_modDma _ g _)), ?_⟩
  unfold haltDma
  simp only [dmaAt_modDma, hu, hcur, hhalting, hending, Option.map_some]

/-- R80: the count of a request pauses while its stack is not READY. -/
theorem dmaResponseTimeout_pauses {s : State} {g : Fin 64} {p : Nat × Nat} (hreading : (dmaAt s g).cur.bind (·.reading) = none)
    (hopen : openRange s (dmaAt s g) = some p) (hpaused : rangePaused s p.1 p.2 = true) : dmaResponseTimeout g s = s := by
  unfold dmaResponseTimeout
  simp only [hreading, hopen]
  exact if_pos (Or.inr (Or.inr hpaused))

/-- R284: a request without a response halts the channel, or the fetch of NEXT fails. -/
theorem dmaResponseTimeout_halts {s : State} {g : Fin 64} {p : Nat × Nat} (hreading : (dmaAt s g).cur.bind (·.reading) = none)
    (hst : (dmaAt s g).st = .fetch ∨ (dmaAt s g).st = .run ∨ (dmaAt s g).st = .paced) (hhalting : (dmaAt s g).halting = none)
    (hopen : openRange s (dmaAt s g) = some p) (hpaused : rangePaused s p.1 p.2 = false) : dmaResponseTimeout g s =
    if aheadOpen s (dmaAt s g)
    then modDma (modDma s g (fun ch => { ch with got := some (.fault 3) })) g
      (fun ch => { ch with late := ch.late + 1, ending := none })
    else haltDma (modDma s g (fun ch => { ch with late := ch.late + 1, ending := none })) g 3 := by
  unfold dmaResponseTimeout
  simp only [hreading, hopen]
  refine if_neg ?_
  rcases hst with h | h | h <;> simp [h, hhalting, hpaused]

theorem lateResponse_counts {s : State} {g : Fin 64} (hlate : (dmaAt s g).late ≠ 0) :
    lateResponse g s = count (modDma s g (fun ch => { ch with late := ch.late - 1 })) (oDma g dLateCnt) := by
  unfold lateResponse
  exact if_neg hlate

/-! ### Control commands -/

section
variable {s : State} {g : Fin 64} (hst : (dmaAt s g).st = .halted) (hending : (dmaAt s g).ending = none)
include hst hending

theorem resume_restarts {cur : DmaCur} (hcur : (dmaAt s g).cur = some cur) : resume g s = setDma s g { dmaAt s g with
    st := .run, cur := some { cur with
      block := 0, done := 0, bytes := 0, dflags := 0, arrived := false, passed := false, itab := none } } := by
  unfold resume
  simp only [hst, hending, hcur]
  exact if_neg (by simp)

theorem resume_refetches (hcur : (dmaAt s g).cur = none) (hfetching : (dmaAt s g).fetching.isSome = true)
    (h4 : (dmaAt s g).cause ≠ 4) (h6 : (dmaAt s g).cause ≠ 6) : resume g s = setDma s g { dmaAt s g with st := .fetch } := by
  unfold resume
  simp only [hst, hending, hcur]
  rw [if_neg (by simp)]
  exact if_pos ⟨hfetching, h4, h6⟩

theorem skip_finishes : skip g s = finishDesc s g (causeStatus (dmaAt s g).cause) true := by
  unfold skip
  simp only [hst, hending]
  exact if_neg (by simp)

theorem abort_finishes : abort g s = finishDesc s g (causeStatus (dmaAt s g).cause) false := by
  unfold abort abortHalted
  simp only [hst, hending]
  rw [if_neg (by simp), if_neg (by simp)]
  exact if_pos trivial

end

/-- R285, R291: an ABORT waits for the block in flight. -/
theorem settleAbort_of_reading {s : State} {g : Nat} {cur : DmaCur} (hcur : (dmaAt s g).cur = some cur)
    (hreading : cur.reading.isSome = true) : settleAbort s g = s := by
  have hnone : cur.reading.isNone = false := by
    rw [Option.isNone_eq_false_iff]
    exact hreading
  unfold settleAbort
  simp only [hcur, hnone]
  exact if_neg (by simp)

theorem abort_waits {s : State} {g : Fin 64} {cur : DmaCur} (hst : (dmaAt s g).st = .run) (hending : (dmaAt s g).ending = none)
    (hcur : (dmaAt s g).cur = some cur) (hreading : cur.reading.isSome = true) :
    abort g s = setDma s g { dmaAt s g with aborting := true } := by
  unfold abort
  dsimp only
  rw [if_neg (by simp [hst]), if_neg (by simp [hending]), if_neg (by simp [hst])]
  exact settleAbort_of_reading (cur := cur) (by rw [dmaAt_modDma]; exact hcur) hreading

/-! ### GO -/

/-- R291: a value without its bit 31 only sets the upper part of the address. -/
theorem go_address {g : Fin 64} {v : W32} (s : State) (h : bitOf v 31 = false) :
    go g v s = regSetFld s (oDma g dStartHi) 15 0 (fld v 15 0) := by
  unfold go
  simp only [h]
  rfl

/-- R282, R286: a start at an aligned address, which no channel owns, joins the pending starts. -/
theorem go_joins {s : State} {g : Fin 64} {v : W32} (h : bitOf v 31 = true)
    (haligned : (regGet s (oDma g dStartLo)).toNat % 64 = 0) (hroom : (dmaAt s g).pending.length < 8)
    (howner : ownerOf s ((regGet s (oDma g dStartLo)).toNat + 2 ^ 32 * fld v 15 0) = none) :
    go g v s = modDma (regSetFld s (oDma g dStartHi) 15 0 (fld v 15 0)) g (fun ch => { ch with
      pending := ch.pending ++ [{ origin := .reg, head := none
                                  da := (regGet s (oDma g dStartLo)).toNat + 2 ^ 32 * fld v 15 0 }] }) := by
  have hlo : regGet (regSetFld s (oDma g dStartHi) 15 0 (fld v 15 0)) (oDma g dStartLo) = regGet s (oDma g dStartLo) :=
    regGet_regSet_ne s _ _ _ (by unfold oDma dStartHi dStartLo; omega)
  have hhi : put (fld v 15 0) 32 = 2 ^ 32 * fld v 15 0 := Nat.mul_comm _ _
  have howner' : ownerOf (regSetFld s (oDma g dStartHi) 15 0 (fld v 15 0))
      ((regGet s (oDma g dStartLo)).toNat + 2 ^ 32 * fld v 15 0) = none := howner
  have hroom' : ¬8 ≤ (dmaAt (regSetFld s (oDma g dStartHi) 15 0 (fld v 15 0)) g).pending.length := Nat.not_le.mpr hroom
  unfold go
  simp only [h, hlo, hhi, haligned, howner']
  rw [if_neg (by simp), if_neg (by simp), if_neg hroom']

/-! ### The sluice -/

theorem endSluice_frame (s : State) (x : Sluice) (status : Nat) : sameMemory s (endSluice s x status) ∧
    (endSluice s x status).sluices = s.sluices.filter (fun y => y.id != x.id) ∧ admAt (endSluice s x status) x.did = none := by
  have hrefuse : ∀ u k n d j t, besideDma u (sealedRefuse u k n d j t) ∧ (sealedRefuse u k n d j t).sluices = u.sluices :=
    fun u k n d j t => ⟨besideDma_sealedRefuse u k n d j t, by
      obtain ⟨_, _, h⟩ := logRegs_sealedRefuse u k n d j t
      rw [h]⟩
  unfold endSluice
  simp only []
  refine ⟨sameMemory_trans ?_ (sameMemory_complete _ _ _), ?_, admAt_complete _ _ _⟩
  · split <;> split <;> simp [sameMemory, sealedRefuse]
  · split <;> split <;> simp [sealedRefuse]

/-- R290: a transfer with a known outcome, whose arrival is not held up, ends. -/
theorem settleSluice_ends {s : State} {x : Sluice} {status : Nat} (h : status = 0 → dArr x.d = false) :
    settleSluice s x status = endSluice s x status := by
  unfold settleSluice
  by_cases h0 : status = 0
  · have hnone : sluiceArrival s x = some s := by
      unfold sluiceArrival
      exact if_neg (by simp [h h0])
    rw [if_neg (by simpa using h0), hnone, h0]
  · exact if_pos h0

theorem settleSluice_frame {s : State} {x : Sluice} {status : Nat} (h : status = 0 → dArr x.d = false) :
    sameMemory s (settleSluice s x status) ∧
    (settleSluice s x status).sluices = s.sluices.filter (fun y => y.id != x.id) ∧ admAt (settleSluice s x status) x.did = none := by
  rw [settleSluice_ends h]
  exact endSluice_frame s x status

theorem sluiceComplete_known {s : State} {n status : Nat} {x : Sluice} (hfind : s.sluices.find? (fun y => y.id == n) = some x)
    (hbehind : sluiceBehind s x = false) (hstatus : x.status = some status) :
    sluiceComplete n s = settleSluice s x status := by
  unfold sluiceComplete
  simp only [hfind, hbehind, hstatus]
  rfl

end Sys2Proof.Machine

/-! SUPPORT. A write to device addresses neither reads nor changes the DMA channels: it does the same whatever they are. -/

namespace Sys2Proof.Machine

open Sys2Proof

/-- `s` with other DMA channels. -/
def withDmas (s : State) (d : Table DmaCh) : State := { s with dmas := d }

section
variable (s : State) (d : Table DmaCh)

/-! ### What is read, and what is set -/

@[simp] theorem stackAt_withDmas (k : Nat) : stackAt (withDmas s d) k = stackAt s k := by rfl
@[simp] theorem chanAt_withDmas (k c : Nat) : chanAt (withDmas s d) k c = chanAt s k c := by rfl
@[simp] theorem quernAt_withDmas (k c b : Nat) : quernAt (withDmas s d) k c b = quernAt s k c b := by rfl
@[simp] theorem quernBank_withDmas (k c w : Nat) : quernBank (withDmas s d) k c w = quernBank s k c w := by rfl
@[simp] theorem regGet_withDmas (o : Nat) : regGet (withDmas s d) o = regGet s o := by rfl
@[simp] theorem regFld_withDmas (o hi lo : Nat) : regFld (withDmas s d) o hi lo = regFld s o hi lo := by rfl
@[simp] theorem regBit_withDmas (o i : Nat) : regBit (withDmas s d) o i = regBit s o i := by rfl
@[simp] theorem cc2Down_withDmas : cc2Down (withDmas s d) = cc2Down s := rfl
@[simp] theorem colState_withDmas (key col : Nat) : colState (withDmas s d) key col = colState s key col := by rfl
@[simp] theorem readCol_withDmas (key col : Nat) (x : Option RowDec) : readCol (withDmas s d) key col x = readCol s key col x := by rfl
@[simp] theorem decodeRow_withDmas (key : Nat) : decodeRow (withDmas s d) key = decodeRow s key := by rfl
@[simp] theorem servedAt_withDmas (k : Nat) (l : Loc) : servedAt (withDmas s d) k l = servedAt s k l := by rfl
@[simp] theorem servedKey_withDmas (k : Nat) (l : Loc) : servedKey (withDmas s d) k l = servedKey s k l := by rfl
@[simp] theorem writeKeys_withDmas (k : Nat) (l : Loc) : writeKeys (withDmas s d) k l = writeKeys s k l := by rfl
@[simp] theorem sealedSlot_withDmas (k c : Nat) : sealedSlot (withDmas s d) k c = sealedSlot s k c := by rfl
@[simp] theorem lineSnoops_withDmas (line : Nat) (w : Bool) : lineSnoops (withDmas s d) line w = lineSnoops s line w := by rfl
@[simp] theorem linkCarries_withDmas : linkCarries (withDmas s d) = linkCarries s := by rfl
@[simp] theorem daKind_withDmas (a : Nat) : daKind (withDmas s d) a = daKind s a := by rfl
@[simp] theorem locate_withDmas (a : Nat) : locate (withDmas s d) a = locate s a := by rfl
@[simp] theorem cutLog_withDmas (a : Nat) : cutLog (withDmas s d) a = cutLog s a := by rfl

@[simp] theorem regSet_withDmas (o : Nat) (v : W32) :
    regSet (withDmas s d) o v = withDmas (regSet s o v) d := by rfl
@[simp] theorem modStack_withDmas (k : Nat) (f : Stack → Stack) :
    modStack (withDmas s d) k f = withDmas (modStack s k f) d := by rfl
@[simp] theorem modChan_withDmas (k c : Nat) (f : Chan → Chan) :
    modChan (withDmas s d) k c f = withDmas (modChan s k c f) d := by rfl
@[simp] theorem modQuern_withDmas (k c b : Nat) (f : Quern → Quern) :
    modQuern (withDmas s d) k c b f = withDmas (modQuern s k c b f) d := by rfl
@[simp] theorem emit_withDmas (o : Out) :
    emit (withDmas s d) o = withDmas (emit s o) d := by rfl
@[simp] theorem recordSpare_withDmas (r : SpareRec) :
    recordSpare (withDmas s d) r = withDmas (recordSpare s r) d := by rfl
@[simp] theorem holdErr_withDmas (e : HeldErr) :
    holdErr (withDmas s d) e = withDmas (holdErr s e) d := by rfl
@[simp] theorem modSlot_withDmas (m : Bool) (i : TileId) (f : Slot → Slot) :
    modSlot (withDmas s d) m i f = withDmas (modSlot s m i f) d := by rfl
@[simp] theorem noteSeen_withDmas (k : Nat) (l : Loc) (x : RowDec) :
    noteSeen (withDmas s d) k l x = withDmas (noteSeen s k l x) d := by rfl
@[simp] theorem setLine_withDmas (line : Nat) (x : LineSt) :
    setLine (withDmas s d) line x = withDmas (setLine s line x) d := by rfl
@[simp] theorem scratchWrite_withDmas (n off : Nat) (bs : List Byte) :
    scratchWrite (withDmas s d) n off bs = withDmas (scratchWrite s n off bs) d := by rfl

@[simp] theorem ite_withDmas (c : Prop) [Decidable c] (t : State) :
    (if c then withDmas s d else withDmas t d) = withDmas (if c then s else t) d := by
  split <;> rfl

variable {s d} in
theorem ite_withDmas_of {c : Prop} [Decidable c] {t x y : State} (hx : x = withDmas s d) (hy : y = withDmas t d) :
    (if c then x else y) = withDmas (if c then s else t) d := by
  rw [hx, hy, ite_withDmas]

theorem foldl_withDmas {α : Type} {f : State → α → State} (h : ∀ s x, f (withDmas s d) x = withDmas (f s x) d) (l : List α) :
    l.foldl f (withDmas s d) = withDmas (l.foldl f s) d := by
  induction l generalizing s with
  | nil => rfl
  | cons x r ih => exact (congrArg (r.foldl f) (h s x)).trans (ih (f s x))

@[simp] theorem jobOutcome_withDmas (id : Option Nat) (c code : Nat) :
    jobOutcome (withDmas s d) id c code = withDmas (jobOutcome s id c code) d := by
  cases id <;> rfl

@[simp] theorem setPoison_withDmas (k : Nat) (b : Bool) : setPoison (withDmas s d) k b = withDmas (setPoison s k b) d := by
  cases b <;> rfl

@[simp] theorem setLinePoison_withDmas (n line : Nat) (b : Bool) :
    setLinePoison (withDmas s d) n line b = withDmas (setLinePoison s n line b) d := by
  cases b <;> rfl

theorem accessPieces_withDmas (da len : Nat) : accessPieces (withDmas s d) da len = accessPieces s da len := by
  have hfuel : ∀ f da len, accessPiecesN (withDmas s d) f da len = accessPiecesN s f da len := by
    intro f
    induction f with
    | zero => exact fun _ _ => rfl
    | succ f ih =>
      intro da len
      simp only [accessPiecesN, cutLog_withDmas, ih]
  exact hfuel _ da len

/-! ### The log and the counters -/

@[simp] theorem logHold_withDmas (r : Rec) (o : Option LogOwner) :
    logHold (withDmas s d) r o = withDmas (logHold s r o) d :=
  ite_withDmas_of rfl (ite_withDmas_of rfl (ite_withDmas_of rfl rfl))

theorem logStep_withDmas (n : Nat) (r : Option Rec) (off k : Nat) :
    logStep n (withDmas s d) r off k = withDmas (logStep n s r off k) d := by
  induction n generalizing s r off k with
  | zero => rfl
  | succ n ih =>
    cases r with
    | none =>
      simp only [logStep, regGet_withDmas, regSet_withDmas, ih]
      cases (regDef off).cnt with
      | none => rfl
      | some c =>
        cases c with
        | perf => exact ite_withDmas _ _ _ _
        | err => exact ite_withDmas _ _ _ _
        | _ => rfl
    | some r =>
      simp only [logStep]
      refine ite_withDmas_of (ite_withDmas_of (ih { s with log := _ } none _ _) ?_) (logHold_withDmas s d r none)
      by_cases h : regFld s oLogCtl 15 0 ≠ 0 ∧ s.log.coal.length < 64
      · have h' : regFld (withDmas s d) oLogCtl 15 0 ≠ 0 ∧ (withDmas s d).log.coal.length < 64 := h
        rw [if_pos h, if_pos h']
        exact ite_withDmas_of rfl (ih { s with log := _ } none _ _)
      · have h' : ¬(regFld (withDmas s d) oLogCtl 15 0 ≠ 0 ∧ (withDmas s d).log.coal.length < 64) := h
        rw [if_neg h, if_neg h']
        exact ite_withDmas_of rfl (ih { s with log := _ } none _ _)

@[simp] theorem count_withDmas (off : Nat) : count (withDmas s d) off = withDmas (count s off) d :=
  logStep_withDmas s d 6 none off 1

@[simp] theorem countIf_withDmas (b : Bool) (off : Nat) : countIf (withDmas s d) b off = withDmas (countIf s b off) d := by
  unfold countIf
  simp only [count_withDmas, ite_withDmas]

@[simp] theorem event_withDmas (cls source kind sub unit payload : Nat) (j : W32) (tag : Nat) :
    event (withDmas s d) cls source kind sub unit payload j tag
      = withDmas (event s cls source kind sub unit payload j tag) d := logStep_withDmas s d 6 _ 0 0

/-! ### Stacks -/

@[simp] theorem noteStreamFlags_withDmas (k : Nat) (q : Quern) :
    noteStreamFlags (withDmas s d) k q = withDmas (noteStreamFlags s k q) d := by
  unfold noteStreamFlags
  simp only [countIf_withDmas]

@[simp] theorem resetQuerns_withDmas (k c : Nat) (bs : List Nat) :
    resetQuerns (withDmas s d) k c bs = withDmas (resetQuerns s k c bs) d :=
  foldl_withDmas s d (fun s w => by simp) bs

@[simp] theorem abortChan_withDmas (k c : Nat) : abortChan (withDmas s d) k c = withDmas (abortChan s k c) d := by
  unfold abortChan
  simp

@[simp] theorem abortStack_withDmas (k : Nat) : abortStack (withDmas s d) k = withDmas (abortStack s k) d :=
  foldl_withDmas s d (fun s c => abortChan_withDmas s d k c) _

@[simp] theorem tileGot_withDmas (x : Option (List Byte × List Bool)) (q : SeqReq) :
    tileGot (withDmas s d) x q = withDmas (tileGot s x q) d := by
  cases q with
  | tile off dests => exact foldl_withDmas s d (fun s t => modSlot_withDmas s d _ _ _) dests
  | _ => rfl

@[simp] theorem failReq_withDmas (r : FarReq) : failReq (withDmas s d) r = withDmas (failReq s r) d := by
  unfold failReq
  split <;> simp

@[simp] theorem failStack_withDmas (k cause : Nat) : failStack (withDmas s d) k cause = withDmas (failStack s k cause) d := by
  unfold failStack
  simp [foldl_withDmas _ _ (fun u x => failReq_withDmas u d x)]

@[simp] theorem degradeChan_withDmas (k c b : Nat) : degradeChan (withDmas s d) k c b = withDmas (degradeChan s k c b) d := by
  unfold degradeChan
  simp

@[simp] theorem startMigration_withDmas (k c l : Nat) :
    startMigration (withDmas s d) k c l = withDmas (startMigration s k c l) d := by
  unfold startMigration
  simp

@[simp] theorem layerFailing_withDmas (k c l : Nat) (auto : Bool) :
    layerFailing (withDmas s d) k c l auto = withDmas (layerFailing s k c l auto) d := by
  unfold layerFailing
  cases h : (chanAt s k c).spSt <;> simp [h]

/-! ### What an access reports -/

@[simp] theorem noteUe_withDmas (k c a b r e f : Nat) :
    noteUe (withDmas s d) k c a b r e f = withDmas (noteUe s k c a b r e f) d := by
  unfold noteUe
  simp

@[simp] theorem noteCe_withDmas (k c p l : Nat) : noteCe (withDmas s d) k c p l = withDmas (noteCe s k c p l) d := by
  unfold noteCe
  simp

@[simp] theorem noteDecode_withDmas (k : Nat) (l : Loc) (p : Nat × Nat) (x : RowDec) :
    noteDecode (withDmas s d) k l p x = withDmas (noteDecode s k l p x) d := by
  unfold noteDecode
  simp

@[simp] theorem noteCol_withDmas (k : Nat) (l : Loc) (p : Nat × Nat) (kind col : Nat) (cls : ColCls) (f : Bool) :
    noteCol (withDmas s d) k l p kind col cls f = withDmas (noteCol s k l p kind col cls f) d := by
  unfold noteCol
  cases cls <;> simp

@[simp] theorem requestRepair_withDmas (k : Nat) (l : Loc) :
    requestRepair (withDmas s d) k l = withDmas (requestRepair s k l) d := by
  unfold requestRepair
  simp

@[simp] theorem checkCols_withDmas (k : Nat) (l : Loc) (cols : List Nat) (whole deliver : Bool) :
    checkCols (withDmas s d) k l cols whole deliver
      = ((checkCols s k l cols whole deliver).1, withDmas (checkCols s k l cols whole deliver).2 d) := by
  have hnoted : ∀ (xs : List (Nat × ColCls)) (p : Nat × Nat) (f : Nat × ColCls → Bool),
      xs.foldl (fun st x => noteCol st k l p 0 x.1 x.2 (f x)) (withDmas s d)
        = withDmas (xs.foldl (fun st x => noteCol st k l p 0 x.1 x.2 (f x)) s) d := fun xs p f =>
    foldl_withDmas s d (fun u x => noteCol_withDmas u d k l p 0 x.1 x.2 (f x)) xs
  unfold checkCols
  simp only [servedAt_withDmas, servedKey_withDmas, colState_withDmas, decodeRow_withDmas, readCol_withDmas, hnoted]
  split
  · rfl
  · simp only [noteDecode_withDmas, requestRepair_withDmas, noteSeen_withDmas, ite_withDmas]

/-! ### Stores -/

@[simp] theorem storeCol_withDmas (key col : Nat) (bs : List Byte) (p : Bool) :
    storeCol (withDmas s d) key col bs p = withDmas (storeCol s key col bs p) d :=
  setPoison_withDmas { s with
    dram := if col < 64 then mwrite s.dram (colAddr key col) bs else s.dram
    dramErr := zeroRange s.dramErr (colAddr key col) 34 } d _ p

@[simp] theorem storeCopies_withDmas (keys : List Nat) (col : Nat) (x : List Byte × Bool) :
    storeCopies (withDmas s d) keys col x = withDmas (storeCopies s keys col x) d :=
  foldl_withDmas s d (fun u key => storeCol_withDmas u d key col x.1 x.2) keys

@[simp] theorem storeKept_withDmas (keys : List Nat) (key : Nat) (cs : List (Nat × Nat × List Byte)) (x : RowDec) :
    storeKept (withDmas s d) keys key cs x = withDmas (storeKept s keys key cs x) d := by
  unfold storeKept
  simp only [colState_withDmas, readCol_withDmas]
  exact foldl_withDmas s d (fun u c => storeCopies_withDmas u d keys c _) _

theorem writeCol_withDmas (u : State) (keys : List Nat) (key : Nat) (dec : Option RowDec) (c : Nat × Nat × List Byte)
    (p : Bool) : writeCol (withDmas u d) (withDmas s d) keys key dec c p = withDmas (writeCol u s keys key dec c p) d := by
  unfold writeCol
  simp

@[simp] theorem flipApply_withDmas (k : Nat) (l : Loc) (col port : Nat) :
    flipApply (withDmas s d) k l col port = withDmas (flipApply s k l col port) d := by
  have hset : ∀ addr bytes v, regSet { withDmas s d with
        dramErr := mwrite (withDmas s d).dramErr addr (xorBytes (mread (withDmas s d).dramErr addr bytes.length) bytes) }
        (oStk k kFlipCtl) v
      = withDmas (regSet { s with dramErr := mwrite s.dramErr addr (xorBytes (mread s.dramErr addr bytes.length) bytes) }
        (oStk k kFlipCtl) v) d := fun _ _ _ => rfl
  unfold flipApply
  simp only [regGet_withDmas, sealedSlot_withDmas, servedKey_withDmas, hset, ite_withDmas]

@[simp] theorem farWritePiece_withDmas (k : Nat) (l : Loc) (off : Nat) (bs : List Byte) (ps : List Bool) (port : Nat) :
    farWritePiece (withDmas s d) k l off bs ps port = withDmas (farWritePiece s k l off bs ps port) d := by
  have hcols : ∀ (u : State) (keys : List Nat) (key : Nat) (dec : Option RowDec) (l : List ((Nat × Nat × List Byte) × Nat)),
      l.foldl (fun st p => writeCol (withDmas s d) st keys key dec p.1 (ps.getD p.2 false)) (withDmas u d)
        = withDmas (l.foldl (fun st p => writeCol s st keys key dec p.1 (ps.getD p.2 false)) u) d :=
    fun u keys key dec l => foldl_withDmas u d (fun st p => writeCol_withDmas st d s keys key dec p.1 _) l
  unfold farWritePiece
  simp only [servedKey_withDmas, writeKeys_withDmas, checkCols_withDmas]
  generalize checkCols s k l ((splitCols off bs).map (·.1) ++ [64, 65]) (decide (off = 0) && bs.length == 2048) false = r
  obtain ⟨dec, u⟩ := r
  cases dec with
  | none =>
    simp only [hcols]
    split
    · exact flipApply_withDmas _ d k l _ port
    · rfl
  | some x =>
    simp only [storeKept_withDmas, hcols]
    split
    · exact flipApply_withDmas _ d k l _ port
    · rfl

/-! ### The window, and ranges -/

@[simp] theorem dirtyLine_withDmas (line : Nat) : dirtyLine (withDmas s d) line = withDmas (dirtyLine s line) d :=
  foldl_withDmas s d (fun _ _ => rfl) _

@[simp] theorem windowSnoop_withDmas (w : Bool) (line : Nat) :
    windowSnoop w (withDmas s d) line = withDmas (windowSnoop w s line) d := by
  have hlink : (withDmas s d).link = s.link := rfl
  unfold windowSnoop
  simp [hlink]

theorem windowWrite_withDmas (off : Nat) (bs : List Byte) :
    windowWrite (withDmas s d) off bs = withDmas (windowWrite s off bs) d := by
  unfold windowWrite
  rw [foldl_withDmas s d (fun u x => windowSnoop_withDmas u d true x)]
  rfl

theorem writePiece_withDmas (port : Nat → Nat) (da : Nat) (bs : List Byte) (ps : List Bool) :
    writePiece (withDmas s d) port da bs ps = withDmas (writePiece s port da bs ps) d := by
  unfold writePiece
  simp only [daKind_withDmas, locate_withDmas]
  cases daKind s da with
  | dram => exact farWritePiece_withDmas s d _ _ _ _ _ _
  | scratch n off => simp
  | window off => exact windowWrite_withDmas s d off bs
  | _ => rfl

/-- A write does the same whatever the channels are. -/
theorem daWrite_withDmas (port : Nat → Nat) (da : Nat) (bs : List Byte) (ps : List Bool) :
    daWrite (withDmas s d) port da bs ps = withDmas (daWrite s port da bs ps) d := by
  have hfold : ∀ (l : List (Nat × Nat)) (u : State) (n : Nat),
      (l.foldl (fun a p =>
        let s := a.1
        let off := a.2
        let k := (da % 32 + off) / 32
        (writePiece s port p.1 ((bs.drop off).take p.2) (ps.drop k), off + p.2)) (withDmas u d, n)).1
      = withDmas (l.foldl (fun a p =>
        let s := a.1
        let off := a.2
        let k := (da % 32 + off) / 32
        (writePiece s port p.1 ((bs.drop off).take p.2) (ps.drop k), off + p.2)) (u, n)).1 d := by
    intro l
    induction l with
    | nil => exact fun _ _ => rfl
    | cons p r ih =>
      intro u n
      simp only [List.foldl_cons, writePiece_withDmas]
      exact ih _ _
  unfold daWrite
  rw [accessPieces_withDmas]
  exact hfold _ s 0

end

end Sys2Proof.Machine

/-! SUPPORT. The commands of a DMA channel: the write-back of the status word, blocks, ends, halts, timeouts and control commands,
each by what it leaves of the memory and of its channel. -/

namespace Sys2Proof.Machine

open Sys2Proof

/-! ### The write-back of the status word -/

/-- R266: the write of a status word that does not wait is the same whatever else the channel holds. -/
theorem quietWrite_setDma {s : State} {g da : Nat} {x : DmaCh} (htag : x.tag = (dmaAt s g).tag) (hstart : x.start = (dmaAt s g).start)
    (hready : daWaits s da true = false) (bs : List Byte) :
    sameMemory (quietWrite s g da bs) (quietWrite (setDma s g x) g da bs) := by
  have hchain : chainTag x = chainTag (dmaAt s g) := by
    unfold chainTag
    rw [hstart]
  have hwrite : ∀ (u : State) (e : Table DmaCh), sameMemory (daWrite u (dmaPort g) da bs [])
      (daWrite (withDmas u e) (dmaPort g) da bs []) := by
    intro u e
    rw [daWrite_withDmas]
    exact sameMemory_refl _
  have hready' : daWaits (setDma s g x) da true = false := hready
  have hkind : daKind (setDma s g x) da = daKind s da := rfl
  unfold quietWrite
  rw [hkind]
  cases daKind s da with
  | dram =>
    simp only [dmaAt_setDma, htag, hchain, hready, hready']
    exact hwrite { s with cause := ((dmaAt s g).tag, chainTag (dmaAt s g)) } (tset {} g x s.dmas)
  | _ => exact hwrite s (tset {} g x s.dmas)

theorem writeBack_writes {s : State} {g da : Nat} {cur : DmaCur} (hda : cur.da = some da) (hwb : dWb cur.d = true)
    (hfault : wbFault s cur = none) (status : Nat) : writeBack s g cur status
      = quietWrite s g ((da + 60) % 2 ^ 48) (leBytes 4 (status + put cur.dflags.toNat 8 + put cur.done 16)) := by
  unfold writeBack
  simp only [hda, hwb, hfault]
  rfl

theorem daWaits_of_wbWaits {s : State} {da : Nat} {cur : DmaCur} (hda : cur.da = some da) (hwb : dWb cur.d = true)
    (hfault : wbFault s cur = none) (hwaits : wbWaits s cur = false) : daWaits s ((da + 60) % 2 ^ 48) true = false := by
  unfold wbWaits at hwaits
  simpa only [hda, hwb, hfault, Option.isNone_none, Bool.true_and] using hwaits

/-- R275, R283: every block is written, the status word with ST_OK follows, and the chain that has no link ends. -/
theorem dmaDescriptorComplete_writesBack {s : State} {g : Fin 64} {cur : DmaCur} {da did : Nat} (hst : (dmaAt s g).st = .run)
    (hhalting : (dmaAt s g).halting = none) (haborting : (dmaAt s g).aborting = false) (hending : (dmaAt s g).ending = none)
    (hcur : (dmaAt s g).cur = some cur) (hreading : cur.reading = none) (hblock : blocksOf cur.d ≤ cur.block)
    (harr : dArr cur.d = false) (hwb : dWb cur.d = true) (hda : cur.da = some da) (hfault : wbFault s cur = none)
    (hwaits : wbWaits s cur = false) (hlink : dLink cur.d = false)
    (horigin : (dmaAt s g).start.map (·.origin) = some (.ring did)) :
    (dmaAt (dmaDescriptorComplete g s) g).st = .idle ∧ admAt (dmaDescriptorComplete g s) did = none ∧
      sameMemory (quietWrite s g ((da + 60) % 2 ^ 48) (leBytes 4 (put cur.dflags.toNat 8 + put cur.done 16)))
        (dmaDescriptorComplete g s) := by
  let u := modDma s g (fun ch => { ch with cur := some cur })
  have hchan : dmaAt (endDesc u g cur 0) g = { dmaAt s g with cur := some cur } :=
    (dmaAt_of_dmas_eq (dmas_endDesc u g cur 0) g).trans (dmaAt_modDma s g _)
  have hwrite := quietWrite_setDma (x := { dmaAt s g with cur := some cur }) rfl rfl
    (daWaits_of_wbWaits hda hwb hfault hwaits) (leBytes 4 (put cur.dflags.toNat 8 + put cur.done 16))
  have hback : writeBack u g cur 0
      = quietWrite u g ((da + 60) % 2 ^ 48) (leBytes 4 (put cur.dflags.toNat 8 + put cur.done 16)) := by
    rw [writeBack_writes (s := u) hda hwb hfault, Nat.zero_add]
  rw [dmaDescriptorComplete_finishes hst hhalting haborting hending hcur hreading hblock harr hfault hwaits,
    finishNow_ends 0 (cur := cur) (by rw [dmaAt_modDma]) (by rw [hlink]; rfl), dmaAt_endChain]
  refine ⟨rfl, admAt_endChain (by rw [hchan]; exact horigin) _ _ _, ?_⟩
  refine sameMemory_trans ?_ (sameMemory_endChain _ _ _ _ _)
  refine sameMemory_trans ?_ (besideDma_trace (writeBack u g cur 0) _ _ _ _ _ _ _ _ _).1
  rw [hback]
  exact hwrite

/-! ### The commands -/

theorem dmaAt_kept (s u : State) (g : Nat) : dmaAt (kept s u) g = dmaAt u g := rfl

theorem admAt_kept (s u : State) (did : Nat) : admAt (kept s u) did = admAt u did := rfl

theorem sameMemory_kept_iff (s u v : State) : sameMemory v (kept s u) ↔ sameMemory v u := Iff.rfl

/-- What a command that runs leaves of the memory and of a channel. -/
theorem ran_memory_dma {s u v : State} {g : Nat} (P : DmaCh → Prop) (hmem : sameMemory v u) (hchan : P (dmaAt u g)) :
    ∃ t, ran s u = .next t ∧ sameMemory v t ∧ P (dmaAt t g) := ⟨kept s u, rfl, hmem, hchan⟩

theorem ran_memory_dma_eq {s u v : State} {g : Nat} {x : DmaCh} (hmem : sameMemory v u) (hchan : dmaAt u g = x) :
    ∃ t, ran s u = .next t ∧ sameMemory v t ∧ dmaAt t g = x := ran_memory_dma (· = x) hmem hchan

section
variable {s : State} {g : Fin 64}

/-- R269: a head that its start copied, and that passes the check, runs. -/
theorem exec_head_runs {p : Start} {d : Desc} (hst : (dmaAt s g).st = .fetch) (hhalting : (dmaAt s g).halting = none)
    (haborting : (dmaAt s g).aborting = false) (hending : (dmaAt s g).ending = none) (hfetching : (dmaAt s g).fetching = none)
    (hstart : (dmaAt s g).start = some p) (hhead : p.head = some d) (hlinks : (dmaAt s g).links ≤ 1)
    (hgood : dmaBad s g d true = false) : ∃ t, exec (.descriptorFetchResponse g) s = .next t ∧ sameMemory s t ∧
      dmaAt t g = { dmaAt s g with
        st := .run, chainLen := dChainlen d, tag := dJobtag d, got := none
        cur := some { d := d, da := none, pattern := regGet s (oDma g dFill), auth := p.auth } } := by
  obtain ⟨auth, hauth, hmem, hchan⟩ := takeDesc_runs none ((congrArg (dmaBad s g d) (decide_eq_true hlinks)).trans hgood)
  have htake := descriptorFetchResponse_head hst hhalting haborting hending hfetching hstart hhead
  rw [← htake] at hmem hchan
  refine ran_memory_dma_eq hmem (hchan.trans ?_)
  simp only [hauth rfl, hstart, hlinks, hfetching, Option.bind_some, if_true]

/-- R269: a ring's head that fails the check ends its chain with ST_BADDESC of a channel. -/
theorem exec_head_refused {p : Start} {d : Desc} {did : Nat} (hst : (dmaAt s g).st = .fetch) (hhalting : (dmaAt s g).halting = none)
    (haborting : (dmaAt s g).aborting = false) (hending : (dmaAt s g).ending = none) (hfetching : (dmaAt s g).fetching = none)
    (hstart : (dmaAt s g).start = some p) (hhead : p.head = some d) (hlinks : (dmaAt s g).links ≤ 1)
    (hbad : dmaBad s g d true = true) (horigin : p.origin = .ring did) :
    ∃ t, exec (.descriptorFetchResponse g) s = .next t ∧ sameMemory s t ∧ (dmaAt t g).st = .idle ∧
      (dmaAt t g).lastStatus = 3 ∧ admAt t did = none := by
  let u := modDma s g (fun ch => { ch with tag := dJobtag d, got := none })
  have hchan : dmaAt u g = { dmaAt s g with tag := dJobtag d, got := none } := dmaAt_modDma s g _
  have hring : (dmaAt s g).start.map (·.origin) = some (.ring did) := by rw [hstart, Option.map_some, horigin]
  have htake := (descriptorFetchResponse_head hst hhalting haborting hending hfetching hstart hhead).trans
    (takeDesc_refused none hlinks hbad hring)
  refine ⟨_, ran_of_eq htake, ?_⟩
  rw [sameMemory_kept_iff, dmaAt_kept, admAt_kept, dmaAt_endChain]
  exact ⟨sameMemory_trans (sameMemory_modDma s g _) (sameMemory_endChain _ _ _ _ _), rfl, rfl,
    admAt_endChain (by rw [hchan]; exact hring) _ _ _⟩

/-- R281: a fetched descriptor that passes the check runs; a fault halts the channel. -/
theorem exec_fetch {da : Nat} {x : Fetched} {u : State} (hst : (dmaAt s g).st = .fetch) (hhalting : (dmaAt s g).halting = none)
    (haborting : (dmaAt s g).aborting = false) (hending : (dmaAt s g).ending = none)
    (hfetching : (dmaAt s g).fetching = some da) (hgot : (dmaAt s g).got = none)
    (hready : rangeError s da 64 = true ∨ rangeWaits s da 64 = false) (hfetch : fetchDesc s g da = (x, u)) :
    exec (.descriptorFetchResponse g) s = ran s (takeFetched u g da x) ∧ dmaAt u g = dmaAt s g := by
  have htake := descriptorFetchResponse_fetch hst hhalting haborting hending hfetching hgot hready
  have hdmas := dmas_fetchDesc s g da
  rw [hfetch] at htake hdmas
  exact ⟨congrArg (ran s) htake, dmaAt_of_dmas_eq hdmas g⟩

/-! ### Blocks that are issued -/

section
variable {cur : DmaCur} (hst : (dmaAt s g).st = .run) (hhalting : (dmaAt s g).halting = none)
  (haborting : (dmaAt s g).aborting = false) (hending : (dmaAt s g).ending = none) (hheld : dmaHeld s g = false)
  (hcur : (dmaAt s g).cur = some cur) (hreading : cur.reading = none) (hblock : cur.block < blocksOf cur.d)
  (hpass : dPsrc cur.d = 0 ∨ cur.passed = true) (hidxs : dIdxs cur.d = false) (hidxd : dIdxd cur.d = false)
  (hdas : dDas cur.d = false) (harr : dArr cur.d = false)
  (hdst : rangeWaits s (blockAddr cur.d cur.block 0).dst (blockOut cur.d) true = false)
include hst hhalting haborting hending hheld hcur hreading hblock hpass hidxs hidxd hdas harr hdst

/-- R270: a block between device addresses is read, written, and counted. -/
theorem exec_block_device {u : State} {bs : List Byte} (hsas : dSas cur.d = false) (hwid : dSwid cur.d = dDwid cur.d)
    (hsrc : rangeWaits s (blockAddr cur.d cur.block 0).src (dBlklen cur.d) = false)
    (hgood : goodSource s cur.auth (fun k => dstWithin s k (blockAddr cur.d cur.block 0).dst (blockOut cur.d) false)
      (accessPieces s (blockAddr cur.d cur.block 0).src (dBlklen cur.d)) = (dBlklen cur.d, none))
    (hclean : cleanBytes (blockAddr cur.d cur.block 0).src
      (chanRead s g (blockAddr cur.d cur.block 0).src (dBlklen cur.d)).2.1 (dBlklen cur.d) = dBlklen cur.d)
    (hbs : bs = (chanRead s g (blockAddr cur.d cur.block 0).src (dBlklen cur.d)).1.take (dBlklen cur.d))
    (hu : u = (chanRead s g (blockAddr cur.d cur.block 0).src (dBlklen cur.d)).2.2)
    (hwrite : goodPrefix u cur.auth true (accessPieces u (blockAddr cur.d cur.block 0).dst bs.length) = (bs.length, none)) :
    ∃ t, exec (.dmaBlockIssue g) s = .next t ∧
      sameMemory (caused u (dmaAt s g).tag (chainTag (dmaAt s g))
        (fun v => daWrite (dropTickets v true g) (dmaPort g) (blockAddr cur.d cur.block 0).dst bs [])) t ∧
      (dmaAt t g).cur = some { cur with
        block := cur.block + 1, done := cur.done + 1, bytes := cur.bytes + bs.length, passed := false } := by
  have hissue := (dmaBlockIssue_passes hst hhalting haborting hending hheld hcur hreading hblock hpass).trans
    ((nextBlock_unindexed hidxs hidxd).trans (congrArg (startAhead · g)
      (issueBlock_device (blockAddr_oob hidxs hidxd cur.block 0) hdas harr hdst hsas hsrc hgood hclean)))
  rw [← hbs, ← hu] at hissue
  have hchan : dmaAt u g = dmaAt s g := by
    rw [hu]
    exact dmaAt_of_dmas_eq (dmas_chanRead s g _ _) g
  obtain ⟨hmem, hdone⟩ := blockData_copies (src := (blockAddr cur.d cur.block 0).src) (hchan ▸ hcur) hwid hdas harr
    (hchan ▸ haborting) hwrite
  obtain ⟨hahead, -, hkept⟩ := startAhead_frame (blockData u g cur (blockAddr cur.d cur.block 0).dst
    (blockAddr cur.d cur.block 0).src bs none) g
  rw [hchan] at hmem
  rw [← hissue] at hahead hkept
  refine ran_memory_dma (fun c => c.cur = _) (sameMemory_trans hmem hahead) (hkept.trans (hdone.trans ?_))
  rw [hreading]

/-- R343: the read of a block from the host goes out. -/
theorem exec_block_host (hsas : dSas cur.d = true) (hlink : linkCarries s = true) :
    ∃ t, exec (.dmaBlockIssue g) s = .next t ∧ sameMemory s t ∧
      (dmaAt t g).cur = some { cur with
        reading := some s.link.nextTag, src := (blockAddr cur.d cur.block 0).src, dst := (blockAddr cur.d cur.block 0).dst } ∧
      t.link.nextTag = s.link.nextTag + 1 := by
  let u := modDma (askHost s (blockAddr cur.d cur.block 0).src (dBlklen cur.d) (.dma g)) g (fun ch => { ch with
    cur := some { cur with
      reading := some s.link.nextTag, src := (blockAddr cur.d cur.block 0).src, dst := (blockAddr cur.d cur.block 0).dst } })
  have hissue : dmaBlockIssue g s = startAhead u g :=
    (dmaBlockIssue_passes hst hhalting haborting hending hheld hcur hreading hblock hpass).trans
      ((nextBlock_unindexed hidxs hidxd).trans (congrArg (startAhead · g)
        (issueBlock_host (blockAddr_oob hidxs hidxd cur.block 0) hdas harr hdst hsas hlink)))
  obtain ⟨hmem, -, -, htag⟩ := askHost_frame s (blockAddr cur.d cur.block 0).src (dBlklen cur.d) (.dma g)
  obtain ⟨hahead, hsame, hkept⟩ := startAhead_frame u g
  have hcurrent : (dmaAt u g).cur = some { cur with
      reading := some s.link.nextTag, src := (blockAddr cur.d cur.block 0).src, dst := (blockAddr cur.d cur.block 0).dst } :=
    congrArg DmaCh.cur (dmaAt_modDma _ g _)
  have hnext : (startAhead u g).link.nextTag = s.link.nextTag + 1 := (congrArg Link.nextTag hsame).trans htag
  refine ⟨_, ran_of_eq hissue, ?_⟩
  rw [sameMemory_kept_iff, dmaAt_kept]
  exact ⟨sameMemory_trans (sameMemory_trans hmem (sameMemory_modDma _ g _)) hahead, hkept.trans hcurrent, hnext⟩

end

/-- R279: above its high mark a paced channel waits. -/
theorem exec_block_paces {cur : DmaCur} {n : Nat} {u : State} (hst : (dmaAt s g).st = .run)
    (hhalting : (dmaAt s g).halting = none) (haborting : (dmaAt s g).aborting = false) (hending : (dmaAt s g).ending = none)
    (hheld : dmaHeld s g = false) (hcur : (dmaAt s g).cur = some cur) (hreading : cur.reading = none)
    (hblock : cur.block < blocksOf cur.d)
    (hpaced : dPsrc cur.d = 1 ∨ (dPsrc cur.d = 2 ∧ rangeWaits s (dItab cur.d) 4 = false)) (hpassed : cur.passed = false)
    (hfill : fillOf s g cur = (.ok n, u)) (hhigh : dHigh cur.d ≤ n) :
    ∃ t, exec (.dmaBlockIssue g) s = .next t ∧ sameMemory u t ∧ (dmaAt t g).st = .paced := by
  have hpaces := dmaBlockIssue_paces hst hhalting haborting hending hheld hcur hreading hblock hpaced hpassed hfill hhigh
  refine ⟨_, ran_of_eq hpaces, ?_⟩
  rw [sameMemory_kept_iff, dmaAt_kept, dmaAt_setDma]
  exact ⟨sameMemory_setDma u g _, rfl⟩

/-- R279: the two commands by which a paced channel looks at its fill count. -/
theorem exec_pacedLook {i : Instr} {p : Nat} {cur : DmaCur} (hi : (i, p) ∈ [(.fillWordReread g, 2), (.pacedRelease g, 1)])
    (hcur : (dmaAt s g).cur = some cur) (hp : dPsrc cur.d = p) (hready : p = 1 ∨ rangeWaits s (dItab cur.d) 4 = false) :
    exec i s = ran s (pacedLook s g) := by
  simp only [List.mem_cons, Prod.mk.injEq, List.not_mem_nil, or_false] at hi
  rcases hi with ⟨rfl, rfl⟩ | ⟨rfl, rfl⟩
  · have hnow := hready.resolve_left (by decide)
    have hlook : fillWordReread g s = pacedLook s g := by
      unfold fillWordReread
      simp only [hcur]
      exact if_pos ⟨hp, by rw [hnow]; rfl⟩
    exact congrArg (ran s) hlook
  · have hlook : pacedRelease g s = pacedLook s g := by
      unfold pacedRelease
      simp only [hcur]
      exact if_pos hp
    exact congrArg (ran s) hlook

/-- R278: Q12 takes the held arrival. -/
theorem exec_arrWaitRelease {n : Nat} {e : W64} (harrivals : (dmaAt s g).arrivals = [(n, e)]) (hst : (dmaAt s g).st = .arrWait)
    (haborting : (dmaAt s g).aborting = false) (hfree : qFree (coreAt s n) 12 1 = true) :
    ∃ t, exec (.arrWaitRelease g) s = .next t ∧ sameMemory s t ∧ coreAt t n = qPush (coreAt s n) 12 e ∧
      dmaAt t g = { dmaAt s g with arrivals := [], st := .run } := by
  have hcore : coreAt (modCore s n (fun c => qPush c 12 e)) n = qPush (coreAt s n) 12 e := coreAt_modCore s n _
  refine ⟨_, ran_of_eq (arrWaitRelease_pushes harrivals hst haborting hfree), ?_⟩
  rw [sameMemory_kept_iff, dmaAt_kept, dmaAt_modDma]
  exact ⟨sameMemory_refl s, hcore, rfl⟩

/-! ### Ends -/

section
variable {cur : DmaCur} (hst : (dmaAt s g).st = .run) (hhalting : (dmaAt s g).halting = none)
  (haborting : (dmaAt s g).aborting = false) (hending : (dmaAt s g).ending = none) (hcur : (dmaAt s g).cur = some cur)
  (hreading : cur.reading = none) (hblock : blocksOf cur.d ≤ cur.block)
include hst hhalting haborting hending hcur hreading hblock

theorem exec_statusWord_waits (hwaits : wbWaits s cur = true) :
    ∃ t, exec (.dmaDescriptorComplete g) s = .next t ∧ sameMemory s t ∧ dmaAt t g = dmaAt s g := by
  have hbeside := besideDma_chanAsk s g ((cur.da.getD 0 + 60) % 2 ^ 48) 4 true
  rw [← dmaDescriptorComplete_waits hst hhalting haborting hending hcur hreading hblock hwaits] at hbeside
  exact ran_memory_dma_eq hbeside.1 (dmaAt_besideDma hbeside g)

section
variable (harr : dArr cur.d = false) (hwb : dWb cur.d = false)
include harr hwb

/-- R275: the last descriptor of a ring's chain is over. -/
theorem exec_over_ends {p : Start} {did : Nat} (hstart : (dmaAt s g).start = some p) (hlink : dLink cur.d = false)
    (horigin : p.origin = .ring did) : ∃ t, exec (.dmaDescriptorComplete g) s = .next t ∧ sameMemory s t ∧
      (dmaAt t g).st = .idle ∧ (dmaAt t g).cur = none ∧ (dmaAt t g).lastStatus = 0 ∧ admAt t did = none := by
  let u := modDma s g (fun ch => { ch with cur := some cur })
  have hbeside := besideDma_endDesc hwb u g 0
  have hchan : dmaAt (endDesc u g cur 0) g = { dmaAt s g with cur := some cur } :=
    (dmaAt_besideDma hbeside g).trans (dmaAt_modDma s g _)
  have hover : dmaDescriptorComplete g s = endChain (endDesc u g cur 0) g 0 cur.dflags.toNat cur.done :=
    (dmaDescriptorComplete_finishes hst hhalting haborting hending hcur hreading hblock harr
      (wbFault_of_no_writeBack hwb s) (wbWaits_of_no_writeBack hwb s)).trans
      (finishNow_ends 0 (by rw [dmaAt_modDma]) (by rw [hlink]; rfl))
  refine ⟨_, ran_of_eq hover, ?_⟩
  rw [sameMemory_kept_iff, dmaAt_kept, admAt_kept, dmaAt_endChain]
  refine ⟨sameMemory_trans (sameMemory_trans (sameMemory_modDma s g _) hbeside.1) (sameMemory_endChain _ _ _ _ _), rfl, rfl, rfl,
    admAt_endChain ?_ _ _ _⟩
  rw [hchan, hstart, Option.map_some, horigin]

/-- R281: the chain goes on at NEXT. -/
theorem exec_over_links (hlink : dLink cur.d = true) (hlinks : (dmaAt s g).links < chainLimit (dmaAt s g))
    (howner : ownerOf (setDma s g { dmaAt s g with cur := none, ahead := none }) (dNext cur.d) = none) :
    ∃ t, exec (.dmaDescriptorComplete g) s = .next t ∧ sameMemory s t ∧ dmaAt t g = { dmaAt s g with
      st := .fetch, cur := none, fetching := some (dNext cur.d), ahead := none, links := (dmaAt s g).links + 1 } := by
  let u := modDma s g (fun ch => { ch with cur := some cur })
  have hchan : dmaAt u g = { dmaAt s g with cur := some cur } := dmaAt_modDma s g _
  have howner' : ownerOf (setDma u g { dmaAt u g with cur := none, ahead := none }) (dNext cur.d) = none := by
    rw [hchan]
    exact (ownerOf_congr (dmaAt_setDma_twice s g _ _) _).trans howner
  obtain ⟨hmem, hnext⟩ := finishNow_links (s := u) 0 (by rw [hchan]) hwb hlink (by rw [hchan]; exact hlinks) howner'
  rw [← dmaDescriptorComplete_finishes hst hhalting haborting hending hcur hreading hblock harr
    (wbFault_of_no_writeBack hwb s) (wbWaits_of_no_writeBack hwb s)] at hmem hnext
  refine ran_memory_dma_eq (sameMemory_trans (sameMemory_modDma s g _) hmem) (hnext.trans ?_)
  rw [hchan, ← hending]

end
end

end

/-! ### Halts, timeouts and control commands -/

section
variable {s : State} {g : Fin 64}

section
variable {cause : Nat} (hhalting : (dmaAt s g).halting = some cause)
  (hreading : ∀ x, (dmaAt s g).cur = some x → x.reading = none) (harrivals : (dmaAt s g).arrivals = [])
include hhalting hreading harrivals

/-- R285: with EN, and no ABORT, the halt holds the channel. -/
theorem exec_halt_holds (hen : regBit s (oDma g dCtl) 0 = true) (haborting : (dmaAt s g).aborting = false) :
    ∃ t, exec (.dmaHaltSettled g) s = .next t ∧ sameMemory s t ∧
      dmaAt t g = { dmaAt s g with st := .halted, cause := cause, halting := none } := by
  have hctl : regBit (haltNoted s g cause) (oDma g dCtl) 0 = regBit s (oDma g dCtl) 0 := by
    unfold regBit
    rw [regGet_haltNoted s g cause (notLogReg_oDma g (by decide)) (by unfold oDma dCtl dHaltCnt; omega)]
  have hsettle : dmaHaltSettled g s = haltNoted s g cause :=
    (dmaHaltSettled_settles hhalting hreading harrivals).trans (if_pos (by rw [hctl, hen, haborting]; rfl))
  refine ⟨_, ran_of_eq hsettle, ?_⟩
  rw [sameMemory_kept_iff, dmaAt_kept]
  exact ⟨sameMemory_haltNoted s g cause, dmaAt_haltNoted s g cause⟩

/-- R285: without EN, or with an ABORT, the chain ends with the halt's status, once its status word does not wait. -/
theorem dmaHaltSettled_ends (hoff : regBit s (oDma g dCtl) 0 = false ∨ (dmaAt s g).aborting = true) :
    dmaHaltSettled g s = finishDesc (haltNoted s g cause) g (causeStatus cause) false := by
  have hctl : regBit (haltNoted s g cause) (oDma g dCtl) 0 = regBit s (oDma g dCtl) 0 := by
    unfold regBit
    rw [regGet_haltNoted s g cause (notLogReg_oDma g (by decide)) (by unfold oDma dCtl dHaltCnt; omega)]
  refine (dmaHaltSettled_settles hhalting hreading harrivals).trans (if_neg ?_)
  rw [hctl]
  rcases hoff with h | h <;> simp [h]

theorem exec_halt_ends (hoff : regBit s (oDma g dCtl) 0 = false ∨ (dmaAt s g).aborting = true)
    (hready : ∀ x, (dmaAt s g).cur = some x → wbWaits s x = false) : ∃ t, exec (.dmaHaltSettled g) s = .next t ∧
      (dmaAt t g).st = .idle ∧ (dmaAt t g).lastStatus = causeStatus cause := by
  have hcur : (dmaAt (haltNoted s g cause) g).cur = (dmaAt s g).cur := by
    rw [dmaAt_haltNoted]
  refine ⟨_, ran_of_eq (dmaHaltSettled_ends hhalting hreading harrivals hoff), ?_⟩
  rw [dmaAt_kept]
  exact dmaAt_finishDesc_ends (causeStatus cause)
    (fun x hx => (wbWaits_haltNoted s g cause x).trans (hready x (hcur.symm.trans hx))) (fun _ _ => Bool.false_and _)

theorem exec_halt_waits {x : DmaCur} (hoff : regBit s (oDma g dCtl) 0 = false ∨ (dmaAt s g).aborting = true)
    (hcur : (dmaAt s g).cur = some x) (hwaits : wbWaits s x = true) : ∃ t, exec (.dmaHaltSettled g) s = .next t ∧
      sameMemory s t ∧ (dmaAt t g).st = .halted ∧ (dmaAt t g).ending = some (causeStatus cause, false) := by
  have hbeside := besideDma_chanAsk (haltNoted s g cause) g ((x.da.getD 0 + 60) % 2 ^ 48) 4 true
  have hchan := dmaAt_haltNoted s g cause
  have hend := (dmaHaltSettled_ends hhalting hreading harrivals hoff).trans (finishDesc_waits (causeStatus cause) false
    (by rw [hchan]; exact hcur) ((wbWaits_haltNoted s g cause x).trans hwaits))
  refine ⟨_, ran_of_eq hend, ?_⟩
  rw [sameMemory_kept_iff, dmaAt_kept, dmaAt_modDma, dmaAt_besideDma hbeside, hchan]
  exact ⟨sameMemory_trans (sameMemory_haltNoted s g cause) (sameMemory_trans hbeside.1 (sameMemory_modDma _ g _)), rfl, rfl⟩

end

/-- R284: the request that has no response is the fetch of NEXT, or another, which halts the channel. -/
theorem exec_timeout {p : Nat × Nat} (hreading : (dmaAt s g).cur.bind (·.reading) = none)
    (hst : (dmaAt s g).st = .fetch ∨ (dmaAt s g).st = .run ∨ (dmaAt s g).st = .paced) (hhalting : (dmaAt s g).halting = none)
    (hending : (dmaAt s g).ending = none) (hopen : openRange s (dmaAt s g) = some p) (hpaused : rangePaused s p.1 p.2 = false) :
    ∃ t, exec (.dmaResponseTimeout g) s = .next t ∧ sameMemory s t ∧
      dmaAt t g = (if aheadOpen s (dmaAt s g)
        then { dmaAt s g with late := (dmaAt s g).late + 1, got := some (.fault 3) }
        else { dmaAt s g with late := (dmaAt s g).late + 1, halting := some 3 }) := by
  refine ⟨_, ran_of_eq (dmaResponseTimeout_halts hreading hst hhalting hopen hpaused), ?_⟩
  rw [sameMemory_kept_iff, dmaAt_kept]
  unfold haltDma
  split
  · rw [dmaAt_modDma, dmaAt_modDma, ← hending]
    exact ⟨sameMemory_trans (sameMemory_modDma s g _) (sameMemory_modDma _ g _), rfl⟩
  · rw [dmaAt_modDma, dmaAt_modDma, hhalting, ← hending]
    exact ⟨sameMemory_trans (sameMemory_modDma s g _) (sameMemory_modDma _ g _), rfl⟩

theorem exec_lateResponse (hlate : (dmaAt s g).late ≠ 0) : ∃ t, exec (.lateResponse g) s = .next t ∧ sameMemory s t ∧
    dmaAt t g = { dmaAt s g with late := (dmaAt s g).late - 1 } := by
  have hbeside := besideDma_count (modDma s g (fun ch => { ch with late := ch.late - 1 })) (oDma g dLateCnt)
  refine ⟨_, ran_of_eq (lateResponse_counts hlate), ?_⟩
  rw [sameMemory_kept_iff, dmaAt_kept, dmaAt_besideDma hbeside, dmaAt_modDma]
  exact ⟨sameMemory_trans (sameMemory_modDma s g _) hbeside.1, rfl⟩

/-- R285: SKIP with no descriptor in hand, and ABORT, end a halted chain with its halt's status. -/
theorem exec_haltedEnds {i : Instr} (hst : (dmaAt s g).st = .halted) (hending : (dmaAt s g).ending = none)
    (hi : i ∈ [.skip g, .abort g]) (hnone : (dmaAt s g).cur = none ∨ i = .abort g) :
    ∃ follow, exec i s = ran s (finishDesc s g (causeStatus (dmaAt s g).cause) follow) ∧
      ∀ x, (dmaAt s g).cur = some x → (follow && dLink x.d) = false := by
  simp only [List.mem_cons, List.not_mem_nil, or_false] at hi
  rcases hi with rfl | rfl
  · have hcur := hnone.resolve_right Instr.noConfusion
    exact ⟨true, congrArg (ran s) (skip_finishes hst hending), fun x hx => by
      rw [hcur] at hx
      exact absurd hx nofun⟩
  · exact ⟨false, congrArg (ran s) (abort_finishes hst hending), fun _ _ => Bool.false_and _⟩

end


end Sys2Proof.Machine

/-! SUPPORT. A write or a read of a register leaves the sluice's transfers as they are, so that a transfer that ends leaves the others
in place (R290). -/

namespace Sys2Proof.Machine

open Sys2Proof

theorem sluices_memWork {s t : State} (h : memWork s t) : t.sluices = s.sluices := by
  obtain ⟨_, _, _, _, _, _, _, _, _, _, _, _, _, _, _, _, _, rfl⟩ := h
  rfl

theorem sluices_coreWork {s t : State} (h : coreWork s t) : t.sluices = s.sluices := by
  obtain ⟨_, _, _, _, _, _, _, _, _, _, _, _, rfl⟩ := h
  rfl

theorem sluices_hostOut {s t : State} (h : hostOut s t) : t.sluices = s.sluices := by
  obtain ⟨_, _, rfl⟩ := h
  rfl

theorem sluices_fold {α : Type} (f : State → α → State) (h : ∀ s x, (f s x).sluices = s.sluices) (l : List α) (s : State) :
    (l.foldl f s).sluices = s.sluices := by
  induction l generalizing s with
  | nil => rfl
  | cons x r ih => exact (ih (f s x)).trans (h s x)

theorem sluices_ite {c : Prop} [Decidable c] {a b s : State} (ha : a.sluices = s.sluices) (hb : b.sluices = s.sluices) :
    (if c then a else b).sluices = s.sluices := by
  split
  · exact ha
  · exact hb

theorem sluices_caused {f : State → State} (h : ∀ u, (f u).sluices = u.sluices) (s : State) (j : W32) (tag : Nat) :
    (caused s j tag f).sluices = s.sluices := h _

/-! ### Set-up -/

@[simp] theorem sluices_cfgDone (s : State) (did : Option Nat) (status info0 : Nat) :
    (cfgDone s did status info0).sluices = s.sluices := by
  unfold cfgDone
  split <;> simp

@[simp] theorem sluices_cfgFailed (s : State) (did : Option Nat) (off : Nat) : (cfgFailed s did off).sluices = s.sluices := by
  unfold cfgFailed
  simp

@[simp] theorem sluices_startCommit (s : State) (c : CfgCmd) : (startCommit s c).sluices = s.sluices := by
  unfold startCommit
  (repeat' split) <;> simp

@[simp] theorem sluices_discardStaged (s : State) : (discardStaged s).sluices = s.sluices := by
  have hset : ∀ u o, (regSet u o (effGet u o)).sluices = u.sluices := fun _ _ => rfl
  unfold discardStaged
  generalize rsOffsets = l
  exact sluices_fold _ hset l s

@[simp] theorem sluices_runCfgCmd (s : State) (c : CfgCmd) : (runCfgCmd s c).sluices = s.sluices := by
  unfold runCfgCmd
  (repeat' split) <;> simp

@[simp] theorem sluices_runCfgN (fuel : Nat) (s : State) : (runCfgN fuel s).sluices = s.sluices := by
  induction fuel generalizing s with
  | zero => rfl
  | succ n ih =>
    simp only [runCfgN]
    split
    · rfl
    · split
      · rfl
      · exact (ih _).trans (sluices_runCfgCmd _ _)

@[simp] theorem sluices_runCfg (s : State) : (runCfg s).sluices = s.sluices := by
  unfold runCfg
  simp

@[simp] theorem sluices_acceptCfg (s : State) (c : CfgCmd) : (acceptCfg s c).sluices = s.sluices := by
  unfold acceptCfg
  simp

@[simp] theorem sluices_cfgCtlWrite (s : State) (v : W32) : (cfgCtlWrite s v).sluices = s.sluices := by
  unfold cfgCtlWrite
  split
  · rfl
  · exact sluices_fold _ (fun u op => sluices_acceptCfg u _) _ s

/-! ### Registers of the hub and of the cores -/

@[simp] theorem sluices_msixUnmask (vector : Fin 1025) (s : State) : (msixUnmask vector s).sluices = s.sluices := by
  unfold msixUnmask
  simp only []
  split <;> simp

@[simp] theorem sluices_msixWrite (s : State) (w : Nat) (v : W32) : (msixWrite s w v).sluices = s.sluices := by
  unfold msixWrite
  simp only []
  (repeat' split) <;> simp

@[simp] theorem sluices_plainWrite (s : State) (o : Nat) (v : W32) : (plainWrite s o v).sluices = s.sluices := by
  unfold plainWrite
  simp

@[simp] theorem sluices_hubWrite (s : State) (o : Nat) (v : W32) : (hubWrite s o v).sluices = s.sluices := by
  unfold hubWrite
  (repeat' split) <;> simp

@[simp] theorem sluices_coreWrite (s : State) (o : Nat) (v : W32) : (coreWrite s o v).sluices = s.sluices := by
  unfold coreWrite
  simp only []
  (repeat' split) <;> simp

/-! ### Stacks -/

@[simp] theorem sluices_spareReqNoAction (x0 : Fin 12) (s : State) : (spareReqNoAction x0 s).sluices = s.sluices := by
  unfold spareReqNoAction
  simp

@[simp] theorem sluices_holdErr (s : State) (e : HeldErr) : (holdErr s e).sluices = s.sluices :=
  sluices_memWork (memWork_holdErr s e)

@[simp] theorem sluices_recordSpare (s : State) (r : SpareRec) : (recordSpare s r).sluices = s.sluices :=
  sluices_memWork (memWork_recordSpare s r)

@[simp] theorem sluices_noteStreamFlags (s : State) (k : Nat) (q : Quern) : (noteStreamFlags s k q).sluices = s.sluices :=
  sluices_memWork (memWork_noteStreamFlags s k q)

@[simp] theorem sluices_modJob (s : State) (id : Nat) (f : Job → Job) : (modJob s id f).sluices = s.sluices := by
  unfold modJob
  simp

@[simp] theorem sluices_tileGot (s : State) (x : Option (List Byte × List Bool)) (x0 : SeqReq) :
    (tileGot s x x0).sluices = s.sluices :=
  sluices_memWork (memWork_tileGot s x x0)

@[simp] theorem sluices_failStack (s : State) (k cause : Nat) : (failStack s k cause).sluices = s.sluices :=
  sluices_memWork (memWork_failStack s k cause)

@[simp] theorem sluices_degradeChan (s : State) (k c bank : Nat) : (degradeChan s k c bank).sluices = s.sluices :=
  sluices_memWork (memWork_degradeChan s k c bank)

@[simp] theorem sluices_layerFailing (s : State) (k c layer : Nat) (auto : Bool) :
    (layerFailing s k c layer auto).sluices = s.sluices :=
  sluices_memWork (memWork_layerFailing s k c layer auto)

@[simp] theorem sluices_spareRefused (s : State) (k c kind : Nat) : (spareRefused s k c kind).sluices = s.sluices := by
  unfold spareRefused
  simp

@[simp] theorem sluices_spareReqMigrate (stack : Fin 12) (chan : Fin 32) (layer : Fin 16) (s : State) :
    (spareReqMigrate stack chan layer s).sluices = s.sluices := by
  unfold spareReqMigrate
  split <;> simp

@[simp] theorem sluices_jobFlag (s : State) (id : Option Nat) (bit : Nat) : (jobFlag s id bit).sluices = s.sluices := by
  unfold jobFlag
  split <;> simp

@[simp] theorem sluices_modTree (s : State) (k c t : Nat) (f : TreeSt → TreeSt) : (modTree s k c t f).sluices = s.sluices := by
  unfold modTree
  simp

@[simp] theorem sluices_supplyUnits (s : State) (k c : Nat) (q : Quern) (sent : Nat) :
    (supplyUnits s k c q sent).sluices = s.sluices := by
  unfold supplyUnits
  simp

@[simp] theorem sluices_setBank (s : State) (k c b : Nat) (x : BankSt) : (setBank s k c b x).sluices = s.sluices := by
  unfold setBank
  simp

@[simp] theorem sluices_prechargeBank (s : State) (k c w : Nat) : (prechargeBank s k c w).sluices = s.sluices := by
  unfold prechargeBank
  simp

@[simp] theorem sluices_modQuernOf (s : State) (k c w : Nat) (f : Quern → Quern) :
    (modQuernOf s k c w f).sluices = s.sluices := by
  unfold modQuernOf
  simp

@[simp] theorem sluices_isolateQuern (s : State) (k c w : Nat) : (isolateQuern s k c w).sluices = s.sluices := by
  unfold isolateQuern
  simp only []
  (repeat' split) <;> simp

@[simp] theorem sluices_startRemap (s : State) (k c : Nat) (w sp : Nat) : (startRemap s k c w sp).sluices = s.sluices := by
  unfold startRemap
  simp

@[simp] theorem sluices_remapOrDegrade (s : State) (k c w : Nat) : (remapOrDegrade s k c w).sluices = s.sluices := by
  unfold remapOrDegrade
  split <;> simp

@[simp] theorem sluices_quernFailed (s : State) (k c w : Nat) : (quernFailed s k c w).sluices = s.sluices := by
  unfold quernFailed
  simp only []
  (repeat' split) <;> simp

@[simp] theorem sluices_spareReqRemap (stack : Fin 12) (chan : Fin 32) (layer : Fin 16) (bank : Fin 4) (s : State) :
    (spareReqRemap stack chan layer bank s).sluices = s.sluices := by
  unfold spareReqRemap
  simp only []
  split <;> simp

@[simp] theorem sluices_spareReqReserved (stack : Fin 12) (chan : Fin 32) (s : State) :
    (spareReqReserved stack chan s).sluices = s.sluices := by
  unfold spareReqReserved
  simp

@[simp] theorem sluices_spareReq (s : State) (stack : Fin 12) (v : W32) : (spareReq s stack v).sluices = s.sluices := by
  unfold spareReq
  split <;> simp

@[simp] theorem sluices_flipArm (stack : Fin 12) (value : BitVec 32) (s : State) :
    (flipArm stack value s).sluices = s.sluices := by
  unfold flipArm
  simp

@[simp] theorem sluices_stkWrite (s : State) (o : Nat) (v : W32) : (stkWrite s o v).sluices = s.sluices := by
  unfold stkWrite
  simp only []
  (repeat' split) <;> simp

/-! ### Sequencer tables and the PK1 aperture -/

@[simp] theorem sluices_seqTableWrite (off : Nat) (value : BitVec 32) (s : State) :
    (seqTableWrite off value s).sluices = s.sluices := by
  unfold seqTableWrite
  (repeat' split) <;> simp

@[simp] theorem sluices_pk1Enable (s : State) : (pk1Enable s).sluices = s.sluices := by
  unfold pk1Enable
  simp

@[simp] theorem sluices_pk1Disable (s : State) : (pk1Disable s).sluices = s.sluices := by
  unfold pk1Disable
  simp

@[simp] theorem sluices_pk1Doorbell (last : BitVec 16) (s : State) : (pk1Doorbell last s).sluices = s.sluices := by
  unfold pk1Doorbell
  simp

@[simp] theorem sluices_pk1Skip (s : State) : (pk1Skip s).sluices = s.sluices := by
  unfold pk1Skip
  split <;> simp

@[simp] theorem sluices_qrnWrite (s : State) (o : Nat) (v : W32) : (qrnWrite s o v).sluices = s.sluices := by
  unfold qrnWrite
  (repeat' split) <;> simp

/-! ### DMA channels -/

@[simp] theorem sluices_enqueueOne (s : State) (stack : Nat) (r : FarReq) : (enqueueOne s stack r).sluices = s.sluices := by
  unfold enqueueOne
  simp

@[simp] theorem sluices_askAccess (s : State) (isDma : Bool) (n who : Nat) (port : Nat → Nat) (da len : Nat) (w : Bool) :
    (askAccess s isDma n who port da len w).sluices = s.sluices := by
  refine sluices_fold _ (fun u p => ?_) _ s
  simp only []
  (repeat' split) <;> simp

@[simp] theorem sluices_chanAsk (s : State) (g da len : Nat) (w : Bool) : (chanAsk s g da len w).sluices = s.sluices := by
  unfold chanAsk
  simp

@[simp] theorem sluices_settleCore (s : State) (n : Nat) : (settleCore s n).sluices = s.sluices :=
  sluices_coreWork (coreWork_settleCore s n)

@[simp] theorem sluices_endChain (s : State) (g status : Nat) (dflags done : Nat) :
    (endChain s g status dflags done).sluices = s.sluices := by
  unfold endChain
  simp only []
  split <;> simp

@[simp] theorem sluices_noteCol (s : State) (k : Nat) (l : Loc) (phys : Nat × Nat) (kind col : Nat) (cls : ColCls) (flagged : Bool) :
    (noteCol s k l phys kind col cls flagged).sluices = s.sluices :=
  sluices_memWork (memWork_noteCol s k l phys kind col cls flagged)

@[simp] theorem sluices_noteDecode (s : State) (k : Nat) (l : Loc) (phys : Nat × Nat) (d : RowDec) :
    (noteDecode s k l phys d).sluices = s.sluices :=
  sluices_memWork (memWork_noteDecode s k l phys d)

@[simp] theorem sluices_farWritePiece (s : State) (k : Nat) (l : Loc) (off : Nat) (bs : List Byte) (poison : List Bool) (port : Nat) :
    (farWritePiece s k l off bs poison port).sluices = s.sluices :=
  sluices_memWork (memWork_farWritePiece s k l off bs poison port)

@[simp] theorem sluices_daWrite (s : State) (port : Nat → Nat) (da : Nat) (bs : List Byte) (poison : List Bool) :
    (daWrite s port da bs poison).sluices = s.sluices :=
  sluices_memWork (memWork_daWrite s port da bs poison)

@[simp] theorem sluices_quietWrite (s : State) (g da : Nat) (bs : List Byte) : (quietWrite s g da bs).sluices = s.sluices := by
  unfold quietWrite
  split
  · simp only []
    split
    · simp
    · exact sluices_caused (fun u => sluices_daWrite u _ _ _ _) s _ _
  · simp

@[simp] theorem sluices_writeBack (s : State) (g : Nat) (cur : DmaCur) (status : Nat) :
    (writeBack s g cur status).sluices = s.sluices := by
  unfold writeBack
  (repeat' split) <;> simp

@[simp] theorem sluices_endDesc (s : State) (g : Nat) (cur : DmaCur) (status : Nat) :
    (endDesc s g cur status).sluices = s.sluices := by
  unfold endDesc
  simp

@[simp] theorem sluices_haltDma (s : State) (g cause : Nat) : (haltDma s g cause).sluices = s.sluices := by
  unfold haltDma
  simp

@[simp] theorem sluices_noteRearm (s : State) (g da owner : Nat) : (noteRearm s g da owner).sluices = s.sluices := by
  unfold noteRearm
  simp

@[simp] theorem sluices_finishNow (s : State) (g status : Nat) (follow : Bool) :
    (finishNow s g status follow).sluices = s.sluices := by
  unfold finishNow
  simp only []
  (repeat' split) <;> simp

@[simp] theorem sluices_finishDesc (s : State) (g status : Nat) (follow : Bool) :
    (finishDesc s g status follow).sluices = s.sluices := by
  unfold finishDesc
  (repeat' split) <;> simp

@[simp] theorem sluices_abortHalted (s : State) (g : Nat) : (abortHalted s g).sluices = s.sluices := by
  unfold abortHalted
  simp

@[simp] theorem sluices_settleAbort (s : State) (g : Nat) : (settleAbort s g).sluices = s.sluices := by
  unfold settleAbort
  simp only []
  (repeat' split) <;> simp

@[simp] theorem sluices_abort (g : Fin 64) (s : State) : (abort g s).sluices = s.sluices := by
  unfold abort
  simp only []
  (repeat' split) <;> simp

@[simp] theorem sluices_resume (g : Fin 64) (s : State) : (resume g s).sluices = s.sluices := by
  unfold resume
  simp only []
  (repeat' split) <;> simp

@[simp] theorem sluices_skip (g : Fin 64) (s : State) : (skip g s).sluices = s.sluices := by
  unfold skip
  simp only []
  split <;> simp

@[simp] theorem sluices_dmaCtlWrite (s : State) (g : Fin 64) (v : W32) : (dmaCtlWrite s g v).sluices = s.sluices := by
  unfold dmaCtlWrite
  simp only []
  (repeat' split) <;> simp

@[simp] theorem sluices_go (g : Fin 64) (value : BitVec 32) (s : State) : (go g value s).sluices = s.sluices := by
  unfold go
  simp only []
  (repeat' split) <;> simp

@[simp] theorem sluices_dmaWrite (s : State) (o : Nat) (v : W32) : (dmaWrite s o v).sluices = s.sluices := by
  unfold dmaWrite
  simp only []
  (repeat' split) <;> simp

/-! ### Rings and the host link -/

@[simp] theorem sluices_ringConfigWrite (ring : Fin 1024) (reg : Fin 5) (value : BitVec 32) (s : State) :
    (ringConfigWrite ring reg value s).sluices = s.sluices := by
  unfold ringConfigWrite
  simp only []
  (repeat' split) <;> simp

@[simp] theorem sluices_enableRing (s : State) (n : Nat) : (enableRing s n).sluices = s.sluices := by
  unfold enableRing
  simp

@[simp] theorem sluices_ringCtlWrite (s : State) (n : Nat) (v : W32) : (ringCtlWrite s n v).sluices = s.sluices := by
  unfold ringCtlWrite
  simp only []
  (repeat' split) <;> simp

@[simp] theorem sluices_ringIrqWrite (s : State) (n : Nat) (v : W32) : (ringIrqWrite s n v).sluices = s.sluices := by
  unfold ringIrqWrite
  simp only []
  (repeat' split) <;> simp

@[simp] theorem sluices_ringWrite (s : State) (o : Nat) (v : W32) : (ringWrite s o v).sluices = s.sluices := by
  unfold ringWrite
  simp only []
  (repeat' split) <;> simp

@[simp] theorem sluices_hostFlush (s : State) : (hostFlush s).sluices = s.sluices := by
  unfold hostFlush
  split
  · exact sluices_fold _ (fun u p => by split <;> simp) _ _
  · rfl

@[simp] theorem sluices_lnkWrite (s : State) (o : Nat) (v : W32) : (lnkWrite s o v).sluices = s.sluices := by
  unfold lnkWrite
  (repeat' split) <;> simp

/-! ### Unloading, and what follows it -/

@[simp] theorem sluices_cmdIgnored (s : State) : (cmdIgnored s).sluices = s.sluices := by
  unfold cmdIgnored
  simp

@[simp] theorem sluices_modPkg (s : State) (k : Nat) (f : Pkg → Pkg) : (modPkg s k f).sluices = s.sluices := by
  unfold modPkg
  simp

@[simp] theorem sluices_setWork (s : State) (w : Option PkgWork) : (setWork s w).sluices = s.sluices := by
  unfold setWork
  simp

@[simp] theorem sluices_deriveAlias (s : State) : (deriveAlias s).sluices = s.sluices := by
  unfold deriveAlias
  simp

@[simp] theorem sluices_sendMsg (s : State) (cls : Nat) (jobtag : W32) (args : List Nat) (payload : List Byte) (did : Option Nat) :
    (sendMsg s cls jobtag args payload did).sluices = s.sluices := by
  unfold sendMsg
  simp only []
  split <;> simp

@[simp] theorem sluices_startPairing (s : State) : (startPairing s).sluices = s.sluices := by
  unfold startPairing
  simp

@[simp] theorem sluices_rePair_again (s : State) : (rePair.again s).sluices = s.sluices := by
  unfold rePair.again
  simp

@[simp] theorem sluices_rePair (s : State) : (rePair s).sluices = s.sluices := by
  unfold rePair
  simp only []
  split <;> simp

@[simp] theorem sluices_changeDebug (s : State) (l : DebugLevel) : (changeDebug s l).sluices = s.sluices := by
  unfold changeDebug
  split <;> simp

@[simp] theorem sluices_runAfter (s : State) : (runAfter s).sluices = s.sluices := by
  unfold runAfter
  simp only []
  (repeat' split) <;> simp

@[simp] theorem sluices_stopCore (s : State) (n : Nat) : (stopCore s n).sluices = s.sluices := by
  unfold stopCore
  simp only []
  split <;> simp

@[simp] theorem sluices_beginUnload (s : State) (k : Fin 4) (err : Nat) (tag : W32) :
    (beginUnload s k err tag).sluices = s.sluices := by
  unfold beginUnload
  simp only [sluices_setWork, sluices_modPkg, sluices_fold _ sluices_stopCore]

@[simp] theorem sluices_nextUnloadN (fuel : Nat) (s : State) : (nextUnloadN fuel s).sluices = s.sluices := by
  induction fuel generalizing s with
  | zero => rfl
  | succ n ih =>
    simp only [nextUnloadN]
    (repeat' split) <;> simp [ih]

@[simp] theorem sluices_nextUnload (s : State) : (nextUnload s).sluices = s.sluices := by
  unfold nextUnload
  simp

@[simp] theorem sluices_loadFails (s : State) (k : Fin 4) (err : Nat) (tag : W32) :
    (loadFails s k err tag).sluices = s.sluices := by
  unfold loadFails
  simp

@[simp] theorem sluices_hostReadOut (s : State) (addr len tag : Nat) (desc : Bool) :
    (hostReadOut s addr len tag desc).sluices = s.sluices :=
  sluices_hostOut (hostOut_hostReadOut s addr len tag desc)

@[simp] theorem sluices_askHost (s : State) (addr len : Nat) (who : HostRead) : (askHost s addr len who).sluices = s.sluices := by
  unfold askHost
  simp

/-! ### Requests of the far path -/

@[simp] theorem sluices_sealedRefuse (s : State) (kind unit da : Nat) (jobtag : W32) (tag : Nat) :
    (sealedRefuse s kind unit da jobtag tag).sluices = s.sluices := by
  unfold sealedRefuse
  simp

@[simp] theorem sluices_rewriteRow (s : State) (key : Nat) (keys : List Nat) (d : RowDec) :
    (rewriteRow s key keys d).sluices = s.sluices :=
  sluices_memWork (memWork_fold _ (fun u c => memWork_storeCopies u keys c _) _ s)

@[simp] theorem sluices_noteFoundClean (s : State) (k : Nat) (l : Loc) (times : List W64) :
    (noteFoundClean s k l times).sluices = s.sluices := by
  unfold noteFoundClean
  simp

@[simp] theorem sluices_repairRow (s : State) (k : Nat) (l : Loc) (noted : Bool) :
    (repairRow s k l noted).sluices = s.sluices := by
  unfold repairRow
  simp only []
  (repeat' split) <;> simp

@[simp] theorem sluices_scrubRow (s : State) (k : Nat) (l : Loc) : (scrubRow s k l).sluices = s.sluices := by
  unfold scrubRow
  simp only []
  split
  · split <;> simp [sluices_fold _ (fun u p => sluices_noteCol u k _ _ 1 _ _ false)]
  · rfl

@[simp] theorem sluices_performReq (s : State) (k : Nat) (r : FarReq) : (performReq s k r).sluices = s.sluices := by
  have hread : ∀ n, (farReadPiece s k r.loc r.off n).2.2.sluices = s.sluices := fun n =>
    sluices_memWork (memWork_farReadCols s k r.loc _)
  unfold performReq
  split
  · simp only []
    (repeat' split) <;> simp [hread]
  · simp only []
    split <;> simp

@[simp] theorem sluices_performFar (s : State) (k : Nat) (r : FarReq) : (performFar s k r).sluices = s.sluices :=
  sluices_caused (fun u => sluices_performReq u k r) s _ _

@[simp] theorem sluices_checkQuernUe (s : State) (k : Nat) (l : Loc) : (checkQuernUe s k l).sluices = s.sluices := by
  unfold checkQuernUe
  simp only []
  split <;> simp

@[simp] theorem sluices_checkQuerns (s : State) (k : Nat) : (checkQuerns s k).sluices = s.sluices :=
  sluices_fold _ (fun u _ => sluices_checkQuernUe u k _) _ s

@[simp] theorem sluices_performChecked (s : State) (k : Nat) (r : FarReq) : (performChecked s k r).sluices = s.sluices := by
  unfold performChecked
  split <;> simp

@[simp] theorem sluices_leaveList (s : State) (k : Nat) (r : FarReq) : (leaveList s k r).sluices = s.sluices := by
  unfold leaveList
  simp only []
  split <;> simp

@[simp] theorem sluices_grant (s : State) (k : Nat) (r : FarReq) : (grant s k r).sluices = s.sluices := by
  unfold grant
  simp

@[simp] theorem sluices_performAll (k fuel : Nat) (s : State) : (performAll k fuel s).sluices = s.sluices := by
  induction fuel generalizing s with
  | zero => rfl
  | succ f ih =>
    simp only [performAll]
    split
    · rfl
    · exact (ih _).trans (sluices_grant s k _)

/-! ### Loading -/

@[simp] theorem sluices_clearKeys (s : State) (lo n : Nat) : (clearKeys s lo n).sluices = s.sluices := by
  unfold clearKeys
  simp

@[simp] theorem sluices_clearChan (s : State) (k c : Nat) : (clearChan s k c).sluices = s.sluices := by
  unfold clearChan
  simp

@[simp] theorem sluices_sealChannels (s : State) (k : Fin 4) (m : List Byte) : (sealChannels s k m).sluices = s.sluices := by
  unfold sealChannels
  simp only []
  rw [sluices_fold _ (fun u x => sluices_fold _ (fun v c => by split <;> simp) _ u), sluices_modPkg,
    sluices_fold _ (fun u x => by split <;> simp)]

@[simp] theorem sluices_startPackage (s : State) (w : PkgWork) (b : List Byte) (len : Nat) :
    (startPackage s w b len).sluices = s.sluices := by
  unfold startPackage
  split <;> simp

@[simp] theorem sluices_readSource (s : State) (w : PkgWork) (da len : Nat) : (readSource s w da len).sluices = s.sluices := by
  have hread : (daRead s da len).2.2.sluices = s.sluices := sluices_memWork (memWork_daRead s da len)
  unfold readSource
  simp only []
  (repeat' split) <;> simp [hread]

@[simp] theorem sluices_pkgLoad (value : BitVec 32) (s : State) : (pkgLoad value s).sluices = s.sluices := by
  unfold pkgLoad
  simp only []
  (repeat' split) <;> simp

@[simp] theorem sluices_pkgUnload (value : BitVec 32) (s : State) : (pkgUnload value s).sluices = s.sluices := by
  unfold pkgUnload
  (repeat' split) <;> simp

@[simp] theorem sluices_pkgCmdReserved (x0 : BitVec 32) (s : State) : (pkgCmdReserved x0 s).sluices = s.sluices := by
  unfold pkgCmdReserved
  split <;> simp

@[simp] theorem sluices_pkgCmdWrite (s : State) (v : W32) : (pkgCmdWrite s v).sluices = s.sluices := by
  unfold pkgCmdWrite
  (repeat' split) <;> simp

/-! ### Firmware and security -/

@[simp] theorem sluices_fwFails (s : State) (err : Nat) : (fwFails s err).sluices = s.sluices := by
  unfold fwFails
  simp

@[simp] theorem sluices_fwGo (s : State) : (fwGo s).sluices = s.sluices := by
  have hread := sluices_memWork (memWork_windowRead s (regFld s oFwSrc 25 0) (regFld s oFwLen 24 0))
  unfold fwGo
  simp only []
  generalize windowRead s (regFld s oFwSrc 25 0) (regFld s oFwLen 24 0) = r at hread
  (repeat' split) <;> simp [hread]

@[simp] theorem sluices_svnCommit (s : State) : (svnCommit s).sluices = s.sluices := by
  unfold svnCommit
  simp

@[simp] theorem sluices_secWrite (s : State) (o : Nat) (v : W32) : (secWrite s o v).sluices = s.sluices := by
  unfold secWrite
  (repeat' split) <;> simp

/-! ### Power -/

@[simp] theorem sluices_refuseRequest (s : State) : (refuseRequest s).sluices = s.sluices := by
  unfold refuseRequest
  simp

@[simp] theorem sluices_setRails (s : State) (l : List Nat) (r : RailSt) : (setRails s l r).sluices = s.sluices := by
  unfold setRails
  simp

@[simp] theorem sluices_loadBand (s : State) (k b : Nat) (all : Bool) : (loadBand s k b all).sluices = s.sluices := by
  unfold loadBand
  (repeat' split) <;> simp

@[simp] theorem sluices_exitSelfRefresh (s : State) (k : Nat) : (exitSelfRefresh s k).sluices = s.sluices := by
  unfold exitSelfRefresh
  simp only []
  (repeat' split) <;> simp

@[simp] theorem sluices_leaveStandby (s : State) : (leaveStandby s).sluices = s.sluices := by
  unfold leaveStandby
  simp only []
  (repeat' split) <;> simp [sluices_fold _ sluices_exitSelfRefresh]

@[simp] theorem sluices_reqActive (s : State) : (reqActive s).sluices = s.sluices := by
  unfold reqActive
  simp

@[simp] theorem sluices_standbyCores (s : State) : (standbyCores s).sluices = s.sluices := by
  unfold standbyCores
  simp

@[simp] theorem sluices_enterStandby (s : State) : (enterStandby s).sluices = s.sluices := by
  have hrails : (standbyCores (setRails (setRails s [8, 9, 10] .off) [4, 5, 6, 7] .retention)).sluices = s.sluices := by simp
  exact hrails

@[simp] theorem sluices_enterSelfRefresh (s : State) (k : Nat) : (enterSelfRefresh s k).sluices = s.sluices := by
  unfold enterSelfRefresh
  simp only []
  split
  · simp
  · have hslots : ∀ (u : State) (c : Nat), (modChan u k c (fun ch => { ch with slots := [], mill := none })).sluices = u.sluices :=
      fun u c => by simp
    simp [sluices_fold _ hslots]

@[simp] theorem sluices_settleSelfRefresh (s : State) (k : Nat) : (settleSelfRefresh s k).sluices = s.sluices := by
  unfold settleSelfRefresh
  split <;> simp

@[simp] theorem sluices_askSelfRefresh (standby : Bool) (s : State) (k : Fin 12) :
    (askSelfRefresh standby s k).sluices = s.sluices := by
  unfold askSelfRefresh
  simp only []
  (repeat' split) <;> simp

@[simp] theorem sluices_reqStandby_go (s : State) : (reqStandby.go s).sluices = s.sluices := by
  unfold reqStandby.go
  split
  · exact (sluices_enterStandby _).trans (sluices_fold _ (sluices_askSelfRefresh true) _ s)
  · exact sluices_refuseRequest s

@[simp] theorem sluices_reqStandby (s : State) : (reqStandby s).sluices = s.sluices := by
  unfold reqStandby
  split <;> simp

@[simp] theorem sluices_pwrCtlWrite (s : State) (v : W32) : (pwrCtlWrite s v).sluices = s.sluices := by
  unfold pwrCtlWrite
  split <;> simp

@[simp] theorem sluices_pwrTok (role : Fin 3) (add : BitVec 32) (s : State) : (pwrTok role add s).sluices = s.sluices := by
  unfold pwrTok
  simp

@[simp] theorem sluices_pwrWrite (s : State) (o : Nat) (v : W32) : (pwrWrite s o v).sluices = s.sluices := by
  unfold pwrWrite
  (repeat' split) <;> simp

@[simp] theorem sluices_thmWrite (s : State) (o : Nat) (v : W32) : (thmWrite s o v).sluices = s.sluices := by
  unfold thmWrite
  split <;> simp

/-! ### The log and the counters -/

@[simp] theorem sluices_faultClear (s : State) : (faultClear s).sluices = s.sluices := by
  unfold faultClear
  split <;> simp

@[simp] theorem sluices_logStatusWrite (s : State) (v : W32) : (logStatusWrite s v).sluices = s.sluices := by
  unfold logStatusWrite
  split <;> simp

@[simp] theorem sluices_clearCounters (s : State) (c : CntCls) : (clearCounters s c).sluices = s.sluices := by
  unfold clearCounters
  simp

@[simp] theorem sluices_clearPerf (s : State) : (clearPerf s).sluices = s.sluices := by
  unfold clearPerf
  simp

@[simp] theorem sluices_clearErr (s : State) : (clearErr s).sluices = s.sluices := by
  have hctl : ∀ (u : State) (n : Nat), (setCtl u n { ctlAt u n with restarts := 0 }).sluices = u.sluices := fun _ _ => rfl
  exact (sluices_fold _ hctl (List.range 4) _).trans (sluices_clearCounters s .err)

@[simp] theorem sluices_cntClrWrite (s : State) (v : W32) : (cntClrWrite s v).sluices = s.sluices := by
  unfold cntClrWrite
  (repeat' split) <;> simp

@[simp] theorem sluices_logWrite (s : State) (o : Nat) (v : W32) : (logWrite s o v).sluices = s.sluices := by
  unfold logWrite
  (repeat' split) <;> simp

/-! ### Register space -/

@[simp] theorem sluices_barWrite (s : State) (o : Nat) (v : W32) : (barWrite s o v).sluices = s.sluices :=
  sluices_ite rfl <| sluices_ite (sluices_hubWrite s o v) <| sluices_ite rfl <| sluices_ite (sluices_coreWrite s o v) <|
    sluices_ite (sluices_stkWrite s o v) <| sluices_ite (sluices_qrnWrite s o v) <| sluices_ite (sluices_dmaWrite s o v) <|
    sluices_ite (sluices_ringWrite s o v) <| sluices_ite (sluices_lnkWrite s o v) <| sluices_ite (sluices_plainWrite s o v) <|
    sluices_ite (sluices_secWrite s o v) <| sluices_ite (sluices_pwrWrite s o v) <| sluices_ite (sluices_thmWrite s o v) <|
    sluices_ite (sluices_logWrite s o v) rfl

@[simp] theorem sluices_barWriteBytes (s : State) (o : Nat) (bs : List Byte) : (barWriteBytes s o bs).sluices = s.sluices := by
  unfold barWriteBytes
  exact sluices_fold _ (fun u (p : Nat × W32) => sluices_barWrite u p.1 p.2) _ s

/-! ### The sluice -/

theorem sluices_barRead (s : State) (o len : Nat) : (barRead s o len).2.sluices = s.sluices := by
  have hword : ∀ u o, (afterRead u o).sluices = u.sluices := fun u o => sluices_ite rfl rfl
  have hfuel : ∀ n o last u, (barReadN n o last u).2.sluices = u.sluices := by
    intro n
    induction n with
    | zero => exact fun _ _ _ => rfl
    | succ n ih =>
      intro o last u
      simp only [barReadN]
      split
      · rfl
      · exact (ih _ _ _).trans (hword u o)
  exact hfuel _ _ _ s

theorem sluices_sluiceRead (s : State) (d : Desc) : (sluiceRead s d).2.2.sluices = s.sluices := by
  unfold sluiceRead
  split
  · exact sluices_barRead s _ _
  · exact sluices_memWork (memWork_daRead s _ _)

theorem sluices_sluiceStore (s : State) (d : Desc) (bs : List Byte) : (sluiceStore s d bs).sluices = s.sluices := by
  unfold sluiceStore
  split
  · exact sluices_barWriteBytes s _ bs
  · exact sluices_daWrite s _ _ bs []

/-- R290: a transfer without an arrival ends, whatever the work that moved its bytes did. -/
theorem settleSluice_after {s u : State} {x : Sluice} (h : u.sluices = s.sluices) (harr : dArr x.d = false) (status : Nat) :
    (settleSluice u x status).sluices = s.sluices.filter (fun y => y.id != x.id) ∧
      admAt (settleSluice u x status) x.did = none := by
  obtain ⟨-, hsluices, hadm⟩ := settleSluice_frame (s := u) (x := x) (status := status) (fun _ => harr)
  exact ⟨hsluices.trans (by rw [h]), hadm⟩

theorem storeLate_ends {s : State} {x : Sluice} (bs : List Byte) (harr : dArr x.d = false)
    (hready : rangeWaits s (sluiceDa x.d) (dBlklen x.d) true = false) :
    (storeLate s x bs).sluices = s.sluices.filter (fun y => y.id != x.id) ∧ admAt (storeLate s x bs) x.did = none := by
  unfold storeLate
  rw [if_neg (ne_true_of_eq_false hready)]
  exact settleSluice_after (sluices_caused (fun u => sluices_sluiceStore u x.d _) s _ _) harr 0

theorem runSluice_ends {s : State} {x : Sluice} (harr : dArr x.d = false) :
    (runSluice s x).sluices = s.sluices.filter (fun y => y.id != x.id) ∧ admAt (runSluice s x) x.did = none := by
  unfold runSluice
  split
  · exact settleSluice_after rfl harr _
  · refine settleSluice_after (sluices_ite (sluices_sluiceRead s x.d) ?_) harr _
    exact (sluices_hostOut (hostOut_hostWriteOut _ _ _ _)).trans (sluices_sluiceRead s x.d)

/-- R290: a transfer without an outcome times out, is written late, or is performed; in each case it ends. -/
theorem sluiceComplete_runs {s : State} {n : Nat} {x : Sluice} (hfind : s.sluices.find? (fun y => y.id == n) = some x)
    (hbehind : sluiceBehind s x = false) (hstatus : x.status = none) (harr : dArr x.d = false)
    (hgoes : (dSas x.d = true ∧ x.got = none) ∨ ((dSas x.d = true ∨ (x.got = none ∧ linkCarries s = true)) ∧
      (∀ w, rangeWaits s (sluiceDa x.d) (dBlklen x.d) w = false))) :
    (sluiceComplete n s).sluices = s.sluices.filter (fun y => y.id != n) ∧ admAt (sluiceComplete n s) x.did = none := by
  have hid : x.id = n := beq_iff_eq.mp (List.find?_some (p := fun y : Sluice => y.id == n) hfind)
  rw [← hid]
  rw [← hid] at hfind
  unfold sluiceComplete
  simp only [hfind, hbehind, hstatus]
  rw [if_neg Bool.false_ne_true]
  cases hgot : x.got with
  | some bs =>
    obtain ⟨-, hnone⟩ | ⟨-, hready⟩ := hgoes
    · exact absurd (hgot.symm.trans hnone) nofun
    · exact storeLate_ends bs harr (hready true)
  | none =>
    by_cases hsas : dSas x.d = true
    · simp only [hsas, if_true]
      exact settleSluice_after rfl harr _
    · obtain ⟨hin, -⟩ | ⟨hin | ⟨-, hlink⟩, hready⟩ := hgoes
      · exact absurd hin hsas
      · exact absurd hin hsas
      · simp only [hsas, hlink, hready false]
        exact runSluice_ends harr

end Sys2Proof.Machine

/-! SUPPORT. This settles the statement on the DMA channels. -/

namespace Sys2Proof.Machine

open Sys2Proof

/-! ### The statement -/

/-- Settles O47: each command by what it makes of its channel, and what it leaves of the memory beside it. -/
theorem dmaChannels : Obligations.DmaChannels := by
  unfold Obligations.DmaChannels
  rintro s g ch rfl
  refine ⟨?start, ?held, ?head, ?fetch, ?block, ?paced, ?look, ?arrival, ?statusWord, ?endWaits, ?ending, ?halt, ?reading, ?timeout,
    ?late, ?halted, ?abort, ?go, ?sluice⟩
  case start =>
    exact fun p rest hpending hidle hmay hheld => ran_of_eq (dmaStartTaken_takes hpending hidle hmay hheld)
  case held =>
    exact fun hheld => ⟨ran_of_eq (dmaStartTaken_held hheld), ran_of_eq (dmaBlockIssue_held hheld)⟩
  case head =>
    intro p d hst hhalting haborting hending hfetching hstart hhead hlinks
    exact ⟨exec_head_runs hst hhalting haborting hending hfetching hstart hhead hlinks,
      fun did => exec_head_refused hst hhalting haborting hending hfetching hstart hhead hlinks⟩
  case fetch =>
    intro da x u hst hhalting haborting hending hfetching hgot hready hfetch
    obtain ⟨hexec, hchan⟩ := exec_fetch hst hhalting haborting hending hfetching hgot hready hfetch
    rw [hexec]
    refine ⟨fun d hx hgood => ?_, fun c hx => ?_⟩
    · obtain ⟨auth, -, -, hruns⟩ := takeDesc_runs (some da) hgood
      rw [hx]
      exact ⟨_, rfl, congrArg DmaCh.st hruns, congrArg (fun c => c.cur.map (fun c => (c.d, c.da))) hruns⟩
    · rw [hx]
      exact ⟨_, rfl, dmaAt_takeFetched_fault (da := da) (by rw [hchan]; exact hhalting)⟩
  case block =>
    rintro cur a n u bs hst hhalting haborting hending hheld hcur hreading hblock hpass hidxs hidxd hdas harr rfl rfl hdst
    exact ⟨exec_block_device hst hhalting haborting hending hheld hcur hreading hblock hpass hidxs hidxd hdas harr hdst,
      exec_block_host hst hhalting haborting hending hheld hcur hreading hblock hpass hidxs hidxd hdas harr hdst⟩
  case paced =>
    exact fun cur n u hst hhalting haborting hending hheld hcur hreading hblock =>
      exec_block_paces hst hhalting haborting hending hheld hcur hreading hblock
  case look =>
    intro i p n cur u hi hst hhalting hending hcur hp hready hfill
    have hlook := pacedLook_looks hst hhalting hending hcur hfill
    have hdmas := dmas_fillOf s g cur
    rw [hfill] at hdmas
    rw [exec_pacedLook hi hcur hp hready]
    refine ⟨fun hlow => ⟨_, ran_of_eq (hlook.trans (if_neg (Nat.not_le.mpr hlow))), sameMemory_refl u, ?_⟩,
      fun hlow => ran_of_eq (hlook.trans (if_pos hlow))⟩
    rw [dmaAt_kept, dmaAt_of_dmas_eq hdmas]
    exact hst
  case arrival =>
    exact fun n e harrivals hst haborting hfree => exec_arrWaitRelease harrivals hst haborting hfree
  case statusWord =>
    intro cur da did hst hhalting haborting hending hcur hreading hblock harr hwb hda hfault
    refine ⟨exec_statusWord_waits hst hhalting haborting hending hcur hreading hblock, fun hwaits hlink horigin => ?_⟩
    have hback := dmaDescriptorComplete_writesBack hst hhalting haborting hending hcur hreading hblock harr hwb hda hfault hwaits
      hlink horigin
    exact ⟨kept s (dmaDescriptorComplete g s), rfl, hback⟩
  case endWaits =>
    exact fun cur status follow hcur hending hwaits => ran_of_eq (dmaDescriptorComplete_ending hcur hending hwaits)
  case ending =>
    intro cur p hst hhalting haborting hending hcur hreading hblock harr hwb hstart
    exact ⟨fun did => exec_over_ends hst hhalting haborting hending hcur hreading hblock harr hwb hstart,
      exec_over_links hst hhalting haborting hending hcur hreading hblock harr hwb⟩
  case halt =>
    intro cause hhalting hending hreading harrivals
    exact ⟨exec_halt_holds hhalting hreading harrivals, fun hoff => ⟨exec_halt_ends hhalting hreading harrivals hoff,
      fun x => exec_halt_waits hhalting hreading harrivals hoff⟩⟩
  case reading =>
    intro cur tag hcur hreading hhalting hending
    obtain ⟨hmem, hchan⟩ := dmaResponseTimeout_reading hcur hreading hhalting hending
    exact ran_memory_dma_eq hmem hchan
  case timeout =>
    exact fun p hreading hst hhalting hending hopen => ⟨fun hpaused => ran_of_eq (dmaResponseTimeout_pauses hreading hopen hpaused),
      exec_timeout hreading hst hhalting hending hopen⟩
  case late =>
    exact exec_lateResponse
  case halted =>
    intro hst hending
    refine ⟨fun cur hcur => ran_of_eq (resume_restarts hst hending hcur),
      fun hcur hfetching h4 h6 => ran_of_eq (resume_refetches hst hending hcur hfetching h4 h6), fun i hi hnone hready => ?_⟩
    obtain ⟨follow, hexec, hlast⟩ := exec_haltedEnds hst hending hi hnone
    rw [hexec]
    refine ⟨_, rfl, fun hcur => ?_, dmaAt_finishDesc_ends _ hready hlast⟩
    rw [finishDesc_none _ _ hcur]
    exact sameMemory_endChain s g _ 0 0
  case abort =>
    exact fun cur hst hending hcur hreading => ran_of_eq (abort_waits hst hending hcur hreading)
  case go =>
    rintro v lo rfl
    refine ⟨fun hclear => ran_of_eq (go_address s hclear), fun hset haligned hroom howner => ?_⟩
    refine ⟨_, ran_of_eq (go_joins hset haligned hroom howner), ?_⟩
    rw [sameMemory_kept_iff, dmaAt_kept, dmaAt_modDma]
    exact ⟨sameMemory_refl s, rfl⟩
  case sluice =>
    intro x n hfind hbehind
    have hid : x.id = n := beq_iff_eq.mp (List.find?_some (p := fun y : Sluice => y.id == n) hfind)
    refine ⟨fun status hstatus harr => ?_, fun hstatus harr hgoes => ?_⟩
    · have hends := settleSluice_frame (s := s) harr
      rw [hid] at hends
      exact ⟨_, ran_of_eq (sluiceComplete_known hfind hbehind hstatus), hends⟩
    · exact ⟨kept s (sluiceComplete n s), rfl, sluiceComplete_runs hfind hbehind hstatus harr hgoes⟩

end Sys2Proof.Machine
